-- ==== Sys2Proof/Word.lean ====
section
/-!
DEFINITION. The plain value types of the block: 32-bit mailbox and register words (R18), bytes as they
lie in host memory or on the wire, and sparse tables by number.
-/
namespace Sys2Proof

/-- A mailbox word, a register, a table word: 32 bits (R18). -/
abbrev Word := BitVec 32

/-- One byte. -/
abbrev Byte := BitVec 8

/-- A byte string: a frame, a message, a key. -/
abbrev Bytes := List Byte

/-- A sparse table: rows by number, numbers strictly rising; a number that is not listed has the
default row its user names. -/
abbrev Table (α : Type) := List (Nat × α)

end Sys2Proof
end

