-- ==== Sys2Proof/Syntax.lean ====
section
/-!
DEFINITION. The commands of the block: the inductive Instr, one constructor per row of
spec/opcode_table.json, and the records its operands are made of.
-/
namespace Sys2Proof

/-- A request record of R49 as the device latched it, with the requester it came from and, for a command
that names a host buffer (R51), the bytes the Signal box reads there. -/
structure NcsReq where
  /-- NCS page 0 to 64, or 65 for the SMBus channel (R40, R79). -/
  page : Nat
  /-- Sequence tag, word 0 [15:8]. -/
  tag : Nat
  /-- Word 0 [0]. -/
  expert : Bool
  /-- Word 0 [7:1], reserved. -/
  rsv : Nat
  /-- Word 1. -/
  len : Nat
  /-- Words 2 on. -/
  payload : List Word
  /-- What the host buffer named by the payload holds (R51); empty where there is none. -/
  buf : Bytes
deriving DecidableEq, Repr

/-- Which window a host access goes through (R41, R42): BAR0 of the physical function, BAR0 of virtual
function n, or BAR2 of the physical function. -/
inductive Window where
  | pf
  | vf (n : Nat)
  | bar2
deriving DecidableEq, Repr

/-- What the steps of a start find (R94, R96, R248, R252, R363, R505, R544, R547). -/
structure StartOutcome where
  /-- The samples of the noise sources in their start-up tests. -/
  source0 : List Bool
  source1 : List Bool
  /-- The two readings of the lock state by the boot ROM agree. -/
  bootAgree : Bool
  /-- The flash copy of the tamper responses authenticates. -/
  copyOk : Bool
  /-- The image slot, and the recall slot, pass their block checks and signatures. -/
  imageOk : Bool
  recallOk : Bool
  /-- Channels that fail HBM training. -/
  channels : List Nat
  /-- Granary initialisation and the read-back check hold. -/
  granaryOk : Bool
  /-- The lockstep self-check of the firmware passes. -/
  lockstep : Bool
  /-- Slices that fail a known-answer test, with the results of the two runs of each test. -/
  slices : List (Nat × List (Bool × Bool))
  /-- What flash holds of the seal and of the journal record authenticates, and counter records that do not: 0 to
  255 slots, 256 on pages. -/
  sealOk : Bool
  journalOk : Bool
  badCounters : List Nat
deriving DecidableEq, Repr

/-- What the receiver of a lane measured over the tick that ends (R475, R482, R487): FoM and lowest FoM in
0.1 dB, FEC codewords, checker counts. -/
structure LaneTick where
  /-- side × 64 + lane, side 0 line, 1 client. -/
  key : Nat
  fom : Nat
  low : Nat
  corrected : Nat
  uncorrectable : Nat
  symbols : Nat
  bits : Nat
  errors : Nat
  locked : Bool
deriving DecidableEq, Repr

/-- What a lane measures when it gains its locks, in ps (R445, R446): d_lock and the d_live taken from the
clock-crossing fill, receive and transmit. -/
structure LockMeas where
  rxLock : Int
  txLock : Int
  rxLive : Int
  txLive : Int
deriving DecidableEq, Repr


/-- What the Winnower, or another access to the Granary, meets (R355, R360). -/
inductive ScrubFind where
  /-- The scrub pass ends; the next one begins. -/
  | passEnd
  /-- A correctable error in a row of a channel. -/
  | correctable (ch row : Nat)
  /-- An uncorrectable error in copy A or B of a tree node of level 1 to 3; whether the other copy verifies. -/
  | node (level index : Nat) (copyB otherOk : Bool)
  /-- A copy of a tree node fails its MAC with no uncorrectable error. -/
  | nodeMac (level index : Nat) (copyB : Bool)
  /-- A data line fails its MAC, or it or its MAC area has an uncorrectable error. -/
  | data (pfn line : Nat) (uncorrectable : Bool)
  /-- A counter line fails its MAC or has an uncorrectable error. -/
  | counter (pfn : Nat)
  /-- The read of a partial write of a line fails its verification (R350). -/
  | partialRead (pfn line : Nat)
  /-- An uncorrectable error in an on-die tree level, the root, the page maps or the Granary key registers. -/
  | onDie
deriving DecidableEq, Repr

/-- What the calibration of a droop sensor has before it at a tick boundary (R591). -/
structure SensorTick where
  sector : Nat
  sensor : Nat
  /-- Mean reading over the tick in mV, and the expected steady drop: the estimated current times the load line. -/
  reading : Nat
  drop : Nat
deriving DecidableEq, Repr

/-- What a client port in line mode delivered over the frame period that ends (R179, R182, R186): the bytes of a CBR
client, the 66b blocks of the PCS of an Ethernet client, and whether its PCS is not locked or its signal is lost. -/
structure ClientIn where
  port : Nat
  bytes : Bytes
  blocks : List (BitVec 66)
  failed : Bool
deriving DecidableEq, Repr

/-- What host memory holds from an address on (R614, R616). -/
structure HostSeg where
  addr : Nat
  bytes : Bytes
deriving DecidableEq, Repr

/-- An operand of a row with the TU cycles that pass before the row acts. -/
structure Timed where
  val : Nat
  dt : Nat
deriving DecidableEq, Repr

/-- What one frame period meets in the sender: the lanes whose stream the slices skip, and those with a container
that the mapper could not assemble because of an internal fault (R219). -/
structure LaneSkips where
  skips : List Nat
  faults : List Nat
deriving DecidableEq, Repr

/-- Host memory as the DMA engine meets it: the memory that answers, the ranges (address, length) that never complete
an access, and whether bus mastering is enabled. Any other access is answered Unsupported Request (R617). -/
structure HostMem where
  segs : List HostSeg
  mute : List (Nat × Nat)
  master : Bool
deriving DecidableEq, Repr


/-- The commands of the block, one constructor per row of spec/opcode_table.json, in the table's order.
A row that is an NCS command carries its request record; a row that is an access, a wire event or an
instant carries what the outside world determines about it. -/
inductive Instr where
  /-- TICK_BOUNDARY (R648). -/
  | tickBoundary (lanes : List LaneTick)
  /-- NCS_DOORBELL_WRITE (R46). -/
  | ncsDoorbellWrite (page : Nat) (v : Word)
  /-- REQUEST_PICKUP (R69). -/
  | requestPickup (buf : Bytes)
  /-- NCS_EVT_HEAD_WRITE (R63). -/
  | ncsEvtHeadWrite (page : Nat) (v : Word)
  /-- NCS_EVT_LOST_READ (R44). -/
  | ncsEvtLostRead (page : Nat)
  /-- NCS_IRQ_MASK_WRITE (R67). -/
  | ncsIrqMaskWrite (page : Nat) (v : Word)
  /-- IRQ_CTL_WRITE (R68). -/
  | irqCtlWrite (v : Word)
  /-- IRQ_COALESCE_EXPIRY (R68). -/
  | irqCoalesceExpiry (vec : Nat)
  /-- IRQ_TEST_FIRE (R68). -/
  | irqTestFire (v : Word)
  /-- REGISTER_WRITE (R19). -/
  | registerWrite (win : Window) (off : Nat) (v : Word)
  /-- PAGE_HW_BUSY_ANSWER (R74). -/
  | pageHwBusyAnswer (page : Nat)
  /-- HALTED_REQUEST_ANSWER (R77). -/
  | haltedRequestAnswer (page : Nat)
  /-- SB_RESTART_COMPLETE (R76). -/
  | sbRestartComplete
  /-- SMB_BLOCK_WRITE (R80). -/
  | smbBlockWrite (words : List Word) (pecOk : Bool)
  /-- SMB_BLOCK_READ (R80). -/
  | smbBlockRead
  /-- SMB_READ_BYTE (R80). -/
  | smbReadByte
  /-- SMB_ADDRESS_MATCH_WAKE (R81). -/
  | smbAddressMatchWake (rtc : Word)
  /-- NCS_PING (R83). -/
  | ncsPing (r : NcsReq)
  /-- NCS_GET_INFO (R84). -/
  | ncsGetInfo (r : NcsReq)
  /-- NCS_SET_EXPERT (R85). -/
  | ncsSetExpert (r : NcsReq)
  /-- NCS_SET_EVT_MASK (R86). -/
  | ncsSetEvtMask (r : NcsReq)
  /-- NCS_RING_RESET (R87). -/
  | ncsRingReset (r : NcsReq)
  /-- SYS_GET_STATE (R104). -/
  | sysGetState (r : NcsReq)
  /-- SYS_SET_MODE (R105). -/
  | sysSetMode (r : NcsReq)
  /-- SYS_SLEEP (R106). -/
  | sysSleep (r : NcsReq)
  /-- SYS_RESET (R107). -/
  | sysReset (r : NcsReq)
  /-- SYS_RESET_TRIGGER (R107). -/
  | sysResetTrigger
  /-- SYS_MGMT_RESTART (R108). -/
  | sysMgmtRestart (r : NcsReq)
  /-- SYS_ADVANCE_LIFE (R109). -/
  | sysAdvanceLife (r : NcsReq)
  /-- LIFE_OTP_WRITE_DONE (R109). -/
  | lifeOtpWriteDone
  /-- SYS_CLEAR_CONFIG (R110). -/
  | sysClearConfig (r : NcsReq)
  /-- SYS_RECALIBRATE (R112). -/
  | sysRecalibrate (r : NcsReq)
  /-- RECAL_SLICE_TEST_DONE (R111). -/
  | recalSliceTestDone (runs : List (Bool × Bool))
  /-- RECAL_DROOP_PHASE_END (R111). -/
  | recalDroopPhaseEnd
  /-- MAIN_POWER_LOSS (R89). -/
  | mainPowerLoss
  /-- MAIN_POWER_RETURN (R93). -/
  | mainPowerReturn (rtc : Word)
  /-- RST_N_RESET (R98). -/
  | rstNReset
  /-- WAKE_N_WAKE (R93). -/
  | wakeNWake (rtc : Word)
  /-- RTC_ALARM_WAKE (R93). -/
  | rtcAlarmWake
  /-- AO_COLD_START (R99). -/
  | aoColdStart
  /-- START_SEQUENCE (R94). -/
  | startSequence (o : StartOutcome)
  /-- MODE_ENTRY (R95). -/
  | modeEntry (us : Word)
  /-- PERST_N_RELEASE (R97). -/
  | perstNRelease
  /-- PCIE_HOT_RESET (R98). -/
  | pcieHotReset
  /-- VF_FLR (R98). -/
  | vfFlr (vf : Nat)
  /-- DORMANT_REACHED (R101). -/
  | dormantReached
  /-- CLIENT_FRAME_RECEIVE (R124). -/
  | clientFrameReceive (port : Nat) (frame : Bytes) (full : Bool) (dt : Nat)
  /-- LINE_FRAME_RECEIVE (R133). -/
  | lineFrameReceive (port : Nat) (frame : Bytes) (full : Bool) (dt : Nat)
  /-- RX_ICV_VERDICT (R135). -/
  | rxIcvVerdict (id : Nat)
  /-- CONTEXT_FETCH_DONE (R320). -/
  | contextFetchDone (sa : Nat)
  /-- CONTEXT_LOAD_DONE (R240). -/
  | contextLoadDone (slice sa : Nat)
  /-- REORDER_RELEASE (R31). -/
  | reorderRelease (id : Nat)
  /-- EGRESS_SELECT (R414). -/
  | egressSelect (port : Nat) (dt : Nat)
  /-- RULE_SWAP (R127). -/
  | ruleSwap (sector : Nat)
  /-- FM_PORT_BIND (R145). -/
  | fmPortBind (r : NcsReq)
  /-- FM_PORT_UNBIND (R146). -/
  | fmPortUnbind (r : NcsReq)
  /-- FM_SECY_CREATE (R147). -/
  | fmSecyCreate (r : NcsReq)
  /-- FM_SECY_SET (R148). -/
  | fmSecySet (r : NcsReq)
  /-- FM_SECY_DELETE (R149). -/
  | fmSecyDelete (r : NcsReq)
  /-- FM_SC_CREATE (R150). -/
  | fmScCreate (r : NcsReq)
  /-- FM_SC_DELETE (R150). -/
  | fmScDelete (r : NcsReq)
  /-- FM_STATS_GET (R151). -/
  | fmStatsGet (r : NcsReq)
  /-- FM_PTP_SET (R152). -/
  | fmPtpSet (r : NcsReq)
  /-- FM_BYPASS_SET (R153). -/
  | fmBypassSet (r : NcsReq)
  /-- FM_PN_THRESHOLD_SET (R154). -/
  | fmPnThresholdSet (r : NcsReq)
  /-- FM_RULE_WRITE (R155). -/
  | fmRuleWrite (r : NcsReq)
  /-- FM_RULE_READ (R156). -/
  | fmRuleRead (r : NcsReq)
  /-- FM_RULE_COMMIT (R157). -/
  | fmRuleCommit (r : NcsReq)
  /-- ESURDEL_FRAME_TRANSMIT (R161). -/
  | esurdelFrameTransmit (laneType : Nat) (clients : List ClientIn) (misses : LaneSkips) (dt : Nat)
  /-- ESURDEL_FRAME_RECEIVE (R192). -/
  | esurdelFrameReceive (lane : Nat) (pos : Nat) (bytes : Bytes) (skip : Bool) (dt : Nat)
  /-- BAR_EXPIRY (R195). -/
  | barExpiry (lane : Nat) (pos : Timed)
  /-- SHEAF_RELEASE (R188). -/
  | sheafRelease (sheaf fc dt : Nat)
  /-- TX_SUPERFRAME_BOUNDARY (R203). -/
  | txSuperframeBoundary (laneType : Nat)
  /-- RX_SUPERFRAME_BOUNDARY (R203). -/
  | rxSuperframeBoundary (sheaf superframe : Nat)
  /-- LM_PORT_ENABLE (R206). -/
  | lmPortEnable (r : NcsReq)
  /-- LM_PORT_DISABLE (R206). -/
  | lmPortDisable (r : NcsReq)
  /-- LM_SHEAF_CREATE (R207). -/
  | lmSheafCreate (r : NcsReq)
  /-- LM_SHEAF_DELETE (R207). -/
  | lmSheafDelete (r : NcsReq)
  /-- LM_CLIENT_MAP (R208). -/
  | lmClientMap (r : NcsReq)
  /-- LM_CLIENT_UNMAP (R208). -/
  | lmClientUnmap (r : NcsReq)
  /-- LM_LANE_STATUS (R209). -/
  | lmLaneStatus (r : NcsReq)
  /-- LM_TRACE_SET (R210). -/
  | lmTraceSet (r : NcsReq)
  /-- LM_TRACE_GET (R210). -/
  | lmTraceGet (r : NcsReq)
  /-- LM_DESC_WRITE (R211). -/
  | lmDescWrite (r : NcsReq)
  /-- LM_DESC_READ (R211). -/
  | lmDescRead (r : NcsReq)
  /-- LM_DESC_COMMIT (R203). -/
  | lmDescCommit (r : NcsReq)
  /-- LM_HUNT_WRITE (R212). -/
  | lmHuntWrite (r : NcsReq)
  /-- LM_HUNT_READ (R212). -/
  | lmHuntRead (r : NcsReq)
  /-- LM_TEST_MODE (R213). -/
  | lmTestMode (r : NcsReq)
  /-- LOS_DECLARE (R216). -/
  | losDeclare (lane : Timed)
  /-- LOS_CLEAR (R216). -/
  | losClear (lane : Timed)
  /-- LOL_CLEAR (R216). -/
  | lolClear (lane : Timed)
  /-- LOF_DECLARE (R216). -/
  | lofDeclare (lane : Timed)
  /-- LOF_CLEAR (R216). -/
  | lofClear (lane : Timed)
  /-- LOSF_DECLARE (R216). -/
  | losfDeclare (lane : Timed)
  /-- LOA_DECLARE (R216). -/
  | loaDeclare (lane : Timed)
  /-- LOA_CLEAR (R216). -/
  | loaClear (lane : Timed)
  /-- SECONDS_BOUNDARY (R448). -/
  | secondsBoundary (dt : Nat)
  /-- LM_DEFECT_GET (R233). -/
  | lmDefectGet (r : NcsReq)
  /-- LM_PM_GET (R234). -/
  | lmPmGet (r : NcsReq)
  /-- LM_DEFECT_PARAM_WRITE (R235). -/
  | lmDefectParamWrite (r : NcsReq)
  /-- LM_DEFECT_PARAM_READ (R235). -/
  | lmDefectParamRead (r : NcsReq)
  /-- LM_MAINT_SET (R236). -/
  | lmMaintSet (r : NcsReq)
  /-- SHADOW_RECOMPUTE_DONE (R253). -/
  | shadowRecomputeDone (slice : Nat) (tag : Bytes)
  /-- SHADOW_ARBITRATION_DONE (R254). -/
  | shadowArbitrationDone (slice : Nat) (tag : Bytes) (runs : List (Bool × Bool))
  /-- SIDING_TAKEOVER_DONE (R323). -/
  | sidingTakeoverDone (siding : Nat)
  /-- MASK_EXPANDER_RESEED (R245). -/
  | maskExpanderReseed (slice : Nat)
  /-- CONTEXT_RERANDOMISE (R241). -/
  | contextRerandomise (slice : Nat)
  /-- DRBG_RESEED (R247). -/
  | drbgReseed
  /-- ENTROPY_TEST_FAIL (R248). -/
  | entropyTestFail (source : Nat) (samples : List Bool)
  /-- SOURCE_STARTUP_TEST_DONE (R248). -/
  | sourceStartupTestDone (source : Nat) (samples : List Bool)
  /-- DRBG_RESEED_LIMIT (R248). -/
  | drbgReseedLimit
  /-- BULK_JOB_DONE (R264). -/
  | bulkJobDone (page tag : Nat) (busOk : Bool)
  /-- SLICE_STATUS (R261). -/
  | sliceStatus (r : NcsReq)
  /-- SLICE_MAP (R262). -/
  | sliceMap (r : NcsReq)
  /-- RNG_STATUS (R263). -/
  | rngStatus (r : NcsReq)
  /-- BULK_SUBMIT (R264). -/
  | bulkSubmit (r : NcsReq)
  /-- BULK_CANCEL (R266). -/
  | bulkCancel (r : NcsReq)
  /-- SLICE_TEST (R267). -/
  | sliceTest (r : NcsReq)
  /-- SLICE_TEST_DONE (R267). -/
  | sliceTestDone (slice : Nat) (runs : List (Bool × Bool))
  /-- SLICE_SHADOW_SET (R268). -/
  | sliceShadowSet (r : NcsReq)
  /-- SA_INSTALL (R299). -/
  | saInstall (r : NcsReq)
  /-- SA_DESTROY (R300). -/
  | saDestroy (r : NcsReq)
  /-- SA_SET_ENCODING (R300). -/
  | saSetEncoding (r : NcsReq)
  /-- SA_STATUS (R301). -/
  | saStatus (r : NcsReq)
  /-- KC_SCHEDULE (R302). -/
  | kcSchedule (r : NcsReq)
  /-- KC_CANCEL (R302). -/
  | kcCancel (r : NcsReq)
  /-- KC_CHAIN_CREATE (R303). -/
  | kcChainCreate (r : NcsReq)
  /-- KC_CHAIN_DELETE (R303). -/
  | kcChainDelete (r : NcsReq)
  /-- KA_PEER_SET (R304). -/
  | kaPeerSet (r : NcsReq)
  /-- KA_START (R305). -/
  | kaStart (r : NcsReq)
  /-- KA_STATUS (R305). -/
  | kaStatus (r : NcsReq)
  /-- KC_PARAM_WRITE (R306). -/
  | kcParamWrite (r : NcsReq)
  /-- KC_PARAM_READ (R306). -/
  | kcParamRead (r : NcsReq)
  /-- KC_REKEY_ALL (R294). -/
  | kcRekeyAll (r : NcsReq)
  /-- KC_PRELOAD (R279). -/
  | kcPreload (id : Nat) (dt : Nat)
  /-- KC_SWITCH (R276). -/
  | kcSwitch (id : Nat) (dt : Nat)
  /-- SA_RETIRE_TX (R276). -/
  | saRetireTx (sa : Nat) (dt : Nat)
  /-- SA_RETIRE_RX (R277). -/
  | saRetireRx (sa : Nat) (dt : Nat)
  /-- KC_SCHED_LATE (R278). -/
  | kcSchedLate (sa : Nat) (dt : Nat)
  /-- CHAIN_PERIOD_SWITCH (R284). -/
  | chainPeriodSwitch (obj : Nat) (dt : Nat)
  /-- CHAIN_DERIVE_DONE (R283). -/
  | chainDeriveDone (obj : Nat)
  /-- REKEY_ALL_NEXT_READY (R294). -/
  | rekeyAllNextReady
  /-- SA_INDEX_FREE (R273). -/
  | saIndexFree (sa : Nat)
  /-- KA_INIT_RECEIVE (R289). -/
  | kaInitReceive (port : Nat) (msg : Bytes)
  /-- KA_RESP_RECEIVE (R290). -/
  | kaRespReceive (port : Nat) (msg : Bytes)
  /-- KA_FIN_RECEIVE (R290). -/
  | kaFinReceive (port : Nat) (msg : Bytes)
  /-- KA_DONE_RECEIVE (R290). -/
  | kaDoneReceive (port : Nat) (msg : Bytes)
  /-- KA_ABORT_RECEIVE (R290). -/
  | kaAbortReceive (port : Nat) (msg : Bytes)
  /-- KA_RETRANSMIT (R291). -/
  | kaRetransmit (peer : Nat)
  /-- DSP_GROUP_GET (R333). -/
  | dspGroupGet (r : NcsReq)
  /-- DSP_PLACE_GET (R334). -/
  | dspPlaceGet (r : NcsReq)
  /-- DSP_STATS_GET (R335). -/
  | dspStatsGet (r : NcsReq)
  /-- DSP_HINT_SET (R336). -/
  | dspHintSet (r : NcsReq)
  /-- DSP_HINT_GET (R336). -/
  | dspHintGet (r : NcsReq)
  /-- DSP_TABLE_WRITE (R337). -/
  | dspTableWrite (r : NcsReq)
  /-- DSP_TABLE_READ (R337). -/
  | dspTableRead (r : NcsReq)
  /-- DSP_TABLE_COMMIT (R337). -/
  | dspTableCommit (r : NcsReq)
  /-- DSP_TABLE_SWAP (R329). -/
  | dspTableSwap
  /-- DSP_PARAM_WRITE (R338). -/
  | dspParamWrite (r : NcsReq)
  /-- DSP_PARAM_READ (R338). -/
  | dspParamRead (r : NcsReq)
  /-- STRIPE_WIDTH_CHANGE (R313). -/
  | stripeWidthChange (obj : Nat)
  /-- MOVE_START (R316). -/
  | moveStart (id : Nat)
  /-- MOVE_SWITCHOVER (R316). -/
  | moveSwitchover (id : Nat)
  /-- MOVE_DRAIN_COMPLETE (R316). -/
  | moveDrainComplete (id : Nat)
  /-- DROOP_RELIEF_START (R324). -/
  | droopReliefStart (sector : Nat)
  /-- DROOP_RELIEF_END (R324). -/
  | droopReliefEnd (sector : Nat)
  /-- SLICE_IDLE_POWER_DOWN (R587). -/
  | sliceIdlePowerDown (slice : Nat)
  /-- DOMAIN_POWER_UP_DONE (R585). -/
  | domainPowerUpDone (domain : Timed)
  /-- GRN_STATUS (R367). -/
  | grnStatus (r : NcsReq)
  /-- GRN_REGION_GET (R368). -/
  | grnRegionGet (r : NcsReq)
  /-- GRN_CHANNEL_GET (R369). -/
  | grnChannelGet (r : NcsReq)
  /-- GRN_FAULT_LOG (R370). -/
  | grnFaultLog (r : NcsReq)
  /-- GRN_HALT_RECORD (R371). -/
  | grnHaltRecord (r : NcsReq)
  /-- GRN_REKEY (R372). -/
  | grnRekey (r : NcsReq)
  /-- GRN_EPOCH_LIMIT (R358). -/
  | grnEpochLimit (region : Nat)
  /-- GRN_REKEY_DONE (R358). -/
  | grnRekeyDone
  /-- GRN_RETIRE (R361). -/
  | grnRetire (r : NcsReq)
  /-- RETIRE_DRAIN_END (R362). -/
  | retireDrainEnd
  /-- RETIRE_MIGRATE_DONE (R362). -/
  | retireMigrateDone
  /-- RETIRE_OTP_DONE (R362). -/
  | retireOtpDone
  /-- GRN_REGION_SET (R346). -/
  | grnRegionSet (r : NcsReq)
  /-- GRN_PARAM_WRITE (R373). -/
  | grnParamWrite (r : NcsReq)
  /-- GRN_PARAM_READ (R373). -/
  | grnParamRead (r : NcsReq)
  /-- GRN_SCRUB (R360). -/
  | grnScrub (f : ScrubFind)
  /-- PATH_PAIR_CREATE (R400). -/
  | pathPairCreate (r : NcsReq)
  /-- PATH_PAIR_DELETE (R401). -/
  | pathPairDelete (r : NcsReq)
  /-- PATH_STATUS (R402). -/
  | pathStatus (r : NcsReq)
  /-- PATH_REQUEST (R391). -/
  | pathRequest (r : NcsReq)
  /-- PATH_PRIORITY_SET (R403). -/
  | pathPrioritySet (r : NcsReq)
  /-- PATH_PROFILE_WRITE (R404). -/
  | pathProfileWrite (r : NcsReq)
  /-- PATH_PROFILE_READ (R404). -/
  | pathProfileRead (r : NcsReq)
  /-- CLAIM_FRAME_SEND (R386). -/
  | claimFrameSend (pair : Timed)
  /-- CLAIM_FRAME_RECEIVE (R387). -/
  | claimFrameReceive (port : Nat) (frame : Bytes) (dt : Nat)
  /-- CLAIM_MISS_EXPIRY (R384). -/
  | claimMissExpiry (pair : Nat) (path : Timed)
  /-- PATH_GUARD_EXPIRY (R388). -/
  | pathGuardExpiry (pair path : Nat)
  /-- HOLDOFF_EXPIRY (R389). -/
  | holdoffExpiry (pair : Timed)
  /-- YARD_RELEASE (R394). -/
  | yardRelease (pair sc num dt : Nat)
  /-- FAST_HOLD_EXPIRY (R395). -/
  | fastHoldExpiry (pair : Timed)
  /-- SCH_SHAPE_SET (R425). -/
  | schShapeSet (r : NcsReq)
  /-- SCH_CLASS_SET (R426). -/
  | schClassSet (r : NcsReq)
  /-- SCH_STATS_GET (R427). -/
  | schStatsGet (r : NcsReq)
  /-- SCH_SAMPLE_GET (R428). -/
  | schSampleGet (r : NcsReq)
  /-- SCH_TT_STATUS (R430). -/
  | schTtStatus (r : NcsReq)
  /-- SCH_QUEUE_WRITE (R425). -/
  | schQueueWrite (r : NcsReq)
  /-- SCH_QUEUE_READ (R425). -/
  | schQueueRead (r : NcsReq)
  /-- SCH_TT_WRITE (R429). -/
  | schTtWrite (r : NcsReq)
  /-- SCH_TT_READ (R429). -/
  | schTtRead (r : NcsReq)
  /-- SCH_TT_COMMIT (R420). -/
  | schTtCommit (r : NcsReq)
  /-- TT_ENTRY_BOUNDARY (R418). -/
  | ttEntryBoundary (port : Nat) (dt : Nat)
  /-- TT_SWAP (R420). -/
  | ttSwap (port : Nat) (dt : Nat)
  /-- QUEUE_SAMPLE (R422). -/
  | queueSample (dt : Nat)
  /-- TIME_GET (R453). -/
  | timeGet (r : NcsReq)
  /-- TIME_STEP (R435). -/
  | timeStep (r : NcsReq)
  /-- TIME_STEP_APPLY (R435). -/
  | timeStepApply
  /-- TIME_RATE_SET (R434). -/
  | timeRateSet (r : NcsReq)
  /-- TIME_PTP_SEND (R442). -/
  | timePtpSend (r : NcsReq)
  /-- PTP_SEND_DEPART (R442). -/
  | ptpSendDepart (side port : Nat) (dt : Nat)
  /-- TIME_PTP_RECV (R457). -/
  | timePtpRecv (r : NcsReq)
  /-- TIME_CAPTURE_SET (R458). -/
  | timeCaptureSet (r : NcsReq)
  /-- TIME_PPS_SET (R459). -/
  | timePpsSet (r : NcsReq)
  /-- TIME_TOD_GET (R459). -/
  | timeTodGet (r : NcsReq)
  /-- TIME_MODEL_SET (R460). -/
  | timeModelSet (r : NcsReq)
  /-- TIME_REARM (R436). -/
  | timeRearm (r : NcsReq)
  /-- TIME_REARM_APPLY (R436). -/
  | timeRearmApply
  /-- TIME_DELAY_SET (R462). -/
  | timeDelaySet (r : NcsReq)
  /-- TIME_DELAY_GET (R462). -/
  | timeDelayGet (r : NcsReq)
  /-- TIME_REF_SET (R460). -/
  | timeRefSet (r : NcsReq)
  /-- NATIVE_ALARM_FIRE (R439). -/
  | nativeAlarmFire (dt : Nat)
  /-- ALARM32_FIRE (R439). -/
  | alarm32Fire (dt : Nat)
  /-- TU_CTL_SNAP (R451). -/
  | tuCtlSnap (v : Word)
  /-- TU_ALARM_ARM_WRITE (R439). -/
  | tuAlarmArmWrite (v : Word)
  /-- TU_ALARM32_ARM_WRITE (R439). -/
  | tuAlarm32ArmWrite (v : Word)
  /-- TU_ALARM_VALUE_WRITE (R439). -/
  | tuAlarmValueWrite (off : Nat) (v : Word)
  /-- TU_TXQ_ID_READ (R451). -/
  | tuTxqIdRead
  /-- TU_TXQ_OVF_CLEAR (R443). -/
  | tuTxqOvfClear (v : Word)
  /-- PPS_IN_EDGE (R448). -/
  | ppsInEdge (falling : Bool) (dt : Nat)
  /-- TOD_MESSAGE_RECEIVE (R449). -/
  | todMessageReceive (msg : Bytes) (dt : Nat)
  /-- TOD_MESSAGE_SEND (R449). -/
  | todMessageSend (dt : Nat)
  /-- TUREF_LOST (R447). -/
  | turefLost
  /-- TUREF_RESTORED (R447). -/
  | turefRestored (source : Nat)
  /-- DLIVE_UPDATE (R446). -/
  | dliveUpdate (side dir lane : Nat) (mean : Int)
  /-- PORT_CONFIG (R486). -/
  | portConfig (r : NcsReq)
  /-- PORT_DELETE (R486). -/
  | portDelete (r : NcsReq)
  /-- LANE_STATUS (R487). -/
  | laneStatus (r : NcsReq)
  /-- LANE_RETRAIN (R480). -/
  | laneRetrain (r : NcsReq)
  /-- PORT_FALLOW (R479). -/
  | portFallow (r : NcsReq)
  /-- LANE_TEST_SET (R489). -/
  | laneTestSet (r : NcsReq)
  /-- LANE_TEST_GET (R489). -/
  | laneTestGet (r : NcsReq)
  /-- LANE_SEQ_WRITE (R490). -/
  | laneSeqWrite (r : NcsReq)
  /-- LANE_SEQ_READ (R490). -/
  | laneSeqRead (r : NcsReq)
  /-- LANE_TXEQ_SET (R491). -/
  | laneTxeqSet (r : NcsReq)
  /-- LANE_ADAPT_SET (R491). -/
  | laneAdaptSet (r : NcsReq)
  /-- LANE_STAGE_SUCCESS (R471). -/
  | laneStageSuccess (side lane fom : Nat) (m : LockMeas)
  /-- LANE_STAGE_TIMEOUT (R471). -/
  | laneStageTimeout (side : Nat) (lane : Timed)
  /-- SIGNAL_DETECT_LOST (R474). -/
  | signalDetectLost (side lane : Nat)
  /-- SIGNAL_DETECT_RETURN (R474). -/
  | signalDetectReturn (side lane : Nat)
  /-- LANE_LOCK_LOST (R474). -/
  | laneLockLost (side lane : Nat)
  /-- ADAPT_STEP (R477). -/
  | adaptStep (side lane fom : Nat)
  /-- JTAG_INSTRUCTION_LOAD (R483). -/
  | jtagInstructionLoad (code : Nat)
  /-- TAP_RESET (R483). -/
  | tapReset
  /-- KS_IDENTITY_GET (R516). -/
  | ksIdentityGet (r : NcsReq)
  /-- KS_SEAL_SUBMIT (R517). -/
  | ksSealSubmit (r : NcsReq)
  /-- KS_SEAL_PROCESS (R509). -/
  | ksSealProcess (whole : Bool)
  /-- KS_SLOT_INFO (R518). -/
  | ksSlotInfo (r : NcsReq)
  /-- KS_COUNTER_GET (R519). -/
  | ksCounterGet (r : NcsReq)
  /-- KS_DERIVE (R501). -/
  | ksDerive (r : NcsReq)
  /-- KS_SLOT_FREE (R520). -/
  | ksSlotFree (r : NcsReq)
  /-- KS_ATTEST (R513). -/
  | ksAttest (r : NcsReq)
  /-- KS_PROVISION (R512). -/
  | ksProvision (r : NcsReq)
  /-- KS_CREDENTIAL_SET (R521). -/
  | ksCredentialSet (r : NcsReq)
  /-- KEY_SHARE_REMASK (R498). -/
  | keyShareRemask
  /-- PKE_RUN (R537). -/
  | pkeRun (r : NcsReq)
  /-- PKE_JOB_START (R526). -/
  | pkeJobStart
  /-- PKE_JOB_DONE (R530). -/
  | pkeJobDone (busOk good : Bool) (attempts : Timed)
  /-- PKE_ABORT (R538). -/
  | pkeAbort (r : NcsReq)
  /-- PKE_STATUS (R538). -/
  | pkeStatus (r : NcsReq)
  /-- PKE_WIPE (R538). -/
  | pkeWipe (r : NcsReq)
  /-- PKE_POWER_DOWN (R526). -/
  | pkePowerDown
  /-- TAMPER_SOURCE_FIRE (R544). -/
  | tamperSourceFire (source : Nat) (a b : Bool)
  /-- TAMPER_SECOND_DECISION (R547). -/
  | tamperSecondDecision (what : Nat) (second : Timed) (sealOk journalOk : Bool)
  /-- DETECTOR_SELF_TEST (R542). -/
  | detectorSelfTest (failed : BitVec 24)
  /-- TAMPER_LOG_COPY (R549). -/
  | tamperLogCopy
  /-- UNLOCK_NONCE_EXPIRY (R551). -/
  | unlockNonceExpiry
  /-- TAMP_EVENT_READ (R555). -/
  | tampEventRead
  /-- TAMP_STATUS_GET (R557). -/
  | tampStatusGet (r : NcsReq)
  /-- TAMP_LOG_GET (R558). -/
  | tampLogGet (r : NcsReq)
  /-- TAMP_NONCE_GET (R559). -/
  | tampNonceGet (r : NcsReq)
  /-- TAMP_UNLOCK (R552). -/
  | tampUnlock (r : NcsReq)
  /-- TAMP_RESPONSE_SET (R560). -/
  | tampResponseSet (r : NcsReq)
  /-- TAMP_TEST (R561). -/
  | tampTest (r : NcsReq)
  /-- FW_STATUS (R579). -/
  | fwStatus (r : NcsReq)
  /-- FW_UPDATE (R570). -/
  | fwUpdate (r : NcsReq)
  /-- FW_RECALL_WRITE_DONE (R571). -/
  | fwRecallWriteDone (ok : Bool)
  /-- FW_IMAGE_WRITE_DONE (R571). -/
  | fwImageWriteDone (ok starts : Bool)
  /-- FW_CONFIRM (R581). -/
  | fwConfirm (r : NcsReq)
  /-- FW_AUTO_CONFIRM (R573). -/
  | fwAutoConfirm
  /-- FW_CONFIRM_OTP_DONE (R574). -/
  | fwConfirmOtpDone
  /-- FW_REVERT (R575). -/
  | fwRevert (r : NcsReq)
  /-- FW_PROBATION_EXPIRY (R575). -/
  | fwProbationExpiry
  /-- FW_RESTORE_DONE (R575). -/
  | fwRestoreDone
  /-- PWR_STATUS (R603). -/
  | pwrStatus (r : NcsReq)
  /-- PWR_DOMAIN_GET (R603). -/
  | pwrDomainGet (r : NcsReq)
  /-- PWR_CURVE_WRITE (R604). -/
  | pwrCurveWrite (r : NcsReq)
  /-- PWR_CURVE_READ (R604). -/
  | pwrCurveRead (r : NcsReq)
  /-- PWR_CURVE_COMMIT (R594). -/
  | pwrCurveCommit (r : NcsReq)
  /-- PWR_CURVE_SWAP (R594). -/
  | pwrCurveSwap
  /-- PWR_THERM_SET (R604). -/
  | pwrThermSet (r : NcsReq)
  /-- STRETCH_RISE (R593). -/
  | stretchRise (sector : Nat) (readings : List Nat) (dt : Nat)
  /-- STRETCH_FALL (R593). -/
  | stretchFall (sector : Nat) (readings : List Nat) (dt : Nat)
  /-- SENSOR_TRIM (R591). -/
  | sensorTrim (readings : List SensorTick)
  /-- SENSOR_OUT_OF_SERVICE (R591). -/
  | sensorOutOfService (sector sensor : Nat)
  /-- THERMAL_READ (R599). -/
  | thermalRead (junctions hbms : List Int) (power : Word)
  /-- TEL_SLOT_GET (R621). -/
  | telSlotGet (r : NcsReq)
  /-- TEL_SNAP_INFO (R621). -/
  | telSnapInfo (r : NcsReq)
  /-- SNAPSHOT_LATCH (R610). -/
  | snapshotLatch
  /-- SNAPSHOT_WRITTEN (R612). -/
  | snapshotWritten (ok : Bool)
  /-- PCF_SNAP_NOW_WRITE (R610). -/
  | pcfSnapNowWrite (v : Word)
  /-- PCF_SNAP_EN_WRITE (R610). -/
  | pcfSnapEnWrite (v : Word)
  /-- PCF_RING_RD_WRITE (R619). -/
  | pcfRingRdWrite (v : Word)
  /-- DMA_START_WRITE (R614). -/
  | dmaStartWrite (ch : Nat) (v : Word)
  /-- DMA_STOP_WRITE (R617). -/
  | dmaStopWrite (ch : Nat) (v : Word)
  /-- DMA_CHANNEL_RUN (R614). -/
  | dmaChannelRun (host : HostMem) (cut : Option Nat)
  /-- DMA_CHANNEL_DONE (R617). -/
  | dmaChannelDone (ch : Nat)
  /-- VDD_AO_VBAT_LOSS (R647). -/
  | vddAoVbatLoss
  /-- LREF_LOSS (R647). -/
  | lrefLoss
  /-- RAIL_DIP (R647). -/
  | railDip (lanes : List Nat) (finds : List ScrubFind)
  /-- TAMPER_CONDITION_CLEARED (R555). -/
  | tamperConditionCleared (source : Nat)
  /-- PPS_OUT_PULSE_END (R448). -/
  | ppsOutPulseEnd (dt : Nat)
  /-- FW_STAGED (R570). -/
  | fwStaged
  /-- PROVISIONING_OTP_WRITE_DONE (R512). -/
  | provisioningOtpWriteDone
deriving DecidableEq, Repr

end Sys2Proof
end

