-- ==== Sys2Proof/Decode.lean ====
section
/-!
DEFINITION. The words of spec/opcode_table.json: its rows give no bits (every row's `fields` is empty), so no
word spells a command.
-/
namespace Sys2Proof

/-- The command that an n-bit word spells by the table's bits: none, for the table gives no row any bits. -/
def decodeTableWord (_nbits _w : Nat) : Option Instr := none

end Sys2Proof
end

