-- ==== Sys2Proof/Config.lean ====
section
/-!
DEFINITION. What the spec leaves open or takes from another standard: the free values, and the public-key algorithms
as uninterpreted functions of their inputs (the symmetric ones are in Machine/Crypto.lean). None has a body, so no
proof can lean on a value of it.
-/
namespace Sys2Proof.Config

/-- The k-th free value of width w: a value the spec says nothing of, or a sample of an entropy source.
DESIGN CHOICE (log 6). -/
opaque freeBits (w : Nat) : Nat → BitVec w

/-- A free choice between two outcomes that the spec leaves open. DESIGN CHOICE (log 6). -/
opaque freeBool : Nat → Bool

/-- The 128 bytes of an SA context, whose layout the spec leaves open (R318): key, authentication key, salt, SSCI, suite,
generation, owner page, attributes, next or expected PN or frame count. DESIGN CHOICE (log 21). -/
opaque saContext (key auth salt : Bytes) (ssci suite gen owner attrs count : Nat) : Bytes

/-- The mask expander of a slice, a nonlinear-feedback generator with 512 bits of state (R245): its state after a reseed,
byte i of its output, its state n bytes on. DESIGN CHOICE (log 76). -/
opaque maskSeed (state : BitVec 512) (seed : Bytes) : BitVec 512
/-- DESIGN CHOICE (log 76). -/
opaque maskByte (state : BitVec 512) (i : Nat) : BitVec 8
/-- DESIGN CHOICE (log 76). -/
opaque maskNext (state : BitVec 512) (n : Nat) : BitVec 512

/-- d_fix of R445 in ps: factory characterisation in ROM, per lane type and direction. DEDUCED (log 44). -/
opaque dFix (typ dir : Nat) : Int

/-- The 256-bit device secret in OTP (R497). -/
opaque deviceSecret : Bytes

/-- ML-KEM-1024 (FIPS 203): encapsulation key of a seed; ciphertext and shared secret for an encapsulation
key and randomness; decapsulation under a seed. DESIGN CHOICE (log 7). -/
opaque kemPublic (seed : Bytes) : Bytes
/-- DESIGN CHOICE (log 7). -/
opaque kemEncaps (ek rand : Bytes) : Bytes × Bytes
opaque kemDecaps (seed ct : Bytes) : Bytes

/-- ECDH on P-384: public point of a private key; x-coordinate of the shared point, none off the curve. -/
opaque ecPublic (priv : Bytes) : Bytes
/-- DESIGN CHOICE (log 7). -/
opaque ecShared (priv point : Bytes) : Option Bytes

/-- A P-384 private key formed from a candidate string (FIPS 186-5, extra random bits; R500). -/
opaque ecKey (candidate : Bytes) : Bytes

/-- A persistent slot record as it lies in flash (R493, R510): wrapping key, slot, counter, type, owner,
attributes, source, key. The spec gives no layout of it. DEDUCED (log 47). -/
opaque slotRecord (kw : Bytes) (slot ctr typ owner attrs source : Nat) (key : Bytes) : Bytes

/-- ML-DSA-87 and ECDSA P-384: public key, message, signature; and signing: private key, message, randomness.
DESIGN CHOICE (log 7). -/
opaque mldsaVerify (pk m sig : Bytes) : Bool
/-- DESIGN CHOICE (log 7). -/
opaque ecdsaVerify (pk m sig : Bytes) : Bool
opaque mldsaPublic (sk : Bytes) : Bytes
opaque mldsaSign (sk m rand : Bytes) : Bytes
opaque ecdsaSign (sk m rand : Bytes) : Bytes

/-- Order and prime of the curve of a parameter set of R528, its points, and the group order of Ed25519. -/
opaque curveOrder (set : Nat) : Nat
opaque curvePrime (set : Nat) : Nat
opaque onCurve (set : Nat) (point : Bytes) : Bool
opaque edOrder : Nat

/-- A 32-byte string decodes as an Ed25519 point (RFC 8032). -/
opaque edDecodes (a : Bytes) : Bool

/-- The modulus check of an ML-KEM encapsulation key and the hash check of a decapsulation key (FIPS 203). -/
opaque kemModulusOk (set : Nat) (ek : Bytes) : Bool
opaque kemHashOk (set : Nat) (dk : Bytes) : Bool

/-- The operations of R529 but those of set 0: public and secret result of operation, set, inputs and fresh
randomness; the verdict of a verify operation. DESIGN CHOICE (log 7). -/
opaque pkePublic (op set : Nat) (ins : List Bytes) (rand : Bytes) : Bytes
opaque pkeSecret (op set : Nat) (ins : List Bytes) (rand : Bytes) : Bytes
opaque pkeVerdict (op set : Nat) (ins : List Bytes) : Bool

/-- The four signer entries that Zorral writes to OTP at manufacture (R567), and the measurement of the resident
loader (R94 step 4). -/
opaque signerEntry : Nat → Bytes
opaque loaderMeas : Bytes

end Sys2Proof.Config
end

