-- ==== Sys2Proof/Machine/State.lean ====
section
/-!
DEFINITION. The state of the block as plain data: every register, table, queue, counter, mode and pin the
spec gives it, grouped by the chapter that owns it; the reasons a step can stop; the state at reset.
-/
namespace Sys2Proof.Machine

/-- Why a step faults. DESIGN CHOICE (log 59). -/
inductive Fault where
  /-- No command raises it: the spec gives every command of the table an effect or a status. Kept so that
  the outcome type is inhabited. Safe: nothing can end in it. -/
  | none
deriving DecidableEq, Repr

/-- Why a step is refused. DESIGN CHOICE (log 59). -/
inductive Refusal where
  /-- Raised by an arm of exec whose command has no meaning yet. Safe: the model stops. -/
  | notModelled (mnemonic : String)
deriving DecidableEq, Repr

/-! ### Family, modes, life cycle (chapters 00, 03) -/

/-- The variants of R1. -/
inductive Variant where
  | bv128 | bv064 | bv032
deriving DecidableEq, Repr

/-- The device modes of R12. -/
inductive Mode where
  | dormant | staging | secure | service | locked | halted
deriving DecidableEq, Repr

/-- The life-cycle states of R14, in the order in which they follow each other. -/
inductive Life where
  | blank | provisioned | deployed | retired
deriving DecidableEq, Repr

/-- Where the device stands between power and service: without main power, in a start sequence (R94), past
its mode entry (R95), on the way into DORMANT (R101), in DORMANT. -/
inductive Phase where
  | off | starting | up | sleeping | dormant
deriving DecidableEq, Repr

/-! ### What leaves the device -/

/-- One thing the device sends out of its balls or buses. The model keeps them in order (the model's own
field `outs`), so that a statement can say what a command sends. DESIGN CHOICE (log 10). -/
inductive Output where
  /-- An MSI-X message: vector 0 to 64 the page vectors, 65 PF vector 1 (R43). -/
  | msix (vec : Nat)
  /-- The value a host read of a read-sensitive register returned. -/
  | readValue (v : Word)
  /-- An SMBus NACK. -/
  | smbNack
  /-- An SMBus Block Read: the words returned (none: byte count 0) and the PEC appended (R80). -/
  | smbBlock (words : List Word) (pec : Nat)
  /-- An SMBus Read Byte with its PEC. -/
  | smbByte (v : Nat) (pec : Nat)
  /-- A frame sent on a port in frame mode: side 0 client, 1 line; the port's lowest lane; its bytes and its FCS
  (R135, R242). -/
  | frame (side port : Nat) (bytes : Bytes) (fcs : Nat)
  /-- An Esurdel frame sent on a line lane. -/
  | esurdel (lane : Nat) (bytes : Bytes)
  /-- Bytes delivered to a client egress in line mode; the client's port. -/
  | client (port : Nat) (bytes : Bytes)
  /-- 66b blocks delivered to an Ethernet client egress; an Error control character that ends its frame in
  progress; the Local Fault ordered set; Idle (R182, R198, R220, R395). -/
  | blocks (port : Nat) (bs : List (BitVec 66))
  | errorChar (port : Nat)
  | localFault (port : Nat)
  | idle (port : Nat)
  /-- Bytes written to host memory. -/
  | hostWrite (addr : Nat) (bytes : Bytes)
  /-- A level driven on a named pin: 0 PPS_OUT, 1 ALERT_N. -/
  | pin (which : Nat) (level : Bool)
  /-- A ToD message sent (R449). -/
  | tod (bytes : Bytes)
deriving DecidableEq, Repr

/-! ### The Signal box and NCS pages (chapter 02) -/

/-- One entry of an event ring (R62). -/
structure RingEntry where
  w0 : Word
  w1 : Word
  w2 : Word
  w3 : Word
deriving DecidableEq, Repr

/-- An accepted command that is still running (R65, R72); `fin` holds its final status and result word
while the Signal box is down (R75). -/
structure Acc where
  tag : Nat
  code : Nat
  fin : Option (Nat × Word)
deriving DecidableEq, Repr

/-- A page window (R44, R45) and the device's own record of the page. -/
structure Page where
  /-- Request area, words 0 to 255, unlisted words 0. -/
  req : Table Word
  /-- The latched request (R46), and the page's NCS_EXPERT when it was latched (R61). -/
  latch : Table Word
  grant : BitVec 16
  /-- Response area: its words from word 0; words past the end read 0. -/
  resp : List Word
  /-- Event ring by slot 0 to 63 (R63). -/
  ring : Table RingEntry
  /-- NCS_EVT_TAIL. -/
  tail : Word
  /-- NCS_EVT_HEAD. -/
  head : Word
  /-- NCS_EVT_LOST [15:0]. -/
  lost : Nat
  /-- NCS_IRQ_MASK: RESP, EVT, SB (R67). -/
  maskResp : Bool
  maskEvt : Bool
  maskSb : Bool
  /-- NCS_EXPERT [15:0] of a tenant page (page 0 always holds every range, R59). -/
  expert : BitVec 16
  /-- NCS_STATE fields (R45). -/
  reqBusy : Bool
  respValid : Bool
  overrun : Bool
  evtOvf : Bool
  sbChg : Bool
  headErr : Bool
  lastTag : Nat
  /-- Number of the next event (R64). -/
  seq : Word
  /-- Suppression mask of R86. -/
  evtMask : BitVec 16
  /-- Accepted commands still running, oldest first. -/
  accepted : List Acc
deriving DecidableEq, Repr

/-- A page window at its reset values (R44, R45). DESIGN CHOICE (log 5). -/
def Page.init : Page where
  req := []
  latch := []
  grant := 0
  resp := []
  ring := []
  tail := 0
  head := 0
  lost := 0
  maskResp := false
  maskEvt := false
  maskSb := false
  expert := 0
  reqBusy := false
  respValid := false
  overrun := false
  evtOvf := false
  sbChg := false
  headErr := false
  lastTag := 0
  seq := 0
  evtMask := 0
  accepted := []

/-- An event of R649 that waits for the tick boundary: its page, code, the number that tells its object
apart, and its data words. -/
structure TickEvent where
  page : Nat
  evt : Nat
  obj : Nat
  w2 : Word
  w3 : Word
deriving DecidableEq, Repr

/-- The Signal box's side of NCS: pages, the SMBus channel (R79, R80), the IRQ_ registers (R68). -/
structure SignalBox where
  /-- Pages 0 to 64; an unlisted page is at its reset values. -/
  pages : Table Page
  /-- SB_UP (R45), one value for every page. -/
  up : Bool
  /-- Reason that the next EVT_SB_RESTARTED gives (R66). -/
  restartReason : Nat
  /-- The requester served last in round-robin order (R69). -/
  served : Nat
  /-- SMBus channel: latched request record, response record. -/
  smbReq : List Word
  smbBusy : Bool
  smbResp : List Word
  smbReady : Bool
  /-- IRQ_CTL (R68). -/
  irqEnable : Bool
  coalesce : Nat
  /-- IRQ_HW_MASK, bits 4 to 0. -/
  hwMask : BitVec 5
  /-- Vectors whose message is held pending. -/
  held : List Nat
  /-- Vectors within their COALESCE_US spacing. -/
  spacing : List Nat
  /-- Events of R649 collected in the running tick. -/
  tickEvents : List TickEvent
  /-- Accepted commands that run on after their page's window was reset (R98): page, tag, code. -/
  orphans : List (Nat × Nat × Nat)
deriving DecidableEq, Repr

/-- DESIGN CHOICE (log 5). -/
def SignalBox.init : SignalBox where
  pages := []
  up := false
  restartReason := 1
  served := 65
  smbReq := []
  smbBusy := false
  smbResp := []
  smbReady := false
  irqEnable := false
  coalesce := 0
  hwMask := 0x1F#5
  held := []
  spacing := []
  tickEvents := []
  orphans := []

/-! ### Modes, start-up and reset (chapter 03) -/

/-- A running SYS_RECALIBRATE (R111, R112). -/
structure Recal where
  page : Nat
  tag : Nat
  /-- Phases still to run, as in R112. -/
  slices : Bool
  sensors : Bool
  delays : Bool
  /-- The slice now under test. -/
  slice : Option Nat
  /-- Droop phase running. -/
  droop : Bool
  /-- Ticks of the droop phase so far. -/
  droopTicks : Nat
  /-- A LOCK has ended it: it stops with the slice test in progress (R111). -/
  stopping : Bool
  /-- Slices skipped, slices that failed, slices whose work came back (R112). -/
  skipped : Nat
  failed : Nat
  returned : Nat
deriving DecidableEq, Repr

/-- Modes, start-up, resets (R88 to R114). -/
structure Sys where
  phase : Phase
  mode : Mode
  /-- SYS_GET_STATE word 0 [31:24], with the detail and data of EVT_MODE_CHANGED. -/
  cause : Nat
  /-- Start cause and its data (R114). -/
  startCause : Nat
  startData : Word
  /-- Recorded halt cause, 0 none. -/
  haltCause : Nat
  /-- Running maintenance (R104). -/
  maintFw : Bool
  maintRekey : Bool
  maintRetire : Bool
  maintRecal : Bool
  /-- RTC seconds, and milliseconds counted since the second began. -/
  rtc : Word
  rtcMs : Nat
  /-- SYS_GET_STATE words 2 and 3. -/
  rtcAtStart : Word
  startUs : Word
  /-- Start: its steps have run; it ends in LOCKED; the recall image runs (R94 to R96). -/
  startRun : Bool
  startLocked : Bool
  startRecall : Bool
  /-- Wake sources of SYS_SLEEP (R106) and the RTC alarm. -/
  wakePin : Bool
  wakeSmb : Bool
  wakeRtc : Bool
  rtcAlarm : Word
  /-- A wake latched while DORMANT is being entered: start cause and data (R89). -/
  wakeLatch : Option (Nat × Word)
  /-- SYS_RESET pending: ticks left, issuing page (R107). -/
  resetPending : Option (Nat × Nat)
  /-- The recalibration that runs (R111, R112). -/
  recal : Option Recal
  /-- SYS_ADVANCE_LIFE running: target, page, tag (R109). -/
  lifePending : Option (Life × Nat × Nat)
  /-- EVT_LIFE_CHANGED that follows an EVT_CMD_DONE kept for the Signal box's return (R75, R109): old, new. -/
  lifeHeld : Option (Life × Life)
  /-- PERST_N released; PCIe link up (R97). -/
  perst : Bool
  linkUp : Bool
  /-- Main rails within range; always-on domain powered; RST_N high; LREF present. -/
  mainGood : Bool
  aoGood : Bool
  rstN : Bool
  /-- Tick boundaries since the SYS_SLEEP response (R101 step 2). -/
  sleepTicks : Nat
  /-- Ticks since the mode entry, and TU cycles since the last tick boundary (R648). -/
  ticks : Nat
  sub : Nat
deriving DecidableEq, Repr

/-- DESIGN CHOICE (log 4). -/
def Sys.init : Sys where
  phase := .starting
  mode := .staging
  cause := 0x03
  startCause := 0x03
  startData := 0
  haltCause := 0
  maintFw := false
  maintRekey := false
  maintRetire := false
  maintRecal := false
  rtc := 0
  rtcMs := 0
  rtcAtStart := 0
  startUs := 0
  startRun := false
  startLocked := false
  startRecall := false
  wakePin := false
  wakeSmb := false
  wakeRtc := false
  rtcAlarm := 0
  wakeLatch := none
  resetPending := none
  recal := none
  lifePending := none
  lifeHeld := none
  perst := true
  linkUp := false
  mainGood := true
  aoGood := true
  rstN := true
  sleepTicks := 0
  ticks := 0
  sub := 0

/-! ### Gleaner records in the making (R609) -/

/-- What a tagged frame has shown so far: group, SA, wire length, stamp and raw TU count at stage 0, TU
cycles to stages 1 to 7, flags of word 0, slice. -/
structure Glean where
  group : Nat
  sa : Nat
  len : Nat
  epoch : Nat
  t : Nat
  raw : Nat
  stages : List (Option Nat)
  /-- Shadow verification was enabled when the frame was tagged (R268); the frame's sample is in a shadow buffer. -/
  check : Bool
  shadow : Bool
  /-- The frame waited for its context (R609). -/
  missed : Bool
  /-- The frame waited in the frame buffer (R609). -/
  granary : Bool
  /-- The slice that took the frame (R609). -/
  slice : Option Nat
deriving DecidableEq, Repr

/-! ### Frame mode (chapter 04) -/

/-- Counters of one object in the order of R143. -/
abbrev Counters := List (BitVec 64)

/-- PTP settings of a port pair (R152). -/
structure PtpSet where
  bypass : Bool
  ipv6 : Bool
  ipv4 : Bool
  eth : Bool
  enable : Bool
  anyDomain : Bool
  domain : Nat
deriving DecidableEq, Repr

def PtpSet.init : PtpSet where
  bypass := false
  ipv6 := false
  ipv4 := false
  eth := false
  enable := false
  anyDomain := false
  domain := 0

/-- A frame-mode port pair, by client port (R117, R145). -/
structure Pair where
  line : Nat
  defaultPass : Bool
  ptp : PtpSet
  /-- Setting that applies from the next tick boundary (R152). -/
  ptpNext : Option PtpSet
  /-- Counters of the pair (R151). -/
  ctr : Counters
deriving DecidableEq, Repr

/-- A SecY (R119 to R123, R136, R147). -/
structure Secy where
  line : Nat
  client : Nat
  owner : Nat
  policy : Word
  window : Nat
  txSc : Nat
  /-- PN thresholds of R136: non-XPN, and the upper word for XPN. -/
  thr : Nat
  thrX : Nat
  /-- Outer VLAN ID its rule matches; none: every frame of the client port. -/
  vlan : Option Nat
  /-- Index of its rule within the client port's sector. -/
  rule : Nat
  /-- Counters of the SecY (R131, R133). -/
  ctr : Counters
deriving DecidableEq, Repr

/-- A secure channel (R119, R120). -/
structure Sc where
  secy : Nat
  tx : Bool
  /-- The SCI, 64 bits. -/
  sci : Nat
  /-- Counters of the SC (R131, R133). -/
  ctr : Counters
  /-- ICV failures of the running tick, and the tick of the last EVT_RX_AUTH_BURST (R158). -/
  icvFails : Nat
  lastBurst : Option Nat
deriving DecidableEq, Repr

/-- The rule tables of one sector (R125 to R128). -/
structure Rules where
  active : Table (List Word)
  shadow : Table (List Word)
  /-- Rules of the active and of the shadow table whose SecY has been deleted: they act as DROP, whatever SecY has the
  ID later (R126). -/
  dead : List Nat
  deadShadow : List Nat
  /-- The shadow holds writes that no commit has taken. -/
  uncommitted : Bool
  /-- A commit waits for the tick boundary, and the tick of its response (R127). -/
  armed : Bool
  armedAt : Nat
  /-- Swaps of the active table (R127). -/
  generation : Word
deriving DecidableEq, Repr

def Rules.init : Rules where
  active := []
  shadow := []
  dead := []
  deadShadow := []
  uncommitted := false
  armed := false
  armedAt := 0
  generation := 0

/-- Where a frame in flight stands. -/
inductive FrameStage where
  /-- In the miss store, waiting for its context from the Granary (R320). -/
  | missing
  /-- At its slice, waiting for the context load (R240). -/
  | loading
  /-- In the slice. -/
  | sliced
  /-- Its result or void token is at the reorder stage (R31). -/
  | done
deriving DecidableEq, Repr

/-- What reseals a protected PTP frame at departure (R140): key, IV, length of the additional data, the whole
frame in clear behind its SecTAG. -/
structure Reseal where
  key : Bytes
  iv : Bytes
  aad : Nat
  clear : Bytes
deriving DecidableEq, Repr

/-- A frame between classification and release. -/
structure Flight where
  id : Nat
  /-- True for a received frame. -/
  rx : Bool
  /-- SA, SC and SecY of the frame. -/
  sa : Nat
  sc : Nat
  secy : Nat
  /-- Its packet number (R131, R134). -/
  pn : Nat
  /-- The slice it was sent to, and how far it has come (R31). -/
  slice : Nat
  stage : FrameStage
  /-- A void token: the frame was dropped at the slice (R249), or lost with it (R255). -/
  void : Bool
  /-- What the slice takes in: DA, SA, SecTAG and the rest, without FCS; on transmit without ICV. -/
  inp : Bytes
  /-- Bytes of `inp` that are additional authenticated data. -/
  aad : Nat
  /-- The frame as it leaves the slice. -/
  outp : Bytes
  /-- C bit of the SecTAG (R129). -/
  conf : Bool
  /-- Received frames: an ICV verdict is called for, it is known, the ICV is right. -/
  check : Bool
  verdict : Bool
  icvOk : Bool
  /-- RX_HOLD: not released before its verdict (R135). -/
  hold : Bool
  /-- Released to its egress queue while its verdict is still to come. -/
  released : Bool
  /-- Port it came from; port and queue it goes to. -/
  ingress : Nat
  egress : Nat
  queue : Nat
  /-- Raw TU count at arrival. -/
  arrival : Nat
  /-- Key generation and owner page the frame is tagged with (R249). -/
  gen : Nat
  owner : Nat
  /-- Policy word of its SecY at its arrival (R148). -/
  policy : Word
  /-- GHASH input cycles it takes in the slice (R239). -/
  cycles : Nat
  /-- Offset of the correctionField in the clear frame, where the transparent clock corrects it (R138). -/
  ptp : Option Nat
  /-- What is computed again where its correctionField is corrected (R140). -/
  reseal : Option Reseal
  /-- The Gleaner's record of a tagged frame (R608). -/
  glean : Option Glean
deriving DecidableEq, Repr

structure Fm where
  pairs : Table Pair
  secys : Table Secy
  scs : Table Sc
  /-- Rules by sector. -/
  rules : Table Rules
  /-- FM_SECY_DELETE that still run: page, tag, SAs destroyed (R149). -/
  deletes : List (Nat × Nat × Nat)
  /-- Zorral EtherType and EAPOL DROP, now and from the next tick boundary (R153). -/
  etype : Nat
  eapolDrop : Bool
  /-- The values of FM_BYPASS_SET that apply from the next tick boundary (R153). -/
  bypassNext : Option (Nat × Bool)
  /-- Frames between their acceptance and their release, in the order of acceptance (R31). -/
  flights : List Flight
  /-- Number of the next frame to be dispatched (R31). -/
  nextFlight : Nat
deriving DecidableEq, Repr

def Fm.init : Fm where
  pairs := []
  secys := []
  scs := []
  rules := []
  deletes := []
  etype := 0x88B9
  eapolDrop := false
  bypassNext := none
  flights := []
  nextFlight := 0

/-! ### Line mode (chapters 05 and 06) -/

/-- One latched second (R227, R228). -/
structure Second where
  tag : Nat
  partl : Bool
  ovf : Nat
  acc : List Nat
  map : Nat
deriving DecidableEq, Repr

/-- One-second counters of an object (R225 to R228). -/
structure Pm where
  acc : List Nat
  ovf : Nat
  map : Nat
  /-- Latched seconds, the most recent first, at most eight. -/
  hist : List Second
  /-- The second in progress will not have run whole. -/
  partl : Bool
deriving DecidableEq, Repr

def Pm.init : Pm where
  acc := []
  ovf := 0
  map := 0
  hist := []
  partl := true

/-- A PRESYNC tracker (R192). -/
structure Tracker where
  pos : Nat
  /-- Expected FC of the next header. -/
  fc : Nat
  k : Nat
deriving DecidableEq, Repr

/-- The line-mode side of one line lane. -/
structure LmLane where
  test : Bool
  testNext : Option Bool
  tti : Bytes
  ttiNext : Option Bytes
  ttiAcc : Bytes
  /-- Received copy in assembly, the last complete copy, and how many equal copies ran. -/
  ttiCopy : Bytes
  ttiLast : Bytes
  ttiRun : Nat
  /-- Alignment (R192): SYNC, the raw TU count at which SYNC last began or ended, trackers, position, expected FC, counts,
  barred positions oldest first, each with the raw TU count at which it was barred. -/
  sync : Bool
  syncAt : Nat
  trackers : List Tracker
  pos : Nat
  fc : Nat
  miss : Nat
  icvBad : Nat
  /-- Fitting headers met while four trackers were busy (R192). -/
  ignored : Nat
  /-- Barred positions oldest first, each with the raw TU count at which it was barred (R195). -/
  barred : List (Nat × Nat)
  /-- Received epoch (R197): known value, confirmed, high byte of a reading, the differing reading, count. -/
  epoch : Option Nat
  confirmed : Bool
  epochHi : Option Nat
  differs : Option Nat
  mismatches : Nat
  /-- Received SHEAF and MEMBER; FC and raw TU count of the last frame. -/
  rxSheaf : Nat
  rxMember : Nat
  lastFc : Nat
  lastAt : Nat
  /-- Whether the lane is aligned as a member of its Sheaf (R190), none outside SYNC or without a Sheaf, and the raw TU
  count since which that holds (R216). -/
  fit : Option Bool
  fitAt : Nat
  /-- Payloads discarded (R165). -/
  discarded : Nat
  /-- Declared lane defects, bit code − 1 (R215). -/
  declared : Nat
  /-- Frames counted toward AIS, KEY and AUTH (R216): hits and checked frames in a row, the running block. -/
  aisRun : Nat
  trafficRun : Nat
  nokeyRun : Nat
  keyRun : Nat
  authFrames : Nat
  authFails : Nat
  /-- The last two client-signal-fail maps read (R173, R216). -/
  csfOld : Option Nat
  csfNew : Option Nat
  /-- Far end (R224): accepted BDI and BDC, candidate pair as byte 20, hits in a row. -/
  farBdi : Bool
  farBdc : Nat
  farCand : Nat
  farRun : Nat
  /-- Frames to report in the next BEI (R223). -/
  bei : Nat
  /-- Forced AIS and BDI (R219, R223). -/
  forceAis : Bool
  forceBdi : Bool
  /-- AIS frames transmitted (R219). -/
  aisSent : Nat
  /-- One-second counters (R225). -/
  pm : Pm
deriving DecidableEq, Repr

/-- DESIGN CHOICE (log 5). -/
def LmLane.init : LmLane where
  test := false
  testNext := none
  tti := []
  ttiNext := none
  ttiAcc := []
  ttiCopy := []
  ttiLast := []
  ttiRun := 0
  sync := false
  syncAt := 0
  trackers := []
  pos := 0
  fc := 0
  miss := 0
  icvBad := 0
  ignored := 0
  barred := []
  epoch := none
  confirmed := false
  epochHi := none
  differs := none
  mismatches := 0
  rxSheaf := 0
  rxMember := 0
  lastFc := 0
  lastAt := 0
  fit := none
  fitAt := 0
  discarded := 0
  declared := 0
  aisRun := 0
  trafficRun := 0
  nokeyRun := 0
  keyRun := 0
  authFrames := 0
  authFails := 0
  csfOld := none
  csfNew := none
  farBdi := false
  farBdc := 0
  farCand := 0
  farRun := 0
  bei := 0
  forceAis := false
  forceBdi := false
  aisSent := 0
  pm := Pm.init

/-- The line-mode side of one client port. -/
structure LmClient where
  /-- CBR bytes waiting for the mapper. -/
  fifo : Bytes
  /-- 66b blocks that wait for the mapper, idle blocks removed (R182). -/
  blocks : List (BitVec 66)
  /-- The client input has failed (R186). -/
  failed : Bool
  /-- Declared client defects CSF and JCE, bit code − 1. -/
  declared : Nat
  /-- Justification control errors of the last eight containers, newest first; clean containers in a row. -/
  jce : List Bool
  clean : Nat
  /-- R220, R221: a defect that raises the replacement stands; the container released last was replaced; edges still to
  come, each from an FC on (none: from the next container released). -/
  replaced : Bool
  replNow : Bool
  edges : List (Option Nat × Bool)
  /-- The last 16 bytes of valid data, for the hold of a fast switch (R395). -/
  last : Bytes
  /-- Ethernet egress: 66b blocks still to be sent, and whether a client frame is in progress (R182, R198). -/
  egress : List (BitVec 66)
  inFrame : Bool
  /-- One-second counters (R225). -/
  pm : Pm
deriving DecidableEq, Repr

def LmClient.init : LmClient where
  fifo := []
  blocks := []
  failed := false
  declared := 0
  jce := []
  clean := 0
  replaced := false
  replNow := false
  edges := []
  last := []
  egress := []
  inFrame := false
  pm := Pm.init

/-- How a received member frame fares at the demapper (R198, R199). -/
inductive FrameFate where
  | lost | passed | failed
deriving DecidableEq, Repr

/-- A member frame that waits for the release of its FC (R188). -/
structure RxFrame where
  lane : Nat
  fc : Nat
  fate : FrameFate
  /-- Payload bytes 32 to 8,175 in clear. -/
  payload : Bytes
  /-- Raw TU count at its arrival. -/
  arrival : Nat
deriving DecidableEq, Repr

/-- A Sheaf (R187 to R190). -/
structure Sheaf where
  /-- Skew allowance in µs. -/
  d : Nat
  /-- Member lanes by index (R187). -/
  members : List Nat
  /-- Member frames that wait for the release of their counter (R188). -/
  waiting : List RxFrame
deriving DecidableEq, Repr

/-- A commit of LM_DESC_COMMIT (R203): superframes still to swap at; the shadow has been written since the first
swap. -/
structure DescCommit where
  tx : Option Nat
  rx : Option Nat
  late : Bool
deriving DecidableEq, Repr

/-- A received line-mode frame that waits in the miss store for its SA's context (R320): lane, SA, generation and
epoch at its arrival, the raw TU count then, whether it is to be skipped (R597), the frame. -/
structure LmMiss where
  lane : Nat
  sa : Nat
  gen : Nat
  epoch : Nat
  arrival : Nat
  skip : Bool
  frame : Bytes
deriving DecidableEq, Repr

structure Lm where
  /-- Transmit frame counter and epoch by lane type (R161). -/
  txFc : Table (Nat × Nat)
  /-- Line ports in line mode, each with its hunt profile (R206). -/
  ports : Table Nat
  /-- Line lanes, clients by client port. -/
  lanes : Table LmLane
  clients : Table LmClient
  /-- Hunt profiles written; the others hold 0x0040_0243 (R193). -/
  hunt : Table Word
  /-- Sheaves by ID (R187). -/
  sheaves : Table Sheaf
  /-- Descriptor table by client port (R201): shadow, transmit copy, receive copy; and the records in force
  in the mapper and the demapper. -/
  shadow : Table (List Word)
  txCopy : Table (List Word)
  rxCopy : Table (List Word)
  txNow : Table (List Word)
  rxNow : Table (List Word)
  /-- Sheaves with uncommitted shadow writes; armed commits. -/
  uncommitted : List Nat
  commits : Table DescCommit
  /-- The miss store's line-mode frames, oldest first. -/
  missing : List LmMiss
  /-- Defect parameter record (R230). -/
  prm0 : Word
  prm1 : Word
deriving DecidableEq, Repr

def Lm.init : Lm where
  txFc := []
  ports := []
  lanes := []
  clients := []
  hunt := []
  sheaves := []
  shadow := []
  txCopy := []
  rxCopy := []
  txNow := []
  rxNow := []
  uncommitted := []
  commits := []
  missing := []
  prm0 := 0x18180008#32
  prm1 := 0x00000083#32

/-! ### Cipher slices (chapter 07) -/

/-- A resident context (R240, R243, R244), every secret in two shares: the key, the second key of the BV16 interworking
suite, the hash subkey with its powers. -/
structure Ctx where
  sa : Nat
  gen : Nat
  owner : Nat
  key1 : Bytes
  key2 : Bytes
  auth1 : Bytes
  auth2 : Bytes
  hash1 : List (BitVec 128)
  hash2 : List (BitVec 128)
  /-- The load has ended. -/
  ready : Bool
deriving DecidableEq, Repr

/-- One slice (R240, R245, R257, R261). -/
structure Slice where
  /-- State code of R257. -/
  state : Nat
  /-- Direction: 0 client to line, 1 line to client. -/
  dir : Nat
  /-- The slice that a Siding stands in for (R26), and why a slice is out of service (R26, R252). -/
  replaced : Option Nat
  reason : Nat
  /-- Resident contexts, least recently used first, at most eight. -/
  ctxs : List Ctx
  /-- Samples recomputed, found different, isolation drops, samples skipped (R253, R254, R249). -/
  samples : BitVec 64
  mismatches : BitVec 64
  isolation : BitVec 64
  skipped : BitVec 64
  /-- Isolation mismatches of the running tick (R249). -/
  isoTick : Nat
  /-- SA of the context that the last frame used (R239). -/
  lastSa : Option Nat
  /-- What the key registers of the contexts or jobs that left last were overwritten with (R240, R250, R585). -/
  vacant : Bytes
  /-- Mask expander: it has had its first seed; its state (R245). -/
  seeded : Bool
  expander : BitVec 512
  /-- Ticks without work (R587). -/
  idle : Nat
deriving DecidableEq, Repr

def Slice.init : Slice where
  state := 0
  dir := 0
  replaced := none
  reason := 0
  ctxs := []
  samples := 0
  mismatches := 0
  isolation := 0
  skipped := 0
  isoTick := 0
  lastSa := none
  vacant := []
  seeded := false
  expander := 0
  idle := 0

/-- A sample of shadow verification (R253, R254): the producing slice; the identity of its context; the slice inputs,
with the number of bytes that are additional data; the producer's tag; the Siding that recomputes; that Siding's tag
once it differs; the second Siding. -/
structure Sample where
  slice : Nat
  sa : Nat
  gen : Nat
  owner : Nat
  aad : Nat
  inp : Bytes
  tag : Bytes
  siding : Nat
  first : Option Bytes
  second : Option Nat
deriving DecidableEq, Repr

/-- A bulk job (R258, R264). -/
structure BulkJob where
  page : Nat
  tag : Nat
  mode : Nat
  encrypt : Bool
  slot : Nat
  /-- The key of the slot, in two shares. -/
  key1 : Bytes
  key2 : Bytes
  /-- Initialisation vector or counter block, length of the additional data (R258, R264). -/
  iv : Bytes
  aadLen : Nat
  /-- What the source buffer holds; address and length of the destination (R264). -/
  source : Bytes
  dst : Nat
  dstLen : Nat
  /-- The Siding it runs on, none while it waits. -/
  siding : Option Nat
  /-- Blocks of text done and the chain state after them: the chaining value, the next counter block or the GHASH
  accumulator (R256). -/
  pos : Nat
  chain : BitVec 128
deriving DecidableEq, Repr

/-- The continuous tests of a source (R247): the last sample and the length of its run; the reference sample of the
window, the samples taken of it and those equal to the reference. -/
structure Health where
  last : Bool
  run : Nat
  ref : Bool
  seen : Nat
  same : Nat
deriving DecidableEq, Repr

def Health.init : Health where
  last := false
  run := 0
  ref := false
  seen := 0
  same := 0

/-- An entropy source (R247, R248): 0 healthy, 1 restarting, 2 failed; failure counts; start-up failures in
a row; its tests; its samples since the last reseed, oldest first. -/
structure Source where
  state : Nat
  rct : Nat
  apt : Nat
  fails : Nat
  health : Health
  pool : List Bool
deriving DecidableEq, Repr

def Source.init : Source where
  state := 0
  rct := 0
  apt := 0
  fails := 0
  health := Health.init
  pool := []

/-- The working state of a CTR_DRBG instance: key and V (SP 800-90A). -/
structure DrbgKey where
  key : Bytes
  v : BitVec 128
deriving DecidableEq, Repr

/-- One instance of the DRBG (R246, R247): instantiated, its working state, generate requests since its last reseed. -/
structure Drbg where
  up : Bool
  work : DrbgKey
  requests : Nat
deriving DecidableEq, Repr

def Drbg.init : Drbg where
  up := false
  work := ⟨[], 0⟩
  requests := 0

structure Slices where
  slices : Table Slice
  shadowOn : Bool
  /-- Shadow samples, oldest first; their sector is that of the producing slice. -/
  samples : List Sample
  /-- Bulk jobs in acceptance order (R258). -/
  bulk : List BulkJob
  /-- The two entropy sources (R247). -/
  source0 : Source
  source1 : Source
  /-- The two instances of the DRBG (R246). -/
  keyDrbg : Drbg
  lineDrbg : Drbg
  /-- Ticks since the key instance was last reseeded, saturating in 32 bits. -/
  sinceReseed : Nat
  /-- A start-up failure of one source to report after the mode entry (R248). -/
  startFail : Option Nat
  /-- Slices that failed a known-answer test at the start, to take out at the mode entry (R252). -/
  failedAtStart : List Nat
  /-- SLICE_TEST that runs: page, tag, slice, and whether the slice was OUT. -/
  testing : List (Nat × Nat × Nat × Bool)
deriving DecidableEq, Repr

def Slices.init : Slices where
  slices := []
  shadowOn := true
  samples := []
  bulk := []
  source0 := Source.init
  source1 := Source.init
  keyDrbg := Drbg.init
  lineDrbg := Drbg.init
  sinceReseed := 0
  startFail := none
  failedAtStart := []
  testing := []

/-! ### Key associations and key change (chapter 08).
An object key is kind × 2^18 + number: kind 0 transmit SC, 1 receive SC, 2 line-mode transmit stream, 3
line-mode receive stream (R298). Instants are network time in units of 2^-32 ns. -/

/-- One security association (R270 to R277, R301). -/
structure SaRec where
  /-- State code of R273: 1 INSTALLED, 2 ACTIVE, 3 RETIRING, 4 DESTROYED; a FREE index is not listed. -/
  state : Nat
  /-- Object that it belongs to, AN or key index, owner page (R270, R301). -/
  obj : Nat
  an : Nat
  owner : Nat
  /-- Attributes of the key slot it was installed from (R250, R495). -/
  attrs : Nat
  /-- Its key (R270). -/
  key : Bytes
  /-- Second key of the BV16 interworking suite. -/
  ka : Bytes
  /-- Salt and SSCI (R168, R242). -/
  salt : Bytes
  ssci : Nat
  /-- SUITE of R122 in frame mode; 0x10 line-mode GCM, 0x11 BV16 interworking. -/
  suite : Nat
  /-- Next PN, or next expected PN; frames under the key in line mode. -/
  pn : Nat
  /-- Key generation (R271). -/
  gen : Nat
  /-- Order of installation (R275). -/
  order : Nat
  /-- It belongs to a chain (R282); its PN or frame limit is reached (R137, R170). -/
  chain : Bool
  exhausted : Bool
  /-- The PN threshold at which it has been reported (R137). -/
  warned : Option Nat
  /-- First valid frame under the SA on path A or the only path, and on path B of a pair (R277). -/
  t1 : Option Nat
  t1b : Option Nat
  /-- Schedule by which it became ACTIVE, or that named it when a valid frame made it ACTIVE: id, T, W and RETIRE_MAX in
  ticks; 0xFFF for other switches. -/
  switched : Option (Nat × Nat × Nat × Nat)
  /-- A first valid frame was reported early, or its absence late (R278). -/
  told : Bool
  /-- Retire instant, and the last instant a RETIRING receive SA may live. -/
  retireAt : Option Nat
  retireMax : Option Nat
  /-- Counters of the SA (R131, R133). -/
  ctr : Counters
deriving DecidableEq, Repr

/-- The keying of one object: SA index on each AN or key index, and the encoding AN. -/
structure KObj where
  an : Table Nat
  enc : Option Nat
deriving DecidableEq, Repr

/-- A schedule (R276, R302). -/
structure Sched where
  page : Nat
  epoch : Nat
  t : Nat
  /-- Overlap window, PRELOAD and RETIRE_MAX in ticks, as when the schedule was made (R280). -/
  w : Nat
  lead : Nat
  rmax : Nat
  /-- Objects with the AN each goes to; a chain object goes to g + 1. -/
  objs : List (Nat × Nat)
  /-- Its contexts have been preloaded (R279); its instant has come (R276). -/
  preloaded : Bool
  switched : Bool
  /-- KC_REKEY_ALL: every chain (R294). -/
  all : Bool
deriving DecidableEq, Repr

/-- An autonomous keying chain (R282 to R286), by object key. -/
structure Chain where
  owner : Nat
  kekSlot : Nat
  /-- SHA-384 of the KEK it last derived under: the KEK itself is in its slot alone (R291). -/
  kekHash : Bytes
  /-- Owner's association of the KEK decides the direction bit (R282). -/
  dir : Nat
  /-- Chain ID, period in seconds, BV16 interworking suite (R303). -/
  id : Nat
  period : Nat
  bv16 : Bool
  /-- The generation that is ACTIVE, and whether g + 1 is installed. -/
  gen : Nat
  nextReady : Bool
  /-- Generations derived under the KEK (R286). -/
  derived : Nat
  /-- KC_CHAIN_CREATE that still runs: page and tag. -/
  creating : Option (Nat × Nat)
  /-- Network seconds of the last periodic switch. -/
  lastPeriod : Nat
deriving DecidableEq, Repr

/-- A key-agreement peer (R287 to R291, R304). -/
structure Peer where
  answers : Bool
  method : Nat
  port : Nat
  assoc : Nat
  owner : Nat
  ownSlot : Nat
  peerSlot : Nat
  kekSlot : Nat
  dst : Nat
  src : Nat
  /-- 0 idle, 1 running, 2 established (R305). -/
  state : Nat
  /-- This end is the initiator; the agreement was begun by the peer; outcome of the last one; agreements completed;
  ticks since the KEK was established (R305). -/
  initiator : Bool
  byPeer : Bool
  outcome : Nat
  completed : Nat
  ticks : Nat
  /-- The message that waits for an answer, its sends so far, ticks since the last send (R291). -/
  sent : Bytes
  sends : Nat
  waited : Nat
  /-- Transcript: KA_INIT, KA_RESP, KA_FIN. -/
  mInit : Bytes
  mResp : Bytes
  mFin : Bytes
  /-- Ephemeral secrets of this end. -/
  eph : Bytes
  /-- KEK and KCK of the agreement that runs; an agreed pair is held in the volatile slot alone (R291). -/
  kek : Bytes
  kck : Bytes
  /-- An agreed KEK of the association stands, and this end was the initiator of its agreement (R282, R290). -/
  estab : Bool
  estabInit : Bool
  /-- KA_START that runs: page and tag. -/
  cmd : Option (Nat × Nat)
deriving DecidableEq, Repr

structure Kc where
  sas : Table SaRec
  /-- Install count of each SA index (R271). -/
  installs : Table Nat
  /-- Installs in all, which order them (R275). -/
  order : Nat
  /-- The SAs of an object by AN, and its encoding AN (R298). -/
  objs : Table KObj
  /-- Pending schedules by ID, and the next ID (R302). -/
  scheds : Table Sched
  nextSched : Nat
  /-- SA_SET_ENCODING and encode-now: object and AN to switch at the next tick boundary (R299, R300). -/
  encNext : List (Nat × Nat)
  /-- Chains by object (R303). -/
  chains : Table Chain
  /-- Key-change parameter record (R280). -/
  prm0 : Word
  prm1 : Word
  /-- Associations by number (R304). -/
  peers : Table Peer
  /-- Key-channel messages waiting on line ports: cells of line mode, 64 bytes each (R292), and the message
  sequence number of each port. -/
  cells : Table (List Bytes)
  /-- The message sequence number of each port (R292). -/
  seqs : Table Nat
  /-- The cell that a line port sends now (R292). -/
  cellOut : Table Bytes
  /-- Key-channel bytes of the cell in reception, by line lane (R292). -/
  cellIn : Table Bytes
  /-- Sequence number of the last message a line port completed in line mode (R292). -/
  lastSeq : Table Nat
  /-- Message in reassembly by line port: sequence number and pieces by index. -/
  msgIn : Table (Nat × Table Bytes)
  /-- Whole messages received and not yet taken up: line port and bytes. -/
  inbox : List (Nat × Bytes)
  /-- Messages discarded because no peer has their association ID (R291). -/
  discarded : Nat
  /-- KC_REKEY_ALL under way: schedule id and T (R294). -/
  rekeyAll : Option (Nat × Nat)
deriving DecidableEq, Repr

def Kc.init : Kc where
  sas := []
  installs := []
  order := 0
  objs := []
  scheds := []
  nextSched := 0
  encNext := []
  chains := []
  prm0 := 0x00050002#32
  prm1 := 0x000003E8#32
  peers := []
  cells := []
  seqs := []
  cellOut := []
  cellIn := []
  lastSeq := []
  msgIn := []
  inbox := []
  discarded := 0
  rekeyAll := none

/-! ### Dispatcher (chapter 09) -/

/-- A placement group (R309, R310, R333), by group ID. -/
structure Group where
  slices : List Nat
  override : Bool
  relief : Bool
  /-- Active SCs of the last tick; bytes of the running tick; Gb/s of the last tick. -/
  active : Nat
  bytes : Nat
  rate : Nat
  /-- Objects that carried a frame in the running tick. -/
  objs : List Nat
deriving DecidableEq, Repr

/-- How an SC or stream is spread (R313), by object key. -/
structure Spread where
  s : Nat
  b : Nat
  /-- Stripe counter. -/
  k : Nat
  /-- Bytes of the running tick; ticks in a row above and below the thresholds; bytes of the last tick. -/
  bytes : Nat
  above : Nat
  under : Nat
  last : Nat
deriving DecidableEq, Repr

/-- A move (R316): of a group position to a slice, or of an object to a new stripe set. -/
structure Move where
  group : Nat
  /-- The object whose stripe set changes, with its new s and b; none: the group position moves. -/
  obj : Option (Nat × Nat × Nat)
  /-- Position in the group; slice it leaves, slice it goes to. -/
  pos : Nat
  src : Nat
  dst : Nat
  /-- Number of the next frame at the switch-over: earlier frames drain. -/
  marker : Nat
  /-- 0 waits, 1 target loads, 2 draining. -/
  phase : Nat
  /-- What asked for it: 0 stripe width, 1 fault, 2 droop, 3 hint, 4 table, 5 AVOID_SLICE (R317, R327, R340). -/
  cause : Nat
deriving DecidableEq, Repr

/-- Droop relief of a sector (R324): running, ticks in a row over the threshold and without droop, groups
moved with the slices they came from. -/
structure Relief where
  on : Bool
  above : Nat
  calm : Nat
  moved : List (Nat × List Nat)
deriving DecidableEq, Repr

def Relief.init : Relief where
  on := false
  above := 0
  calm := 0
  moved := []

structure Dsp where
  groups : Table Group
  spreads : Table Spread
  moves : Table Move
  nextMove : Nat
  /-- Moves started in the running tick, by sector (R317). -/
  started : Table Nat
  /-- Moves completed in the running tick with the union of their causes (R340). -/
  doneTick : Nat
  causeTick : Nat
  /-- On-die context cache: SA indices, least recently used first (R318, R319). -/
  cache : List Nat
  /-- SAs of line lanes whose contexts are being fetched into it (R320). -/
  fetching : List Nat
  /-- Context cache: hits, misses, frames dropped at a full miss store, prefetches (R335). -/
  hits : BitVec 64
  misses : BitVec 64
  missDrops : BitVec 64
  prefetches : BitVec 64
  /-- Moves completed since the start (R335). -/
  movesDone : BitVec 64
  /-- Hints (R326): pinned objects, preferred sector, avoided slices, latency class. -/
  pins : List Nat
  prefer : Table Nat
  avoid : List Nat
  classes : Table Nat
  /-- Tick of the last EVT_DSP_HINT_UNMET by object (R340). -/
  unmet : Table Nat
  /-- Expert placement table (R328): records by group, 0 where unlisted. -/
  shadow : Table (List Word)
  active : Table (List Word)
  /-- DSP_TABLE_COMMIT that runs: page, tag, swapped, groups moved. -/
  commit : Option (Nat × Nat × Bool × Nat)
  /-- Tick of that command's answer; the swap waits for the boundary behind it (R329). -/
  commitAt : Nat
  /-- Dispatcher parameter record (R330). -/
  prm0 : Word
  prm1 : Word
  /-- A record written in the running tick, in force from the next one (R330). -/
  prmNext : Option (Word × Word)
  /-- Sectors under droop relief (R324). -/
  relief : Table Relief
  /-- Page channel rotation (R322): last channel of each buffered queue. -/
  channel : Table Nat
deriving DecidableEq, Repr

def Dsp.init : Dsp where
  groups := []
  spreads := []
  moves := []
  nextMove := 0
  started := []
  doneTick := 0
  causeTick := 0
  cache := []
  fetching := []
  hits := 0
  misses := 0
  missDrops := 0
  prefetches := 0
  movesDone := 0
  pins := []
  prefer := []
  avoid := []
  classes := []
  unmet := []
  shadow := []
  active := []
  commit := none
  commitAt := 0
  prm0 := 0x501E1040#32
  prm1 := 0x32000064#32
  prmNext := none
  relief := []
  channel := []

/-! ### Granary (chapter 10) -/

/-- A region (R345, R357, R358). -/
structure Region where
  quota : Nat
  epoch : Nat
  /-- Lines written under the current key. -/
  lines : BitVec 64
  /-- Current and old key pairs, K_E then K_M; the old one is [] outside a re-key. -/
  key : Bytes
  oldKey : Bytes
  /-- Allocation counter of a buffer region (R351). -/
  alloc : BitVec 64
deriving DecidableEq, Repr

def Region.init : Region where
  quota := 0
  epoch := 0
  lines := 0
  key := []
  oldKey := []
  alloc := 1

/-- A channel's counts (R369). -/
structure Channel where
  errors : Nat
  repaired : Nat
  rows : Nat
deriving DecidableEq, Repr

def Channel.init : Channel where
  errors := 0
  repaired := 0
  rows := 0

/-- Counters of a protected page (R341, R343, R351): its major counter, the minor counters of its lines that are
not 0, and whether its key selector names the region's old key. -/
structure PageCtr where
  major : BitVec 64
  minors : Table Nat
  old : Bool
deriving DecidableEq, Repr

/-- What the engine keeps of a page frame in use (R341): its page frame number, its counter line, and of each data line
written on its own the ciphertext and the MAC; a line that is not listed holds what the start wrote, zeros (R357). -/
structure PageFrame where
  pfn : Nat
  ctr : PageCtr
  lines : Table (Bytes × Bytes)
deriving DecidableEq, Repr

/-- Pages that a buffered queue holds (R322, R345, R350): oldest first; bytes already read of the first page and put into
the last; those of the line that is still assembled on die. -/
structure Buffered where
  pages : List PageFrame
  head : Nat
  tail : Nat
  line : Bytes
deriving DecidableEq, Repr

/-- An entry of the metadata cache (R344): level 0 a counter line, 1 to 3 a tree node, and its index; `dirty`: the
copies in memory are behind it until it is written back. -/
structure MetaLine where
  level : Nat
  index : Nat
  dirty : Bool
deriving DecidableEq, Repr

/-- A running retirement (R361, R362): channel, phase, ticks in phase 1, pages migrated, page and tag. -/
structure Retiring where
  ch : Nat
  phase : Nat
  ticks : Nat
  moved : Nat
  page : Nat
  tag : Nat
deriving DecidableEq, Repr

/-- A running re-key (R358): region, cause, the command's page and tag. -/
structure Rekeying where
  region : Nat
  cause : Nat
  cmd : Option (Nat × Nat)
deriving DecidableEq, Repr

structure Grn where
  regions : Table Region
  /-- Tree key K_T. -/
  kt : Bytes
  /-- Counts of the channels (R360, R369). -/
  channels : Table Channel
  /-- Buffered queues by region × 2^20 + number. -/
  bufs : Table Buffered
  /-- Page frames of the mapped regions by region × 2^20 + page; a page that is not listed stands where the start put it
  and has had no line written on its own (R345, R357). -/
  frames : Table PageFrame
  /-- Counter lines of page frames that are free again (R345), by PFN. -/
  left : Table PageCtr
  /-- The page map as the start laid it out: channels of the variant, and those that took no part (R345, R362). -/
  width : Nat
  gone : List Nat
  /-- Metadata cache, least recently used first, 524,288 entries at most (R344). -/
  metaCache : List MetaLine
  /-- The root of the integrity tree, the on-die register (R343). -/
  root : Bytes
  /-- Channel retirement that runs (R362). -/
  retiring : Option Retiring
  /-- Region re-key that runs (R358). -/
  rekeying : Option Rekeying
  /-- Regions at EPOCH_LIMIT that wait for the running maintenance to end. -/
  waiting : List Nat
  /-- Errors corrected; tree nodes repaired (R360). -/
  errors : BitVec 64
  repaired : Nat
  /-- Access fault log, newest first (R370), faults since the last clear, faults in all. -/
  log : List (Word × Word × Word)
  faults : Nat
  faultsAll : Nat
  /-- Halt record (R356): detail, channel (0x3F none), data address, RTC seconds. -/
  halt : Option (Nat × Nat × Nat × Word)
  /-- Correctable errors of the running scrub pass by channel × 2^24 + row. -/
  rowErrors : Table Nat
  /-- Channels retired at this start, to report after the mode entry (R363). -/
  retiredAtStart : List Nat
  /-- Granary parameter record (R365). -/
  prm0 : Word
  prm1 : Word
  /-- A record written in the running tick, in force from the next one (R365). -/
  prmNext : Option (Word × Word)
deriving DecidableEq, Repr

/-- Quotas of a device with all 64 channels (R345). -/
def Grn.init : Grn where
  regions := [(0, { Region.init with quota := 32768 }), (1, { Region.init with quota := 65536 }),
    (2, { Region.init with quota := 4194304 }), (3, { Region.init with quota := 2097152 }),
    (4, { Region.init with quota := 22708224 }), (5, { Region.init with quota := 262144 })]
  kt := []
  channels := []
  bufs := []
  frames := []
  left := []
  width := 64
  gone := []
  metaCache := []
  root := []
  retiring := none
  rekeying := none
  waiting := []
  errors := 0
  repaired := 0
  log := []
  faults := 0
  faultsAll := 0
  halt := none
  rowErrors := []
  retiredAtStart := []
  prm0 := 0x01001810#32
  prm1 := 0x0000000A#32
  prmNext := none

/-! ### Path pairs (chapter 11). Path 0 is A, path 1 is B. -/

/-- One path of a pair (R381 to R388). -/
structure PathEnd where
  /-- Sheaf ID or line port. -/
  carrier : Nat
  /-- 0 DOWN, 1 ALIGNING, 2 READY. -/
  state : Nat
  /-- The accepted claim (R383). -/
  accepted : Nat
  /-- Claim last received and how often in a row (R383). -/
  cand : Nat
  candRun : Nat
  /-- Effective HEALTH, MARGIN and PRIO that the Points uses (R385). -/
  health : Nat
  margin : Nat
  prio : Nat
  /-- PRIO transmitted (R403); lockout (R391). -/
  txPrio : Nat
  lockout : Bool
  /-- Frame mode: no valid claim frame for CLAIM_MISS periods; ICV failures of the running tick; the last
  tick had 16 or more; uncorrectable codewords at SD_SET in the last tick (R384). -/
  missed : Bool
  icvFails : Nat
  auth : Bool
  degraded : Bool
  /-- PN of the last valid claim frame (R387), and the raw TU count at which it came, or at which the pair began. -/
  claimPn : Nat
  heard : Nat
  /-- Tick at which ALIGNING began. -/
  since : Nat
  /-- Offset in ns (R393): the mean of the last block of 1,024 units, sum and count of the running block. -/
  offset : Nat
  sum : Nat
  count : Nat
deriving DecidableEq, Repr

def PathEnd.init : PathEnd where
  carrier := 0
  state := 0
  accepted := 0
  cand := 0
  candRun := 0
  health := 0
  margin := 0
  prio := 0
  txPrio := 0
  lockout := false
  missed := false
  icvFails := 0
  auth := false
  degraded := false
  claimPn := 0
  heard := 0
  since := 0
  offset := 0
  sum := 0
  count := 0

/-- A unit in the Marshalling yard (R393, R394): its number (FC, or PN with its SC), arrival of its first
copy and due time as raw TU counts, the paths that delivered a valid copy, its content. -/
structure YardUnit where
  sc : Nat
  num : Nat
  first : Nat
  due : Nat
  fromA : Bool
  fromB : Bool
  /-- The first copy came on path B. -/
  viaB : Bool
  /-- Frame mode: the frame as it left the reorder stage. Line mode: the valid member frames of the FC. -/
  flight : Option Flight
  members : List RxFrame
deriving DecidableEq, Repr

structure PathPair where
  line : Bool
  hitless : Bool
  profile : Nat
  dp : Nat
  a : PathEnd
  b : PathEnd
  /-- 0 path A, 1 path B. -/
  selected : Nat
  /-- Forced switch (R391); transmit SC of the claim frames (R387); switches done; units that came too late (R394). -/
  force : Option Nat
  claimSc : Nat
  switches : Nat
  late : Nat
  /-- Units in the Marshalling yard (R393). -/
  units : List YardUnit
  /-- Numbers at or below which units are no longer taken, by SC (0 in line mode): R393 to R395. -/
  delivered : Table Nat
  /-- Claim frames dropped as invalid (R387). -/
  invalid : Nat
  /-- HOLDOFF runs (R389): the HEALTH of the selected path before its fall, and the raw TU count of the fall. -/
  holdoff : Option (Nat × Nat)
  /-- Fast switch (R395): the client output holds since a raw TU count; true once the hold has passed its 14,000 cc. -/
  hold : Option (Nat × Bool)
  /-- Frame mode: the raw TU count of the last claim frames (R386). Line mode: path B carries the clients (R400). -/
  claimAt : Option Nat
  bSends : Bool
  /-- Line mode, hitless: an FC and its due time in 1/25 TU cycles (R393). -/
  sched : Option (Nat × Nat)
deriving DecidableEq, Repr

structure Paths where
  pairs : Table PathPair
  /-- Profiles written; the others hold 0x1000_000A and 0x8C01_0A30 (R398). -/
  profiles : Table (Word × Word)
  /-- Profiles written in the running tick, in force from the next one. -/
  profilesNext : Table (Word × Word)
  /-- Claim frames whose pair ID names no pair (R387). -/
  strayClaims : Nat
deriving DecidableEq, Repr

def Paths.init : Paths where
  pairs := []
  profiles := []
  profilesNext := []
  strayClaims := 0

/-! ### Egress scheduling (chapter 12) -/

/-- A frame that waits in an egress queue (R407, R412). -/
structure QFrame where
  /-- Number of the flight it was, for the ICV verdict of a frame sent on (R135). -/
  id : Nat
  /-- The frame, and whether it lies in the frame buffer (R322). -/
  bytes : Bytes
  buffered : Bool
  /-- Raw TU count when it entered the queue, and when it arrived at the device. -/
  entered : Nat
  arrival : Nat
  /-- Port key of its ingress (side × 64 + port). -/
  ingress : Nat
  /-- The transparent clock corrects it (R138 to R140): offset of the correctionField. -/
  ptp : Option Nat
  /-- What is computed again where its correctionField is corrected (R140). -/
  reseal : Option Reseal
  /-- Its ICV verdict is still to come; it has failed. -/
  unchecked : Bool
  bad : Bool
  /-- Object key of its SC, with its PN, for the copy on path B (R378). -/
  sc : Option (Nat × Nat)
  /-- The SecY that classified a frame on its way to a line port (R410, R423). -/
  secy : Option Nat
  /-- The Gleaner's record of a tagged frame (R608). -/
  glean : Option Glean
deriving DecidableEq, Repr

/-- Samples of R422: count, minimum and maximum, bins, overflow flags, for depth and for delay. -/
structure Hist where
  low : Nat
  high : Nat
  bins : List Nat
  ovf : Nat
deriving DecidableEq, Repr

def Hist.init : Hist where
  low := 0xFFFFFFFF
  high := 0
  bins := List.replicate 16 0
  ovf := 0

/-- An egress queue with its record (R416). -/
structure Queue where
  w0 : Word
  w1 : Word
  w2 : Word
  frames : List QFrame
  /-- Shaper credit in 1/14,000 byte (a TU cycle brings RATE such units) at the raw TU count `creditAt`. -/
  credit : Int
  creditAt : Nat
  /-- Frames and wire bytes sent (R427). -/
  sent : BitVec 64
  wire : BitVec 64
  /-- Drops for causes 1 to 6 of R413. -/
  drops : List (BitVec 64)
  /-- Frames that went through the frame buffer (R427). -/
  viaBuffer : BitVec 64
  /-- Samples, with the histograms of depth and delay (R422). -/
  samples : Nat
  depth : Hist
  delay : Hist
  /-- Drops of the running tick, their last cause, tick of the last EVT_SCH_DROP (R431). -/
  dropTick : Nat
  dropCause : Nat
  dropEvt : Option Nat
deriving DecidableEq, Repr

/-- A queue at its reset values (R415, R416). -/
def Queue.init : Queue where
  w0 := 0
  w1 := 0x00004000#32
  w2 := 0x6A010000#32
  frames := []
  credit := 16384 * 14000
  creditAt := 0
  sent := 0
  wire := 0
  drops := List.replicate 6 0
  viaBuffer := 0
  samples := 0
  depth := Hist.init
  delay := Hist.init
  dropTick := 0
  dropCause := 0
  dropEvt := none

/-- The Timetable of a line port (R417 to R420). -/
structure Timetable where
  /-- Running list: gates and duration of each entry; [] none. -/
  active : List (Nat × Nat)
  /-- Base time of the running list (R418). -/
  base : Nat
  /-- Entry that the gates show. -/
  entry : Nat
  /-- Shadow list (R429). -/
  shadow : Table (Nat × Nat)
  /-- Armed swap: list length, B_new, swap instant. -/
  armed : Option (Nat × Nat × Nat)
deriving DecidableEq, Repr

def Timetable.init : Timetable where
  active := []
  base := 0
  entry := 0
  shadow := []
  armed := none

structure Sch where
  /-- Queues: line port × 8 + queue, 512 + client port. -/
  queues : Table Queue
  /-- PCP maps written, by line port; the others hold 0x6654_3210 (R426). -/
  pcp : Table Word
  /-- Queue of a SecY (R426); 0 where unlisted. -/
  secyQueue : Table Nat
  /-- Timetables by line port (R418). -/
  tts : Table Timetable
  /-- Raw TU count at which a port key (side × 64 + port) is free for the next frame. -/
  busy : Table Nat
  /-- Frames on the wire whose ICV verdict is still to come: flight, port key. -/
  onWire : List (Nat × Nat)
  /-- Bytes that entered the frame buffer in the running tick (R413 cause 3). -/
  bufTick : Nat
  /-- Sample periods of 1,024 TU cycles that have been sampled (R422). -/
  sampled : Nat
deriving DecidableEq, Repr

def Sch.init : Sch where
  queues := []
  pcp := []
  secyQueue := []
  tts := []
  busy := []
  onWire := []
  bufTick := 0
  sampled := 0

/-! ### Network time (chapter 13). An instant is network time in units of 2^-32 ns. -/

/-- A transmit stamp in the queue (R442, R451). -/
structure TxStamp where
  side : Nat
  port : Nat
  id : Nat
  epoch : Nat
  t : Nat
deriving DecidableEq, Repr

/-- A captured PTP frame (R444, R457). -/
structure Captured where
  side : Nat
  port : Nat
  epoch : Nat
  t : Nat
  frame : Bytes
deriving DecidableEq, Repr

/-- A host PTP frame waiting to leave (R442, R456). -/
structure PtpOut where
  side : Nat
  port : Nat
  id : Nat
  stamp : Bool
  frame : Bytes
deriving DecidableEq, Repr

/-- A step or re-arm that waits for the tick boundary (R435, R436): kind as in R454, words 1 to 3; what an align to
PPS adds, in 2^-32 ns, as its request found it. -/
structure TimePend where
  rearm : Bool
  kind : Nat
  a : Word
  b : Word
  c : Word
  align : Int
  /-- Ticks counted at its response: it acts behind the next boundary. -/
  tick : Nat
deriving DecidableEq, Repr

structure Tu where
  epoch : Nat
  /-- Time at raw count `cBase`; the time now follows from the cycles since (R433). -/
  tBase : Nat
  cBase : Nat
  /-- The frequency model is in force (R433). -/
  modelF : Bool
  /-- Rate in force and rate last set, in 2^-16 ppm (R434). -/
  rate : Int
  rateSet : Int
  /-- Settings that apply from the next tick boundary: rate, model (R434, R433). -/
  rateNext : Option Int
  modelNext : Option Bool
  /-- The TIME_STEP of the epoch is used, and made (R435). -/
  stepUsed : Bool
  stepMade : Bool
  /-- The pending step (R435). -/
  pend : List TimePend
  /-- Reference chosen, in use, and the TUREF source present (0 none) (R447, R460). -/
  ref : Nat
  refUse : Nat
  turef : Nat
  /-- TU_STATUS bits (R451). -/
  todIn : Bool
  ppsIn : Bool
  refLost : Bool
  /-- A re-arm happened; the alarms went off; interrupt enables (R451). -/
  rearmed : Bool
  alarm32 : Bool
  alarm : Bool
  irqEn : BitVec 8
  /-- Alarm registers and arms. -/
  almHi : Word
  almLo : Word
  almNs : Word
  alm32 : Word
  arm : Bool
  arm32 : Bool
  /-- TU_SEC_HI to TU_RAW_HI as last snapped. -/
  snap : List Word
  /-- Last PPS_IN stamp: epoch and instant; raw count of the edge. -/
  ppsStamp : Option (Nat × Nat)
  ppsRaw : Nat
  /-- Host PTP frames waiting to leave. -/
  ptpOut : List PtpOut
  /-- Queue of transmit stamps (R443). -/
  txq : List TxStamp
  /-- TU_TXQ_SEC_HI to TU_TXQ_FRAC. -/
  txqRegs : List Word
  /-- The queue has overflowed, and how many stamps were dropped (R443). -/
  ovfFlag : Bool
  ovfCount : Nat
  /-- Ring of captured frames, and how many were dropped (R444). -/
  ring : List Captured
  ringDropped : Bool
  /-- Capture by port key: the extra address, if used (R458); settings that apply from the next tick. -/
  capture : Table (Option Nat)
  captureNext : List (Nat × Option (Option Nat))
  /-- TIME_PPS_SET word in force and the one that waits for the next seconds boundary (R459). -/
  pps : Word
  ppsNext : Option Word
  /-- PPS_OUT is high: the raw count at which its configured width has passed (R448). -/
  ppsUntil : Option Nat
  /-- Seconds whose ToD message is due 10 ms after the edge (R449), with the raw count of the edge. -/
  todDue : Option (Nat × Nat)
  /-- Last ToD message accepted: locked flag, seconds, epoch and instant of its edge. -/
  tod : Option (Bool × Nat × Nat × Nat)
  /-- Second last announced by the 1PPS. -/
  lastSec : Nat
  /-- Path delays in ps by (side × 2 + direction) × 64 + lane, direction 1 transmit (R445, R446). -/
  dLock : Table Int
  dLive : Table Int
  dUser : Table Int
  dUserNext : Table Int
  /-- Measurements since the last lock, saturating; live-calibrated since then. -/
  dCount : Table Nat
  /-- Measurements that no block of 64 has taken in yet (R446). -/
  dBlock : Table Nat
  dCal : Table Bool
deriving DecidableEq, Repr

/-- DESIGN CHOICE (log 5). -/
def Tu.init : Tu where
  epoch := 0
  tBase := 0
  cBase := 0
  modelF := false
  rate := 0
  rateSet := 0
  rateNext := none
  modelNext := none
  stepUsed := false
  stepMade := false
  pend := []
  ref := 0
  refUse := 0
  turef := 0
  todIn := false
  ppsIn := false
  refLost := false
  rearmed := false
  alarm32 := false
  alarm := false
  irqEn := 0
  almHi := 0
  almLo := 0
  almNs := 0
  alm32 := 0
  arm := false
  arm32 := false
  snap := []
  ppsStamp := none
  ppsRaw := 0
  ptpOut := []
  txq := []
  txqRegs := []
  ovfFlag := false
  ovfCount := 0
  ring := []
  ringDropped := false
  capture := []
  captureNext := []
  pps := 0x80000064#32
  ppsNext := none
  ppsUntil := none
  todDue := none
  tod := none
  lastSec := 0
  dLock := []
  dLive := []
  dUser := []
  dUserNext := []
  dCount := []
  dBlock := []
  dCal := []

/-! ### High-speed lanes (chapter 14). A lane or port key is side × 64 + number, side 0 line, 1 client. -/

/-- A trial step of background adaptation (R477): the FoM before it, the tick in which it was applied, the coefficients
that it replaced. -/
structure Trial where
  fom : Nat
  tick : Nat
  coeffs : BitVec 64
deriving DecidableEq, Repr

/-- One lane (R468 to R491). -/
structure Lane where
  /-- State code of R468. -/
  state : Nat
  /-- Retries used in the current stage. -/
  retries : Nat
  /-- The stage word in force (R473). -/
  word : Word
  /-- Raw TU count at which the stage was entered, for its time limit (R471). -/
  stageAt : Nat
  /-- FoM and the lowest FoM of the last tick, in 0.1 dB. -/
  fom : Nat
  fomLow : Nat
  /-- FEC codewords corrected and uncorrectable in the last tick. -/
  corrected : Nat
  uncorrectable : Nat
  /-- Transmit taps in the layout of LANE_STATUS word 4. -/
  taps : Word
  /-- Adaptation mode 1: coefficients frozen (R477). -/
  frozen : Bool
  /-- The step of adaptation that is tried (R477). -/
  trial : Option Trial
  /-- The coefficients (R476), whose layout the spec does not give. DESIGN CHOICE (log 77). -/
  coeffs : BitVec 64
  /-- Entries to ACTIVE since the start; steps reverted in this second and in the last one. -/
  entries : Nat
  reverts : Nat
  revertsLast : Nat
  /-- Signal detect; bit lock and codeword lock; waiting for signal detect (R474); coefficients held. -/
  signal : Bool
  lock : Bool
  waiting : Bool
  held : Bool
  /-- Raw TU counts at which signal detect and the locks last changed (R216). -/
  signalAt : Nat
  lockAt : Nat
  /-- Generator, checker, loopback codes of R489. -/
  gen : Nat
  chk : Nat
  loop : Nat
  chkLocked : Bool
  lockLost : Bool
  bitErrors : BitVec 64
  bitsChecked : BitVec 64
deriving DecidableEq, Repr

/-- DESIGN CHOICE (log 5). -/
def Lane.init : Lane where
  state := 0
  retries := 0
  word := 0
  stageAt := 0
  fom := 0
  fomLow := 0
  corrected := 0
  uncorrectable := 0
  taps := 0x00FA37FE#32
  frozen := false
  trial := none
  coeffs := 0
  entries := 0
  reverts := 0
  revertsLast := 0
  signal := false
  lock := false
  waiting := false
  held := false
  signalAt := 0
  lockAt := 0
  gen := 0
  chk := 0
  loop := 0
  chkLocked := false
  lockLost := false
  bitErrors := 0
  bitsChecked := 0

/-- A configured port (R465, R486). -/
structure Port where
  /-- Lane type code of R486: 0 212.5, 1 106.25, 2 53.125, 3 25.78125 Gb/s. -/
  typ : Nat
  width : Nat
  fec : Nat
  /-- CBR kind. -/
  cbr : Bool
  /-- Bring-up profile; the port is up (R465, R472). -/
  profile : Nat
  up : Bool
deriving DecidableEq, Repr

structure Lanes where
  lanes : Table Lane
  ports : Table Port
  /-- Sequencer profiles written (R490); the others hold the values of R472. -/
  profiles : Table (List Word)
  /-- A JTAG instruction that drives outputs is loaded (R483). -/
  jtagDrive : Bool
deriving DecidableEq, Repr

def Lanes.init : Lanes where
  lanes := []
  ports := []
  profiles := []
  jtagDrive := false

/-! ### Key store (chapter 15) -/

/-- A slot that holds a key (R493 to R495), its key as two shares (R498). -/
structure Slot where
  typ : Nat
  owner : Nat
  attrs : Nat
  /-- 1 sealed, 2 derived, 3 agreed, 4 provisioned (R518). -/
  source : Nat
  /-- The two shares of its key (R498). -/
  share1 : Bytes
  share2 : Bytes
deriving DecidableEq, Repr

/-- A journal record of R510: slot, the record to be written (none: erase), counter, target page. -/
structure Journal where
  slot : Nat
  put : Option Slot
  ctr : Nat
  page : Nat
deriving DecidableEq, Repr

/-- A sealed message that waits, or is in process: page, tag, bytes (R509, R517). -/
structure SealJob where
  page : Nat
  tag : Nat
  msg : Bytes
deriving DecidableEq, Repr

structure Ks where
  /-- Persistent slots 0 to 255 in flash, and whether their unwrapped copies are in key RAM. -/
  flash : Table Slot
  unwrapped : Bool
  /-- Volatile slots 256 to 4351 in key RAM. -/
  ram : Table Slot
  /-- Counters in flash (R504). -/
  slotCtr : Table Nat
  pageCtr : Table Nat
  /-- Vault (R503): K_V ([] when zero), SEAL, JSTATE prepared, JSLOT, JCTR, JDIGEST. -/
  kv : Bytes
  sealV : Bytes
  jPrep : Bool
  jSlot : Nat
  jCtr : Nat
  jDigest : Bytes
  /-- The journal record in flash. -/
  journal : Option Journal
  /-- Accepted sealed messages, oldest first; the one between its two phases. -/
  queue : List SealJob
  prepared : Option SealJob
  /-- Credentials of tenant pages: ML-DSA slot, ECDSA slot (R521). -/
  creds : Table (Option Nat × Option Nat)
  /-- Internal keys are derived (R500). -/
  internal : Bool
  /-- The last start found the vault lost or the seal failed (R513). -/
  lostAtStart : Bool
  /-- KS_PROVISION that waits for its OTP writes: page, tag, message. -/
  provision : Option SealJob
  /-- Recovery events to write after the mode entry: slot, cause, owner page (R505, R523). -/
  recovery : List (Nat × Nat × Option Nat)
  /-- Polarity flag of R498, and re-maskings since the last inversion. -/
  polarity : Bool
  remasks : Nat
  /-- Raw TU count of the last re-masking. -/
  remaskAt : Nat
  /-- The random bytes that stand in the place of an erased key, by slot (R510, R520). -/
  wiped : Table Bytes
deriving DecidableEq, Repr

def Ks.init : Ks where
  flash := []
  unwrapped := false
  ram := []
  slotCtr := []
  pageCtr := []
  kv := []
  sealV := []
  jPrep := false
  jSlot := 0
  jCtr := 0
  jDigest := []
  journal := none
  queue := []
  prepared := none
  creds := []
  internal := false
  lostAtStart := false
  provision := none
  recovery := []
  polarity := false
  remasks := 0
  remaskAt := 0
  wiped := []

/-! ### Public-key engine (chapter 16) -/

/-- An input register (R524). -/
structure PkeReg where
  bytes : Bytes
  secret : Bool
deriving DecidableEq, Repr

/-- A host job (R526, R537): its words, and what the host buffers of its inputs hold. -/
structure PkeJob where
  page : Nat
  tag : Nat
  words : List Word
  buf : Bytes
  /-- Once it has started: the bytes of its inputs, and the status and input of a failed check (R531, R532). -/
  ins : List Bytes
  /-- Status and input of a failed check (R531, R532). -/
  fail : Option (Nat × Nat)
  /-- Raw TU count of its start. -/
  startAt : Nat
deriving DecidableEq, Repr

structure Pke where
  powered : Bool
  /-- Input registers IN0 to IN3 that hold data. -/
  regs : Table PkeReg
  /-- Owner of the operand memory: a page, 0x80 the device; none at a start. -/
  owner : Option Nat
  /-- The host job that runs, and those that wait (R526). -/
  running : Option PkeJob
  waiting : List PkeJob
  /-- A device job runs behind the running host job (R526). -/
  device : Bool
  /-- Jobs completed; faults; rejected operands (R537). -/
  completed : Nat
  faults : Nat
  rejects : Nat
  /-- Ticks without a job. -/
  idle : Nat
deriving DecidableEq, Repr

def Pke.init : Pke where
  powered := false
  regs := []
  owner := none
  running := none
  waiting := []
  device := false
  completed := 0
  faults := 0
  rejects := 0
  idle := 0

/-! ### Tamper (chapter 17) -/

/-- A log entry (R549). -/
structure TampEntry where
  w0 : Word
  w1 : Word
  rtc : Word
  seq : Word
deriving DecidableEq, Repr

/-- A first decision that waits for the second one (R547): source, detectors, response, and whether a detector
failed its self-test (R542). -/
structure Decision where
  source : Nat
  detectors : Nat
  response : Nat
  selfTest : Bool
  /-- The detection fell in DORMANT or while DORMANT was being entered (R114). -/
  asleep : Bool
  /-- Raw TU count from which the second decision falls, behind its random delay (R547). -/
  due : Nat
deriving DecidableEq, Repr

/-- TAMP_UNLOCK that runs (R552): page, tag, message, flags at pick-up, and whether a source has fired
since. -/
structure Unlock where
  page : Nat
  tag : Nat
  flags : Nat
  /-- What checks 4 and 5 found at pick-up: a status, ST_OK where they passed. -/
  verdict : Nat
  /-- A source has fired since (R552). -/
  fired : Bool
  /-- Raw TU count from which the second decision falls (R547). -/
  due : Nat
deriving DecidableEq, Repr

structure Tamp where
  /-- Always-on: sticky flags, responses set (2 bits a source), log entries newest first at most 32,
  sequence number and RTC of the newest, erase since the last unlock. -/
  sticky : BitVec 12
  set : BitVec 24
  log : List TampEntry
  seq : Word
  lastRtc : Word
  erased : Bool
  /-- Always-on: the lock state that step 3 of R94 reads: set with LOCKED, cleared by an unlock that passes. -/
  lock : Bool
  /-- Entries made since the always-on domain started from no power are provisional. -/
  provisional : Bool
  /-- Flash: ring of entries newest first at most 4,096, copy of the responses. -/
  ring : List TampEntry
  copy : BitVec 24
  /-- The responses are the OTP minimums only (R543). -/
  minOnly : Bool
  /-- Sources whose condition holds (R545). -/
  active : BitVec 12
  /-- TAMP_EVENT. -/
  fired : BitVec 12
  disagree : Bool
  /-- Outstanding nonce. -/
  nonce : Option Bytes
  /-- Raw TU count at which the nonce was given. -/
  nonceAt : Nat
  /-- Second decisions that are due (R547). -/
  decisions : List Decision
  /-- Entries whose EVT_TAMPER waits for the next mode entry. -/
  later : List TampEntry
  /-- The unlock that waits for its second decision (R552). -/
  unlock : Option Unlock
deriving DecidableEq, Repr

/-- Every source with the response LOG (R544). DESIGN CHOICE (log 55). -/
def Tamp.init : Tamp where
  sticky := 0
  set := 0x555555#24
  log := []
  seq := 0
  lastRtc := 0
  erased := false
  lock := false
  provisional := false
  ring := []
  copy := 0x555555#24
  minOnly := false
  active := 0
  fired := 0
  disagree := false
  nonce := none
  nonceAt := 0
  decisions := []
  later := []
  unlock := none

/-! ### Firmware (chapter 18) -/

/-- What the manifest and the hashes of an image say (R566, R567). -/
structure Image where
  version : Word
  sec : Nat
  floor : Nat
  revoke : Nat
  signer : Bytes
  meas : Bytes
  /-- Bytes of the image with its manifest. -/
  len : Nat
deriving DecidableEq, Repr

def Image.init : Image where
  version := 0
  sec := 0
  floor := 0
  revoke := 0
  signer := []
  meas := []
  len := 0

/-- One copy of the slot control record (R565): sequence number, update state, probation ticks, validity and V of the
recall slot, CRC-32. -/
structure CtlRecord where
  seq : Nat
  state : Nat
  probation : Nat
  recallValid : Bool
  recallSec : Nat
  crc : Nat
deriving DecidableEq, Repr

/-- FW_UPDATE that runs (R570, R571, R580): page, tag, the image, what its checks in secure scratch find (ST_OK
where all pass), AUTO, probation seconds. -/
structure Update where
  page : Nat
  tag : Nat
  image : Image
  verdict : Nat
  auto : Bool
  secs : Nat
deriving DecidableEq, Repr

structure Fw where
  /-- NCS_GET_INFO words 1 and 2: version and V of the running image. -/
  runVersion : Word
  runSec : Word
  /-- Measurements of the loader, the running image and its signer. -/
  loaderMeas : Bytes
  imageMeas : Bytes
  signerMeas : Bytes
  /-- Control record (R565, R569): state code, probation ticks left, recall valid. -/
  state : Nat
  left : Nat
  recallValid : Bool
  /-- The two copies of that record in flash, and the tick in which the state was entered. -/
  copies : Table CtlRecord
  stateAt : Nat
  /-- Image slot with whether it holds a whole image; recall slot; running image. -/
  image : Image
  whole : Bool
  recallImg : Image
  running : Image
  /-- The FW_UPDATE that runs (R569). -/
  update : Option Update
  /-- AUTO of the image in probation, and its ticks so far. -/
  auto : Bool
  ran : Nat
  /-- Outcome that the state left at a start reports after the mode entry (R576). -/
  report : Option Nat
  /-- Probations confirmed (R573, R574). -/
  confirmed : Nat
deriving DecidableEq, Repr

def Fw.init : Fw where
  runVersion := 0
  runSec := 0
  loaderMeas := []
  imageMeas := []
  signerMeas := []
  state := 0
  left := 0
  recallValid := false
  copies := []
  stateAt := 0
  image := Image.init
  whole := true
  recallImg := Image.init
  running := Image.init
  update := none
  auto := false
  ran := 0
  report := none
  confirmed := 0

/-! ### Power, clocks, package (chapters 19 and 21) -/

/-- A droop sensor (R591). -/
structure Sensor where
  out : Bool
  trim : Int
  limitTicks : Nat
  offTicks : Nat
deriving DecidableEq, Repr

def Sensor.init : Sensor where
  out := false
  trim := 0
  limitTicks := 0
  offTicks := 0

/-- A sector's power side (R590, R593, R596, R598, R601). -/
structure Sector where
  /-- Sag in mV; curve entries reached (R593); stretch in 1/16. -/
  sag : Nat
  level : Nat
  stretch : Nat
  /-- Raw TU count from which the sag has stayed below the release point of the present entry (R593). -/
  calmAt : Nat
  /-- Largest sag of the last tick (R601). -/
  sagMax : Nat
  /-- Largest sag of the running tick; TU cycles of the running and of the last tick at 2/16 or more. -/
  sagTick : Nat
  belowTick : Nat
  below : Nat
  /-- Loss counter of the sector (R597). -/
  loss : Nat
  /-- Losses of the running tick: frames, and which kind (bit 0 frame mode, bit 1 line mode). -/
  lossTick : Nat
  lossKind : Nat
  /-- The most bytes that the ingress store can hold now, in 1/1,000 byte (R595, R596). -/
  store : Nat
  /-- Core clock time since the start, in 1/411,863,760 of a cycle, so that every stretch divides it (R38, R606). -/
  ccFine : Nat
  /-- Temperature above its warning threshold: junction, stack. -/
  hot : Bool
  hotStack : Bool
deriving DecidableEq, Repr

def Sector.init : Sector where
  sag := 0
  level := 0
  stretch := 0
  calmAt := 0
  sagMax := 0
  sagTick := 0
  belowTick := 0
  below := 0
  loss := 0
  lossTick := 0
  lossKind := 0
  store := 0
  ccFine := 0
  hot := false
  hotStack := false

structure Pwr where
  sectors : Table Sector
  /-- Sensors by sector × 16 + number. -/
  sensors : Table Sensor
  /-- Throttle curve, active and shadow (R592), and an armed commit with the tick of its response (R594). -/
  curve : List Word
  shadow : List Word
  armed : Bool
  armedAt : Nat
  /-- PMU_ interrupt enables and events (R601). -/
  irqEn : BitVec 10
  event : BitVec 10
  /-- Temperatures of the sectors' junctions and stacks, power (R601). -/
  temp0 : Word
  temp1 : Word
  power : Word
  /-- Warning thresholds: junction, stack. -/
  thrJunction : Nat
  thrStack : Nat
  /-- Power-ups since the start by domain, saturating (R603). -/
  ups : Table Nat
  /-- Domains that are powering up, with the raw TU count at which each began; the starts of the last eight, newest first
  (R585). -/
  ramps : Table Nat
  recent : List Nat
  /-- Straps sampled (R629), ALERT_N driven low (R630), JTAG instruction (R644), LREF present. -/
  strap : BitVec 3
  strapNow : BitVec 3
  alert : Bool
  jtag : Nat
  lref : Bool
deriving DecidableEq, Repr

/-- The reset curve of R592. -/
def curveReset : List Word :=
  [0x00140001#32, 0x001E0002#32, 0x00280003#32, 0x00320004#32, 0x003C0005#32, 0x00460006#32, 0x004E0007#32,
   0x00550008#32, 0x00000540#32]

/-- DESIGN CHOICE (log 4). -/
def Pwr.init : Pwr where
  sectors := []
  sensors := []
  curve := curveReset
  shadow := curveReset
  armed := false
  armedAt := 0
  irqEn := 0
  event := 0
  temp0 := 0
  temp1 := 0
  power := 0
  thrJunction := 120
  thrStack := 95
  ups := []
  ramps := []
  recent := []
  strap := 2
  strapNow := 2
  alert := false
  jtag := 0x01
  lref := true

/-! ### Telemetry and DMA (chapter 20) -/

/-- Slot counters of a slice (R606): delivered, wasted, back-blocked; core cycles counted before `since`, and
the sector's cycle count since which it counts (none: it does not). -/
structure SlotCtr where
  delivered : Nat
  wasted : Nat
  blocked : Nat
  counted : Nat
  since : Option Nat
deriving DecidableEq, Repr

def SlotCtr.init : SlotCtr where
  delivered := 0
  wasted := 0
  blocked := 0
  counted := 0
  since := none

/-- A DMA channel (R620). -/
structure DmaChan where
  src : Nat
  dst : Nat
  count : Nat
  ctl : Word
  /-- 0 idle, 1 pending, 2 running. -/
  state : Nat
  /-- Error code; DONE (R617). -/
  err : Nat
  done : Nat
  /-- Address of the next record, and records followed (R616). -/
  link : Nat
  hops : Nat
  /-- Error with which the run under way will end, 0 none. -/
  outcome : Nat
deriving DecidableEq, Repr

def DmaChan.init : DmaChan where
  src := 0
  dst := 0
  count := 0
  ctl := 0x00000400#32
  state := 0
  err := 0
  done := 0
  link := 0
  hops := 0
  outcome := 0

structure Tel where
  slots : Table SlotCtr
  /-- PCF_CTL: SNAP_EN, SNAP_NOW, GLEAN_EN, GLEAN_K, SNAP_N; K and N apply from the next tick (R618). -/
  snapEn : Bool
  snapNow : Bool
  gleanEn : Bool
  gleanK : Nat
  gleanKNow : Nat
  snapN : Nat
  /-- PCF_SECT, events and interrupt enables (R619). -/
  sect : Word
  event : BitVec 4
  irqEn : BitVec 4
  /-- The ring in host memory: address, size, write and read position (R611, R619). -/
  ringLo : Word
  ringHi : Word
  ringSize : Word
  ringWr : Word
  ringRd : Word
  /-- Snapshots and Gleaner records lost (R619). -/
  lostSnaps : Nat
  lostRecords : Nat
  /-- Sequence number of the next snapshot (R611). -/
  seq : Word
  /-- A snapshot is due at the boundary just passed (R611). -/
  due : Bool
  /-- Ticks since the enable or a change of SNAP_N. -/
  ticks : Nat
  /-- A snapshot being written: its bytes. -/
  writing : Option Bytes
  /-- Gleaner records and snapshots lost since the last snapshot written (R611 word 7). -/
  lostR7 : Nat
  lostS7 : Nat
  /-- Finished Gleaner records since the last latch, oldest first. -/
  records : List (List Word)
  /-- Frames that the Gleaner saw at their ingress in the running tick and in the last one: the load. -/
  loadTick : Nat
  loadLast : Nat
  /-- Snapshots lost in the running period, cause of the last loss, tick of the last EVT_TEL_SNAP_LOST. -/
  lostPeriod : Nat
  lostCause : Nat
  lostEvt : Option Nat
  /-- DMA channels, their events and interrupt enables (R620). -/
  dma : Table DmaChan
  dmaEvent : BitVec 16
  dmaIrqEn : BitVec 16
deriving DecidableEq, Repr

def Tel.init : Tel where
  slots := []
  snapEn := false
  snapNow := false
  gleanEn := true
  gleanK := 12
  gleanKNow := 12
  snapN := 1000
  sect := 0x0000031E#32
  event := 0
  irqEn := 0
  ringLo := 0
  ringHi := 0
  ringSize := 0x00010000#32
  ringWr := 0
  ringRd := 0
  lostSnaps := 0
  lostRecords := 0
  seq := 0
  due := false
  ticks := 0
  writing := none
  lostR7 := 0
  lostS7 := 0
  records := []
  loadTick := 0
  loadLast := 0
  lostPeriod := 0
  lostCause := 0
  lostEvt := none
  dma := []
  dmaEvent := 0
  dmaIrqEn := 0

/-! ### The whole -/

/-- What is fixed in manufacture or burned in OTP; it only moves forward (R1, R14). -/
structure Otp where
  variant : Variant
  life : Life
  /-- Device identity and attestation secret (R502, R512), [] before provisioning. -/
  identity : Bytes
  attest : Bytes
  /-- SHA-384 of the two OWNER public keys (R512). -/
  ownerHash : Bytes
  /-- Set bits of the counter field (R504). -/
  h : Nat
  /-- SHA-384 of the provisioning message whose OTP writes have begun (R511). -/
  provBegun : Bytes
  /-- Burned anti-rollback bits F and revoked signer entries (R567, R568). -/
  floor : Nat
  revoked : BitVec 4
  /-- Retired channels (R362). -/
  retired : List Nat
  /-- Tamper sources disabled by fuse, and minimum responses (R543). -/
  fused : BitVec 12
  minimum : BitVec 24
deriving DecidableEq, Repr

/-- DESIGN CHOICE (log 4). DESIGN CHOICE (log 55). -/
def Otp.init : Otp where
  variant := .bv128
  life := .blank
  identity := []
  attest := []
  ownerHash := []
  h := 0
  provBegun := []
  floor := 0
  revoked := 0
  retired := []
  fused := 0
  minimum := 0x555555#24

/-- Everything of the device outside OTP and the Granary's addressed windows. -/
structure Dev where
  sys : Sys
  sb : SignalBox
  fm : Fm
  ln : Lanes
  lm : Lm
  kc : Kc
  ks : Ks
  sl : Slices
  dsp : Dsp
  grn : Grn
  pth : Paths
  sch : Sch
  tu : Tu
  pke : Pke
  tamp : Tamp
  fw : Fw
  pwr : Pwr
  tel : Tel
  /-- What has left the device, oldest first (the model's own field). -/
  outs : List Output
  /-- How many free values have been drawn (the model's own field). -/
  free : Nat
deriving DecidableEq, Repr

/-- DESIGN CHOICE (log 5). -/
def Dev.init : Dev where
  sys := Sys.init
  sb := SignalBox.init
  fm := Fm.init
  ln := Lanes.init
  lm := Lm.init
  kc := Kc.init
  ks := Ks.init
  sl := Slices.init
  dsp := Dsp.init
  grn := Grn.init
  pth := Paths.init
  sch := Sch.init
  tu := Tu.init
  pke := Pke.init
  tamp := Tamp.init
  fw := Fw.init
  pwr := Pwr.init
  tel := Tel.init
  outs := []
  free := 0

/-- The state of the block and the commands that wait, first in first out. DESIGN CHOICE (log 60). -/
structure State where
  otp : Otp
  /-- Granary window bytes by window address (R354), canonical: rising, no listed zero. -/
  ram : List Host.Cell
  dev : Dev
  pending : List Instr
deriving DecidableEq, Repr

/-- The device right after a device reset, before its start sequence runs (R94, R98). DESIGN CHOICE (log 4). -/
def State.reset : State where
  otp := Otp.init
  ram := []
  dev := Dev.init
  pending := []

end Sys2Proof.Machine
end

