-- ==== Sys2Proof/Machine/Operands.lean ====
section
/-!
DEFINITION. How commands are read: bit fields of words (R18, R19), sparse tables, byte strings, the words
and fields of an NCS request (R49), host-buffer references (R51).
-/
namespace Sys2Proof.Machine

/-! Sparse tables. -/

/-- The row of number k, if it is listed. -/
def tget {α : Type} : Table α → Nat → Option α
  | [], _ => none
  | (i, a) :: t, k => if i = k then some a else if k < i then none else tget t k

/-- The row of number k, or the default. -/
def tgetD {α : Type} (t : Table α) (k : Nat) (d : α) : α := (tget t k).getD d

/-- Put a row at number k; numbers stay strictly rising. -/
def tset {α : Type} : Table α → Nat → α → Table α
  | [], k, a => [(k, a)]
  | (i, b) :: t, k, a =>
    if k < i then (k, a) :: (i, b) :: t
    else if i = k then (k, a) :: t
    else (i, b) :: tset t k a

/-- Take the row of number k out. -/
def tdel {α : Type} (t : Table α) (k : Nat) : Table α := t.filter (fun p => p.1 != k)

/-- Change the row of number k, if it is listed. -/
def tmod {α : Type} (t : Table α) (k : Nat) (f : α → α) : Table α :=
  match tget t k with
  | some a => tset t k (f a)
  | none => t

/-- The lowest number from `lo` on, below `hi`, that satisfies `p`. -/
def firstNat (lo hi : Nat) (p : Nat → Bool) : Option Nat :=
  ((List.range (hi - lo)).map (· + lo)).find? p

/-! Fields. -/

/-- Bits hi down to lo of a word. -/
def fld (w : Word) (hi lo : Nat) : Nat := (w.toNat / 2 ^ lo) % 2 ^ (hi + 1 - lo)

/-- Bit i of a word. -/
def bit (w : Word) (i : Nat) : Bool := w.getLsbD i

/-- A number as a word. -/
def wd (n : Nat) : Word := BitVec.ofNat 32 n

/-- A flag as a bit at place i. -/
def flag (b : Bool) (i : Nat) : Nat := if b then 2 ^ i else 0

/-- Low and high word of a 64-bit count. -/
def lo32 (n : Nat) : Word := wd (n % 2 ^ 32)
def hi32 (n : Nat) : Word := wd (n / 2 ^ 32)

/-- A 64-bit counter as two words, low word first. -/
def two (n : BitVec 64) : List Word := [lo32 n.toNat, hi32 n.toNat]

/-- Saturating increment of a count of w bits. -/
def satInc (w n : Nat) : Nat := min (n + 1) (2 ^ w - 1)

/-- A signed number in the low w bits. -/
def toSigned (w n : Nat) : Int := if n % 2 ^ w < 2 ^ (w - 1) then (n % 2 ^ w : Int) else (n % 2 ^ w : Int) - 2 ^ w

/-- Two's complement in w bits. -/
def ofSigned (w : Nat) (i : Int) : Nat := (i % (2 ^ w : Int)).toNat

/-! Bytes. -/

/-- n bytes of a number, the most significant first (the wire, R18). -/
def beBytes : Nat → Nat → Bytes
  | 0, _ => []
  | n + 1, v => BitVec.ofNat 8 (v / 2 ^ (8 * n)) :: beBytes n v

/-- n bytes of a number, the least significant first (host structures, R18). -/
def leBytes : Nat → Nat → Bytes
  | 0, _ => []
  | n + 1, v => BitVec.ofNat 8 v :: leBytes n (v / 256)

/-- The number in a byte string, most significant byte first. -/
def beNat (b : Bytes) : Nat := b.foldl (fun a x => a * 256 + x.toNat) 0

/-- The number in a byte string, least significant byte first. -/
def leNat (b : Bytes) : Nat := b.foldr (fun x a => a * 256 + x.toNat) 0

/-- Bytes o to o + n - 1. -/
def slice (b : Bytes) (o n : Nat) : Bytes := (b.drop o).take n

/-- Big-endian field of n bytes at o. -/
def beAt (b : Bytes) (o n : Nat) : Nat := beNat (slice b o n)

/-- Little-endian field of n bytes at o. -/
def leAt (b : Bytes) (o n : Nat) : Nat := leNat (slice b o n)

/-- n zero bytes. -/
def zeros (n : Nat) : Bytes := List.replicate n 0

/-- Words as bytes, little-endian. -/
def wordBytes (ws : List Word) : Bytes := ws.flatMap (fun w => leBytes 4 w.toNat)

/-- Bytes as words, little-endian, the last padded with zeros; n words. -/
def bytesWords (n : Nat) (b : Bytes) : List Word := (List.range n).map (fun i => wd (leAt b (4 * i) 4))

/-- Bytes as words with byte 0 in [31:24], the last padded with zeros. -/
def beWords : Bytes → List Word
  | a :: b :: c :: e :: t => wd (beNat [a, b, c, e]) :: beWords t
  | [] => []
  | [a] => [wd (beNat [a, 0, 0, 0])]
  | [a, b] => [wd (beNat [a, b, 0, 0])]
  | [a, b, c] => [wd (beNat [a, b, c, 0])]

/-- ASCII bytes of a label. -/
def ascii (s : String) : Bytes := s.toList.map (fun c => BitVec.ofNat 8 c.toNat)

/-- Bytewise XOR of two strings of one length. -/
def xorBytes (a b : Bytes) : Bytes := List.zipWith (fun x y => x ^^^ y) a b

/-! Requests. -/

/-- Bytes of a payload whose word i holds byte 0 in [31:24], n of them. -/
def payloadBytes (r : NcsReq) (i n : Nat) : Bytes := ((r.payload.drop i).flatMap (fun w => beBytes 4 w.toNat)).take n

/-- Payload word i (0 where the request is shorter). -/
def rw (r : NcsReq) (i : Nat) : Word := r.payload.getD i 0

/-- Field of payload word i. -/
def rf (r : NcsReq) (i hi lo : Nat) : Nat := fld (rw r i) hi lo

/-- The first payload word that fails its check, as the index ST_BAD_FIELD reports (R55, R56 step 9).
DEDUCED (log 13). -/
def firstBad : List (Nat × Bool) → Option Nat
  | [] => none
  | (i, ok) :: t => if ok then firstBad t else some i

/-- Buffer reference at payload words i to i + 2 (R51): 64-byte aligned, at most 16 MiB. -/
def bufAddr (r : NcsReq) (i : Nat) : Nat := (rw r i).toNat + 2 ^ 32 * (rw r (i + 1)).toNat
def bufLen (r : NcsReq) (i : Nat) : Nat := (rw r (i + 2)).toNat
def bufBad (r : NcsReq) (i : Nat) : List (Nat × Bool) :=
  [(i, decide (bufAddr r i % 64 = 0)), (i + 2, decide (bufLen r i ≤ 2 ^ 24))]

/-! Quantities of the variant (R1). -/

/-- Sectors. -/
def sectors (o : Otp) : Nat := match o.variant with | .bv128 => 4 | .bv064 => 2 | .bv032 => 1

/-- Lanes per side. -/
def lanes (o : Otp) : Nat := 16 * sectors o

/-- Slices, Sidings included. -/
def slices (o : Otp) : Nat := 36 * sectors o

/-- Live SAs at most. -/
def saMax (o : Otp) : Nat := 262144 * sectors o

/-- Path pairs at most. -/
def pairsMax (o : Otp) : Nat := 8 * sectors o

/-- Granary channels. -/
def channels (o : Otp) : Nat := 16 * sectors o

end Sys2Proof.Machine
end

