-- ==== Sys2Proof/Machine/Crypto.lean ====
section
/-!
DEFINITION. The symmetric algorithms that the spec names by their standards, as computable functions: AES (FIPS 197), GHASH
and GCM (SP 800-38D), the bulk modes of R258 (SP 800-38A), SHA-384 and HMAC (FIPS 180-4, FIPS 198-1), the KDF of R285
(SP 800-108) and the CTR_DRBG of R246 (SP 800-90A). PRESUMED (log 61): the bodies are those of the standards the spec cites.
-/
namespace Sys2Proof.Machine

/-! AES with a 128-bit or a 256-bit key. The state is 16 bytes, column by column. -/

/-- The S-box of AES (FIPS 197). Row x / 16, byte x % 16 from the right. -/
def sboxRows : List Nat :=
  [0x76ABD7FE2B670130C56F6BF27B777C63, 0xC072A49CAFA2D4ADF04759FA7DC982CA]
  ++ [0x1531D871F1E5A534CCF73F362693FDB7, 0x75B227EBE28012079A059618C323C704]
  ++ [0x842FE329B3D63B52A05A6E1B1A2C8309, 0xCF584C4A39BECB6A5BB1FC20ED00D153]
  ++ [0xA89F3C507F02F94585334D43FBAAEFD0, 0xD2F3FF1021DAB6BCF5389D928F40A351]
  ++ [0x73195D643D7EA7C41744975FEC130CCD, 0xDB0B5EDE14B8EE4688902A22DC4F8160]
  ++ [0x79E4959162ACD3C25C2406490A3A32E0, 0x08AE7A65EAF4566CA94ED58D6D37C8E7]
  ++ [0x8A8BBD4B1F74DDE8C6B4A61C2E2578BA, 0x9E1DC186B95735610EF6034866B53E70]
  ++ [0xDF2855CEE9871E9B948ED9691198F8E1, 0x16BB54B00F2D99416842E6BF0D89A18C]

/-- The inverse S-box of AES (FIPS 197). Row x / 16, byte x % 16 from the right. -/
def invSboxRows : List Nat :=
  [0xFBD7F3819EA340BF38A53630D56A0952, 0xCBE9DEC444438E3487FF2F9B8239E37C]
  ++ [0x4EC3FA420B954CEE3D23C2A632947B54, 0x25D18B6D49A25B76B224D92866A12E08]
  ++ [0x92B6655DCC5CA4D41698688664F6F872, 0x849D8DA75746155EDAB9EDFD5048706C]
  ++ [0x0645B3B80558E4F70AD3BC8C00ABD890, 0x6B8A130103BDAFC1020F3FCA8F1E2CD0]
  ++ [0x73E6B4F0CECFF297EADC674F4111913A, 0x6EDF751CE837F9E28535ADE72274AC96]
  ++ [0x1BBE18AA0E62B76F89C5291D711AF147, 0xF45ACD78FEC0DB9A2079D2C64B3E56FC]
  ++ [0x5FEC8027591012B131C7078833A8DD1F, 0xEF9CC9939F7AE52D0D4AB519A97F5160]
  ++ [0x619953833CBBEBC8B0F52AAE4D3BE0A0, 0x7D0C2155631469E126D677BA7E042B17]

/-- SubBytes of one byte, or its inverse. -/
def subByte (rows : List Nat) (b : Byte) : Byte :=
  BitVec.ofNat 8 (rows.getD (b.toNat / 16) 0 / 2 ^ (8 * (b.toNat % 16)))

/-- Multiplication by x in the field of AES. -/
def xtime (b : Byte) : Byte := (b <<< 1) ^^^ (if b.msb then 0x1B#8 else 0#8)

/-- MixColumns over the columns of a state. -/
def mixColumns : Bytes → Bytes
  | a :: b :: c :: d :: t =>
    let s := a ^^^ b ^^^ c ^^^ d
    (a ^^^ s ^^^ xtime (a ^^^ b)) :: (b ^^^ s ^^^ xtime (b ^^^ c)) :: (c ^^^ s ^^^ xtime (c ^^^ d))
      :: (d ^^^ s ^^^ xtime (d ^^^ a)) :: mixColumns t
  | _ => []

/-- InvMixColumns: a further multiplication of every column before MixColumns. -/
def invMixPrepare : Bytes → Bytes
  | a :: b :: c :: d :: t =>
    let u := xtime (xtime (a ^^^ c))
    let v := xtime (xtime (b ^^^ d))
    (a ^^^ u) :: (b ^^^ v) :: (c ^^^ u) :: (d ^^^ v) :: invMixPrepare t
  | _ => []

def invMixColumns (s : Bytes) : Bytes := mixColumns (invMixPrepare s)

/-- ShiftRows and its inverse: from which byte of the state each byte comes. -/
def shiftRows (s : Bytes) : Bytes := (List.range 16).map (fun i => s.getD ((i + 4 * (i % 4)) % 16) 0)
def invShiftRows (s : Bytes) : Bytes := (List.range 16).map (fun i => s.getD ((i + 12 * (i % 4)) % 16) 0)

/-- The round constant of the key expansion. -/
def rcon : Nat → Byte
  | 0 => 0x8D#8
  | i + 1 => xtime (rcon i)

/-- The words of the key expansion, newest first: n more behind those that stand. -/
def expandWords (nk : Nat) : Nat → List Bytes → List Bytes
  | 0, ws => ws
  | n + 1, ws =>
    let i := ws.length
    let last := ws.headD []
    let t := if i % nk = 0 then
        xorBytes ((last.drop 1 ++ last.take 1).map (subByte sboxRows)) [rcon (i / nk), 0, 0, 0]
      else if nk > 6 && i % nk = 4 then last.map (subByte sboxRows)
      else last
    expandWords nk n (xorBytes (ws.getD (nk - 1) []) t :: ws)

/-- The round keys of a key of 16 or 32 bytes: 11 or 15 of 16 bytes. -/
def roundKeys (key : Bytes) : List Bytes :=
  let nk := key.length / 4
  let ws := expandWords nk (4 * (nk + 7) - nk) ((List.range nk).map (fun i => slice key (4 * i) 4)).reverse
  (List.range (nk + 7)).map (fun r => ((ws.reverse.drop (4 * r)).take 4).flatten)

/-- The cipher over a state, under round keys. -/
def aesRounds (rks : List Bytes) (s : Bytes) : Bytes :=
  match rks with
  | [] => s
  | k0 :: rest =>
    let mid := rest.dropLast.foldl (fun s k => xorBytes (mixColumns (shiftRows (s.map (subByte sboxRows)))) k) (xorBytes s k0)
    xorBytes (shiftRows (mid.map (subByte sboxRows))) (rest.getLastD [])

/-- The inverse cipher. -/
def aesInvRounds (rks : List Bytes) (s : Bytes) : Bytes :=
  match rks.reverse with
  | [] => s
  | k0 :: rest =>
    let back := fun (s : Bytes) => (invShiftRows s).map (subByte invSboxRows)
    let mid := rest.dropLast.foldl (fun s k => invMixColumns (xorBytes (back s) k)) (xorBytes s k0)
    xorBytes (back mid) (rest.getLastD [])

/-- A block of the cipher is a 128-bit number, its first byte the most significant. -/
abbrev Block := BitVec 128

/-- The block in a byte string. -/
def toBlock (b : Bytes) : Block := BitVec.ofNat 128 (beNat b)

/-- The 16 bytes of a block. -/
def blockBytes (x : Block) : Bytes := beBytes 16 x.toNat

/-- The cipher and the inverse cipher over one block. -/
def aesBlock (rks : List Bytes) (x : Block) : Block := toBlock (aesRounds rks (blockBytes x))
def aesInvBlock (rks : List Bytes) (x : Block) : Block := toBlock (aesInvRounds rks (blockBytes x))

/-- The cipher over 16 bytes. -/
def aes (key block : Bytes) : Bytes := blockBytes (aesBlock (roundKeys key) (toBlock block))

/-- A byte string as n blocks, the last one filled up with zero bytes. -/
def blocksOf : Nat → Bytes → List Block
  | 0, _ => []
  | n + 1, b => toBlock (b.take 16 ++ zeros (16 - (b.take 16).length)) :: blocksOf n (b.drop 16)

/-- Blocks that hold n bytes. -/
def blockCount (n : Nat) : Nat := (n + 15) / 16

/-! GHASH and GCM. -/

/-- Multiplication in the field of GHASH: bit i of x from the left takes y × X^i in. -/
def gcmMul (x y : Block) : Block :=
  ((List.range 128).foldl (fun (a : Block × Block) i =>
    (if x.getLsbD (127 - i) then a.1 ^^^ a.2 else a.1,
     (a.2 >>> 1) ^^^ (if a.2.getLsbD 0 then 0xE1000000000000000000000000000000#128 else 0#128))) (0#128, y)).1

/-- GHASH of blocks under a hash subkey. -/
def ghashBlocks (h : Block) (bs : List Block) : Block := bs.foldl (fun a b => gcmMul (a ^^^ b) h) 0#128

/-- GHASH of a byte string whose length is a multiple of 16. -/
def ghash (h data : Bytes) : Bytes := blockBytes (ghashBlocks (toBlock h) (blocksOf (blockCount data.length) data))

/-- The key stream of counter blocks c, c + 1, …: the whole block counts modulo 2^w, its upper bits stay. -/
def counterStream (rks : List Bytes) (w : Nat) (c : Block) (n : Nat) : Bytes :=
  (List.range n).flatMap (fun i =>
    blockBytes (aesBlock rks (BitVec.ofNat 128 (c.toNat / 2 ^ w * 2 ^ w + (c.toNat + i) % 2 ^ w))))

/-- The counter mode of GCM with a 96-bit IV: text XOR the key stream from counter 2 on. -/
def gcmCtr (key nonce text : Bytes) : Bytes :=
  xorBytes text (counterStream (roundKeys key) 32 (toBlock (nonce ++ beBytes 4 2)) (blockCount text.length))

/-- The ciphertext of a plaintext under GCM. The additional data only enters the tag. PRESUMED (log 61). -/
def gcmSeal (key nonce _aad plain : Bytes) : Bytes := gcmCtr key nonce plain

/-- The plaintext of a ciphertext under GCM. PRESUMED (log 61). -/
def gcmOpen (key nonce _aad cipher : Bytes) : Bytes := gcmCtr key nonce cipher

/-- The hash subkey H = AES(K, 0^128) (R240). -/
def hashKey (key : Bytes) : Block := aesBlock (roundKeys key) 0#128

/-- The length block, and the pre-counter block whose cipher masks the tag. -/
def lengthBlock (aadLen textLen : Nat) : Block := toBlock (beBytes 8 (8 * aadLen) ++ beBytes 8 (8 * textLen))
def tagMask (key nonce : Bytes) : Block := aesBlock (roundKeys key) (toBlock (nonce ++ beBytes 4 1))

/-- The 128-bit tag under a hash subkey: GHASH over additional data, ciphertext and length block, masked
(R239, R242). -/
def gcmTagH (h : Block) (key nonce aad cipher : Bytes) : Bytes :=
  blockBytes (ghashBlocks h (blocksOf (blockCount aad.length) aad ++ blocksOf (blockCount cipher.length) cipher
    ++ [lengthBlock aad.length cipher.length]) ^^^ tagMask key nonce)

/-- The tag under the key's own hash subkey. PRESUMED (log 61). -/
def gcmTag (key nonce aad cipher : Bytes) : Bytes := gcmTagH (hashKey key) key nonce aad cipher

/-- n powers of a hash subkey from p on (R240). -/
def powersFrom (h : Block) : Nat → Block → List Block
  | 0, _ => []
  | n + 1, p => p :: powersFrom h n (gcmMul p h)

/-- A part of a GCM text from block k on: its result, and the GHASH accumulator after its ciphertext. -/
def gcmPart (key nonce : Bytes) (encrypt : Bool) (k : Nat) (acc : Block) (text : Bytes) : Bytes × Block :=
  let n := blockCount text.length
  let got := xorBytes text (counterStream (roundKeys key) 32 (toBlock (nonce ++ beBytes 4 (k + 2))) n)
  (got, (blocksOf n (if encrypt then got else text)).foldl (fun a b => gcmMul (a ^^^ b) (hashKey key)) acc)

/-- The tag from the accumulator after additional data and ciphertext. -/
def gcmFinish (key nonce : Bytes) (acc : Block) (aadLen textLen : Nat) : Bytes :=
  blockBytes (gcmMul (acc ^^^ lengthBlock aadLen textLen) (hashKey key) ^^^ tagMask key nonce)

/-! The bulk modes of R258. -/

/-- CTR with a 128-bit big-endian counter, incremented modulo 2^128. -/
def ctrMode (key iv text : Bytes) : Bytes :=
  xorBytes text (counterStream (roundKeys key) 128 (toBlock iv) (blockCount text.length))

/-- CBC over blocks, with the chaining value. -/
def cbcSeal (rks : List Bytes) : Block → List Block → Bytes
  | _, [] => []
  | v, b :: t => let c := aesBlock rks (b ^^^ v); blockBytes c ++ cbcSeal rks c t
def cbcOpen (rks : List Bytes) : Block → List Block → Bytes
  | _, [] => []
  | v, c :: t => blockBytes (aesInvBlock rks c ^^^ v) ++ cbcOpen rks c t

/-- CFB with full-block feedback; the fuel is the number of blocks, the last one may be partial. -/
def cfbSeal (rks : List Bytes) : Nat → Block → Bytes → Bytes
  | 0, _, _ => []
  | n + 1, v, b => let c := xorBytes (b.take 16) (blockBytes (aesBlock rks v)); c ++ cfbSeal rks n (toBlock c) (b.drop 16)
def cfbOpen (rks : List Bytes) : Nat → Block → Bytes → Bytes
  | 0, _, _ => []
  | n + 1, v, b =>
    xorBytes (b.take 16) (blockBytes (aesBlock rks v)) ++ cfbOpen rks n (toBlock (b.take 16)) (b.drop 16)

/-- CTR, CBC and CFB-128 by the mode code of R264. PRESUMED (log 61). -/
def bulkCipher (mode : Nat) (encrypt : Bool) (key iv text : Bytes) : Bytes :=
  let n := blockCount text.length
  match mode with
  | 1 => ctrMode key iv text
  | 2 => if encrypt then cbcSeal (roundKeys key) (toBlock iv) (blocksOf n text)
    else cbcOpen (roundKeys key) (toBlock iv) (blocksOf n text)
  | _ => if encrypt then cfbSeal (roundKeys key) n (toBlock iv) text else cfbOpen (roundKeys key) n (toBlock iv) text

/-- The chaining value with which a job that follows goes on (R264): the last ciphertext block, or the counter block past
those processed. -/
def bulkChain (mode : Nat) (encrypt : Bool) (iv text done : Bytes) : Bytes :=
  let c := if encrypt then done else text
  if mode = 1 then blockBytes (toBlock iv + BitVec.ofNat 128 (blockCount text.length))
  else if c.length < 16 then iv
  else c.drop (c.length - 16)

/-! SHA-384 and HMAC. -/

/-- The 80 constants of SHA-512 and SHA-384 (FIPS 180-4). -/
def sha512Consts : List Nat :=
  [0x428A2F98D728AE22, 0x7137449123EF65CD, 0xB5C0FBCFEC4D3B2F, 0xE9B5DBA58189DBBC]
  ++ [0x3956C25BF348B538, 0x59F111F1B605D019, 0x923F82A4AF194F9B, 0xAB1C5ED5DA6D8118]
  ++ [0xD807AA98A3030242, 0x12835B0145706FBE, 0x243185BE4EE4B28C, 0x550C7DC3D5FFB4E2]
  ++ [0x72BE5D74F27B896F, 0x80DEB1FE3B1696B1, 0x9BDC06A725C71235, 0xC19BF174CF692694]
  ++ [0xE49B69C19EF14AD2, 0xEFBE4786384F25E3, 0x0FC19DC68B8CD5B5, 0x240CA1CC77AC9C65]
  ++ [0x2DE92C6F592B0275, 0x4A7484AA6EA6E483, 0x5CB0A9DCBD41FBD4, 0x76F988DA831153B5]
  ++ [0x983E5152EE66DFAB, 0xA831C66D2DB43210, 0xB00327C898FB213F, 0xBF597FC7BEEF0EE4]
  ++ [0xC6E00BF33DA88FC2, 0xD5A79147930AA725, 0x06CA6351E003826F, 0x142929670A0E6E70]
  ++ [0x27B70A8546D22FFC, 0x2E1B21385C26C926, 0x4D2C6DFC5AC42AED, 0x53380D139D95B3DF]
  ++ [0x650A73548BAF63DE, 0x766A0ABB3C77B2A8, 0x81C2C92E47EDAEE6, 0x92722C851482353B]
  ++ [0xA2BFE8A14CF10364, 0xA81A664BBC423001, 0xC24B8B70D0F89791, 0xC76C51A30654BE30]
  ++ [0xD192E819D6EF5218, 0xD69906245565A910, 0xF40E35855771202A, 0x106AA07032BBD1B8]
  ++ [0x19A4C116B8D2D0C8, 0x1E376C085141AB53, 0x2748774CDF8EEB99, 0x34B0BCB5E19B48A8]
  ++ [0x391C0CB3C5C95A63, 0x4ED8AA4AE3418ACB, 0x5B9CCA4F7763E373, 0x682E6FF3D6B2B8A3]
  ++ [0x748F82EE5DEFB2FC, 0x78A5636F43172F60, 0x84C87814A1F0AB72, 0x8CC702081A6439EC]
  ++ [0x90BEFFFA23631E28, 0xA4506CEBDE82BDE9, 0xBEF9A3F7B2C67915, 0xC67178F2E372532B]
  ++ [0xCA273ECEEA26619C, 0xD186B8C721C0C207, 0xEADA7DD6CDE0EB1E, 0xF57D4F7FEE6ED178]
  ++ [0x06F067AA72176FBA, 0x0A637DC5A2C898A6, 0x113F9804BEF90DAE, 0x1B710B35131C471B]
  ++ [0x28DB77F523047D84, 0x32CAAB7B40C72493, 0x3C9EBE0A15C9BEBC, 0x431D67C49C100D4C]
  ++ [0x4CC5D4BECB3E42B6, 0x597F299CFC657E2A, 0x5FCB6FAB3AD6FAEC, 0x6C44198C4A475817]

/-- The initial hash value of SHA-384 (FIPS 180-4). -/
def sha384Init : List Nat :=
  [0xCBBB9D5DC1059ED8, 0x629A292A367CD507, 0x9159015A3070DD17, 0x152FECD8F70E5939]
  ++ [0x67332667FFC00B31, 0x8EB44A8768581511, 0xDB0C2E0D64F98FA7, 0x47B5481DBEFA4FA4]

/-- The message schedule, newest word first: n more words behind those that stand. -/
def shaSchedule : Nat → List (BitVec 64) → List (BitVec 64)
  | 0, w => w
  | n + 1, w =>
    let a := w.getD 1 0
    let b := w.getD 14 0
    let s1 := a.rotateRight 19 ^^^ a.rotateRight 61 ^^^ (a >>> 6)
    let s0 := b.rotateRight 1 ^^^ b.rotateRight 8 ^^^ (b >>> 7)
    shaSchedule n ((s1 + w.getD 6 0 + s0 + w.getD 15 0) :: w)

/-- One round over the eight working variables. -/
def shaRound (v : List (BitVec 64)) (k w : BitVec 64) : List (BitVec 64) :=
  match v with
  | [a, b, c, d, e, f, g, h] =>
    let s1 := e.rotateRight 14 ^^^ e.rotateRight 18 ^^^ e.rotateRight 41
    let t1 := h + s1 + ((e &&& f) ^^^ (~~~e &&& g)) + k + w
    let s0 := a.rotateRight 28 ^^^ a.rotateRight 34 ^^^ a.rotateRight 39
    let t2 := s0 + ((a &&& b) ^^^ (a &&& c) ^^^ (b &&& c))
    [t1 + t2, a, b, c, d + t1, e, f, g]
  | _ => v

/-- One block of 128 bytes. -/
def shaBlock (h : List (BitVec 64)) (m : Bytes) : List (BitVec 64) :=
  let w0 := (List.range 16).map (fun i => BitVec.ofNat 64 (beAt m (8 * i) 8))
  let ws := (shaSchedule 64 w0.reverse).reverse
  let v := (sha512Consts.zip ws).foldl (fun v kw => shaRound v (BitVec.ofNat 64 kw.1) kw.2) h
  List.zipWith (· + ·) h v

/-- The message with its padding: a 1 bit, zeros, the length in 128 bits. -/
def shaPad (m : Bytes) : Bytes := m ++ [0x80#8] ++ zeros ((239 - m.length % 128) % 128) ++ beBytes 16 (8 * m.length)

/-- SHA-384: 48 bytes. PRESUMED (log 61). -/
def sha384 (m : Bytes) : Bytes :=
  let p := shaPad m
  let h := (List.range (p.length / 128)).foldl (fun h i => shaBlock h (slice p (128 * i) 128)) (sha384Init.map (BitVec.ofNat 64))
  (List.range 6).flatMap (fun i => beBytes 8 (h.getD i 0).toNat)

/-- HMAC-SHA-384: 48 bytes. PRESUMED (log 61). -/
def hmac384 (key m : Bytes) : Bytes :=
  let k := if 128 < key.length then sha384 key else key
  let k := k ++ zeros (128 - k.length)
  sha384 (k.map (· ^^^ 0x5C#8) ++ sha384 (k.map (· ^^^ 0x36#8) ++ m))

/-- The KDF of R285: SP 800-108 in counter mode, HMAC-SHA-384 over a 32-bit counter from 1 and the fixed input; the
leftmost `bits` bits. PRESUMED (log 61). -/
def kdf (key fixed : Bytes) (bits : Nat) : Bytes :=
  ((List.range ((bits + 383) / 384)).flatMap (fun i => hmac384 key (beBytes 4 (i + 1) ++ fixed))).take (bits / 8)

/-! CTR_DRBG with AES-256 and the derivation function (R246; SP 800-90A). -/

/-- BCC of the derivation function. -/
def drbgBcc (rks : List Bytes) (bs : List Block) : Block := bs.foldl (fun a b => aesBlock rks (a ^^^ b)) 0#128

/-- The derivation function: 48 bytes from an input string. -/
def drbgDf (input : Bytes) : Bytes :=
  let s := beBytes 4 input.length ++ beBytes 4 48 ++ input ++ [0x80#8]
  let n := blockCount s.length
  let rks := roundKeys ((List.range 32).map (BitVec.ofNat 8))
  let t := [0, 1, 2].flatMap (fun i => blockBytes (drbgBcc rks (toBlock (beBytes 4 i ++ zeros 12) :: blocksOf n s)))
  let rk2 := roundKeys (t.take 32)
  let x1 := aesBlock rk2 (toBlock (t.drop 32))
  let x2 := aesBlock rk2 x1
  let x3 := aesBlock rk2 x2
  blockBytes x1 ++ blockBytes x2 ++ blockBytes x3

/-- CTR_DRBG_Update with 48 bytes. -/
def DrbgKey.update (x : DrbgKey) (data : Bytes) : DrbgKey :=
  let rks := roundKeys x.key
  let t := xorBytes ([1, 2, 3].flatMap (fun (i : Nat) => blockBytes (aesBlock rks (x.v + BitVec.ofNat 128 i)))) data
  ⟨t.take 32, toBlock (t.drop 32)⟩

/-- Instantiate from entropy and nonce. -/
def DrbgKey.instantiate (seed : Bytes) : DrbgKey := DrbgKey.update ⟨zeros 32, 0#128⟩ (drbgDf seed)

/-- Reseed with entropy. -/
def DrbgKey.reseed (x : DrbgKey) (entropy : Bytes) : DrbgKey := x.update (drbgDf entropy)

/-- One generate request for n bytes. PRESUMED (log 61). -/
def DrbgKey.generate (x : DrbgKey) (n : Nat) : Bytes × DrbgKey :=
  let rks := roundKeys x.key
  let k := blockCount n
  let bytes := (List.range k).flatMap (fun i => blockBytes (aesBlock rks (x.v + BitVec.ofNat 128 (i + 1))))
  (bytes.take n, DrbgKey.update { x with v := x.v + BitVec.ofNat 128 k } (zeros 48))

end Sys2Proof.Machine
end

