-- ==== Sys2Proof/Machine/Flags.lean ====
section
/-!
DEFINITION. Codes and flag words: the shared status codes (R55), the codes of modes and life-cycle states
(R45), NCS_STATE, the PF hardware interrupt sources (R68).
-/
namespace Sys2Proof.Machine

/-! Shared status codes (R55). -/

def stOk : Nat := 0x0000
def stAccepted : Nat := 0x0001
def stBadCode : Nat := 0x0101
def stBadLength : Nat := 0x0102
def stBadField : Nat := 0x0103
def stNotPermitted : Nat := 0x0201
def stWrongMode : Nat := 0x0202
def stBusy : Nat := 0x0301
def stNoResource : Nat := 0x0302
def stAuthFail : Nat := 0x0401
def stCounterStale : Nat := 0x0402
def stInputRange : Nat := 0x0403
def stInputZero : Nat := 0x0404
def stPointInvalid : Nat := 0x0405
def stLocked : Nat := 0x0501
def stHalted : Nat := 0x0502

/-- The MODE field (R45). In DORMANT the windows cannot be reached (R78); the code 0 stands for it. -/
def Mode.code : Mode → Nat
  | .dormant => 0
  | .staging => 1
  | .secure => 2
  | .service => 3
  | .locked => 4
  | .halted => 5

/-- The LIFE field (R45). -/
def Life.code : Life → Nat
  | .blank => 0
  | .provisioned => 1
  | .deployed => 2
  | .retired => 3

/-- MODE as it reads now: its reset value STAGING from a start until the mode entry (R97) and while
DORMANT is being entered (R101). -/
def modeCode (d : Dev) : Nat :=
  match d.sys.phase with
  | .up => d.sys.mode.code
  | _ => 1

/-- SB_UP as bit. -/
def b1 (b : Bool) : Nat := if b then 1 else 0

/-- The row of page p; page windows not listed are at their reset values. -/
def pageOf (d : Dev) (p : Nat) : Page := tgetD d.sb.pages p Page.init

/-- NCS_EXPERT (R44, R59). -/
def expertMask (d : Dev) (p : Nat) : Nat := if p = 0 then 0xFFFF else (pageOf d p).expert.toNat

/-- NCS_INFLIGHT [3:0] (R44). -/
def inflight (d : Dev) (p : Nat) : Nat := (pageOf d p).accepted.length

/-- Ring entries in use, modulo 2^32 (R63). -/
def ringUsed (g : Page) : Nat := (g.tail - g.head).toNat

/-- NCS_STATE of page p (R45). -/
def stateWord (o : Otp) (d : Dev) (p : Nat) : Word :=
  let g := pageOf d p
  wd (flag d.sb.up 31 + modeCode d * 2 ^ 28 + o.life.code * 2 ^ 24 + g.lastTag % 256 * 2 ^ 8
    + flag g.headErr 5 + flag g.sbChg 4 + flag g.evtOvf 3 + flag g.overrun 2 + flag g.respValid 1
    + flag g.reqBusy 0)

/-- An unmasked pending condition of page p (R67, R68 IRQ_PAGE_PEND): RESP_VALID is 1, ring entries are unread, SB_CHG
is set. When a response or an event stops being pending is not stated. DESIGN CHOICE (log 67). -/
def pagePend (d : Dev) (p : Nat) : Bool :=
  let g := pageOf d p
  (g.respValid && !g.maskResp) || (g.tail != g.head && !g.maskEvt) || (g.sbChg && !g.maskSb)

end Sys2Proof.Machine
end

