-- ==== Sys2Proof/Machine/Ops.lean ====
section
/-!
DEFINITION. The shared operations of the block: free values, messages (R67, R68), events (R62 to R66, R649),
responses and accepted commands (R48, R64, R65, R75), and the way a command acts on the state.
-/
namespace Sys2Proof.Machine

/-! The shape of a command's effect. -/

/-- An effect on the device that may read OTP and leaves OTP, the Granary windows and the queue alone. -/
def State.upd (f : Otp → Dev → Dev) (s : State) : State := { s with dev := f s.otp s.dev }

/-- An effect on the device alone, as an outcome of exec. -/
def run (f : Otp → Dev → Dev) (s : State) : Host.Outcome State Fault Refusal := .next (s.upd f)

/-- An effect on the device and on OTP (a burn, R14, R504). -/
def runOtp (f : Otp → Dev → Otp × Dev) (s : State) : Host.Outcome State Fault Refusal :=
  .next { s with otp := (f s.otp s.dev).1, dev := (f s.otp s.dev).2 }

/-! Free values. -/

/-- The next free value of width w, and the device with it drawn. DESIGN CHOICE (log 6). -/
def draw (w : Nat) (d : Dev) : BitVec w × Dev := (Config.freeBits w d.free, { d with free := d.free + 1 })

/-- The next n free bytes. DESIGN CHOICE (log 6). -/
def drawBytes (n : Nat) (d : Dev) : Bytes × Dev :=
  ((List.range n).map (fun i => Config.freeBits 8 (d.free + i)), { d with free := d.free + n })

/-! Random bytes (R246). -/

def drbgOf (line : Bool) (d : Dev) : Drbg := if line then d.sl.lineDrbg else d.sl.keyDrbg

def setDrbg (line : Bool) (x : Drbg) (d : Dev) : Dev :=
  if line then { d with sl := { d.sl with lineDrbg := x } } else { d with sl := { d.sl with keyDrbg := x } }

/-- n bytes of the line instance, or of the key instance: one generate request. DESIGN CHOICE (log 6). -/
def random (line : Bool) (n : Nat) (d : Dev) : Bytes × Dev :=
  if n = 0 then ([], d)
  else
    let x := drbgOf line d
    let r := x.work.generate n
    (r.1, setDrbg line { x with work := r.2, requests := x.requests + 1 } d)

/-- n random bytes of the key instance, which feeds secrets, and of the line instance. -/
def keyBytes (n : Nat) (d : Dev) : Bytes × Dev := random false n d
def lineBytes (n : Nat) (d : Dev) : Bytes × Dev := random true n d

/-! What leaves the device. -/

/-- Record what leaves the device. DESIGN CHOICE (log 10). -/
def out (x : Output) (d : Dev) : Dev := { d with outs := d.outs ++ [x] }

/-! Messages. -/

/-- Put a number into a list of numbers once. -/
def addNat (n : Nat) (l : List Nat) : List Nat := if l.contains n then l else l ++ [n]

/-- Send one message on a vector now, which starts its spacing (R68). -/
def sendNow (v : Nat) (d : Dev) : Dev :=
  out (.msix v) { d with sb := { d.sb with
    spacing := if d.sb.coalesce = 0 then d.sb.spacing else addNat v d.sb.spacing } }

/-- Hold a message pending, at most one per vector (R68). -/
def holdMsg (v : Nat) (d : Dev) : Dev := { d with sb := { d.sb with held := addNat v d.sb.held } }

/-- A message falls due on a vector (R67, R68). DEDUCED (log 14). -/
def raise (v : Nat) (d : Dev) : Dev :=
  if d.sb.irqEnable && !d.sb.spacing.contains v then sendNow v d else holdMsg v d

/-- Change page p. -/
def setPage (p : Nat) (g : Page) (d : Dev) : Dev := { d with sb := { d.sb with pages := tset d.sb.pages p g } }

/-! Events. -/

def evtCmdDone : Nat := 0x0180
def evtSbRestarted : Nat := 0x0181
def evtExpertChanged : Nat := 0x0182

/-- Whether page p suppresses an event: bit n of the mask stands for codes 0x(n+1)xx, and the events of R66
are never suppressed (R86). -/
def suppressed (g : Page) (evt : Nat) : Bool :=
  g.evtMask.getLsbD (evt / 256 - 1) && !(evt == evtCmdDone || evt == evtSbRestarted || evt == evtExpertChanged)

/-- Whether the ring of page g takes an event: EVT_CMD_DONE whenever one entry is free, any other only when
more entries are free than accepted commands run (R64). -/
def ringTakes (g : Page) (evt : Nat) : Bool :=
  let f := 64 - ringUsed g
  if evt = evtCmdDone then decide (1 ≤ f) else decide (g.accepted.length < f)

/-- The page after an event was generated on it: written, or dropped and counted (R63, R64). DEDUCED (log 14). -/
def Page.event (g : Page) (evt tag : Nat) (w2 w3 : Word) : Page :=
  if ringTakes g evt then
    { g with
      ring := tset g.ring (g.tail.toNat % 64) ⟨wd (evt * 2 ^ 16 + tag % 256 * 2 ^ 8), g.seq, w2, w3⟩
      tail := g.tail + 1
      seq := g.seq + 1 }
  else { g with lost := satInc 16 g.lost, evtOvf := true, seq := g.seq + 1 }

/-- Write an event on page p, and the message of R67 when the tail advances. In HALTED no event is written
(R77). -/
def emitTag (p evt tag : Nat) (w2 w3 : Word) (d : Dev) : Dev :=
  let g := pageOf d p
  if d.sys.mode = .halted || suppressed g evt then d
  else
    let d' := setPage p (g.event evt tag w2 w3) d
    if ringTakes g evt && !g.maskEvt then raise p d' else d'

/-- Write an event that is no EVT_CMD_DONE. -/
def emit (p evt : Nat) (w2 w3 : Word) (d : Dev) : Dev := emitTag p evt 0 w2 w3 d

/-- Write an event on every page, page 0 first. -/
def emitAll (evt : Nat) (w2 w3 : Word) (d : Dev) : Dev :=
  (List.range 65).foldl (fun d p => emit p evt w2 w3 d) d

/-- Write an event on each page of a list. -/
def emitOn (ps : List Nat) (evt : Nat) (w2 w3 : Word) (d : Dev) : Dev :=
  ps.foldl (fun d p => emit p evt w2 w3 d) d

/-- Collect an event of R649: the last one for its page, code and object stands. -/
def tickEvent (e : TickEvent) (d : Dev) : Dev :=
  let rest := d.sb.tickEvents.filter (fun x => !(x.page == e.page && x.evt == e.evt && x.obj == e.obj))
  { d with sb := { d.sb with tickEvents := rest ++ [e] } }

/-- Word 2 of a collected event, 0 where none is collected yet. -/
def tickEventW (p evt obj : Nat) (d : Dev) : Word × Word :=
  match d.sb.tickEvents.find? (fun x => x.page == p && x.evt == evt && x.obj == obj) with
  | some e => (e.w2, e.w3)
  | none => (0, 0)

/-- Write the collected events at the tick boundary (R649). DEDUCED (log 14). -/
def flushTickEvents (d : Dev) : Dev :=
  d.sb.tickEvents.foldl (fun d e => emit e.page e.evt e.w2 e.w3 d)
    { d with sb := { d.sb with tickEvents := [] } }

/-! Responses and accepted commands. -/

/-- A whole response record of R50. -/
def respRecord (tag status : Nat) (payload : List Word) : List Word :=
  wd (status * 2 ^ 16 + tag % 256 * 2 ^ 8) :: wd payload.length :: payload

/-- Write the response of a requester: the record, then REQ_BUSY clear and RESP_VALID set, with the message
of R67 where RESP_VALID rises (R48); the SMBus channel has its own record and no message (R79).
DESIGN CHOICE (log 12). -/
def respond (p tag status : Nat) (payload : List Word) (d : Dev) : Dev :=
  if p = 65 then
    { d with sb := { d.sb with
      smbResp := respRecord tag status payload, smbReady := true, smbBusy := false, smbReq := [] } }
  else
    let g := pageOf d p
    let d' := setPage p { g with resp := respRecord tag status payload, reqBusy := false, respValid := true } d
    if !g.respValid && !g.maskResp then raise p d' else d'

/-- Enter a command among the accepted commands of its page (R65). -/
def accept (p tag code : Nat) (d : Dev) : Dev :=
  let g := pageOf d p
  setPage p { g with accepted := g.accepted ++ [⟨tag, code, none⟩] } d

/-- An accepted command ends: its EVT_CMD_DONE is written (R64), or kept for the firmware that comes up
while the Signal box is down (R75). A command whose page window was reset ends in silence (R98). -/
def finish (p tag code status : Nat) (w3 : Word) (d : Dev) : Dev :=
  let g := pageOf d p
  let here := fun (a : Acc) => a.tag == tag && a.code == code
  if g.accepted.any (fun a => here a && a.fin.isNone) then
    if d.sb.up then
      let rest := g.accepted.filter (fun a => !here a)
      emitTag p evtCmdDone tag (wd (code * 2 ^ 16 + status)) w3 (setPage p { g with accepted := rest } d)
    else
      let marked := g.accepted.map (fun a => if here a then { a with fin := some (status, w3) } else a)
      setPage p { g with accepted := marked } d
  else { d with sb := { d.sb with orphans := d.sb.orphans.filter (fun x => x != (p, tag, code)) } }

/-- Set SB_UP to a value on every page; a change sets SB_CHG, with its message (R45, R67). -/
def setSbUp (u : Bool) (d : Dev) : Dev :=
  if d.sb.up = u then d
  else
    (List.range 65).foldl (fun d p =>
      let g := pageOf d p
      let d' := setPage p { g with sbChg := true } d
      if g.maskSb then d' else raise p d') { d with sb := { d.sb with up := u } }

/-- An accepted command of any page runs (R110), one whose page window was reset among them (R98). -/
def anyAccepted (d : Dev) : Bool := d.sb.pages.any (fun p => !p.2.accepted.isEmpty) || !d.sb.orphans.isEmpty

end Sys2Proof.Machine
end

