-- ==== Sys2Proof/Machine/Objects.lean ====
section
/-!
DEFINITION. Objects that several chapters share: lanes and ports (R20 to R22, R468), line-mode lanes, their
alignment and their defects (R190, R192, R217, R218, R220, R221).
-/
namespace Sys2Proof.Machine

/-! Lanes and ports. Side 0 line, 1 client. -/

/-- Key of a lane or port. -/
def lk (side n : Nat) : Nat := side * 64 + n

def laneOf (d : Dev) (k : Nat) : Lane := tgetD d.ln.lanes k Lane.init

def portOf (d : Dev) (k : Nat) : Option Port := tget d.ln.ports k

/-- Key of the port that holds the lane of key k (R21): the configured port whose lanes include it. -/
def portOfLane (d : Dev) (k : Nat) : Option Nat :=
  (d.ln.ports.find? (fun p => decide (p.1 ≤ k) && decide (k < p.1 + p.2.width))).map (·.1)

/-- Lane keys of the port at key k. -/
def portLanes (k : Nat) (p : Port) : List Nat := (List.range p.width).map (k + ·)

/-- Data rate of a lane type in Gb/s (R22). -/
def laneGbps (typ : Nat) : Nat := match typ with | 0 => 200 | 1 => 100 | 2 => 50 | _ => 25

/-- Speed of a port in Gb/s (R22). -/
def portGbps (p : Port) : Nat := laneGbps p.typ * p.width

/-- Sector of a lane or port number (R20). -/
def sectorOf (n : Nat) : Nat := n / 16

/-- A client port is bound in frame mode; a line port is (R117). -/
def clientBound (d : Dev) (c : Nat) : Bool := (tget d.fm.pairs c).isSome
def lineBound (d : Dev) (l : Nat) : Bool := d.fm.pairs.any (fun p => p.2.line == l)

/-- The client port bound to a line port. -/
def clientOfLine (d : Dev) (l : Nat) : Option Nat := (d.fm.pairs.find? (fun p => p.2.line == l)).map (·.1)

/-- A line port is in line mode (R206). -/
def inLineMode (d : Dev) (l : Nat) : Bool := (tget d.lm.ports l).isSome

/-- The line port in line mode that holds a line lane. -/
def lmPortOf (d : Dev) (lane : Nat) : Option Nat :=
  match portOfLane d (lk 0 lane) with
  | some p => if inLineMode d p then some p else none
  | none => none

/-- A lane is a line-mode lane. -/
def isLmLane (d : Dev) (lane : Nat) : Bool := (lmPortOf d lane).isSome

/-- A line port, or a Sheaf, belongs to a path pair (R376). -/
def pathUsesLine (d : Dev) (l : Nat) : Bool :=
  d.pth.pairs.any (fun p => !p.2.line && (p.2.a.carrier == l || p.2.b.carrier == l))
def pathUsesSheaf (d : Dev) (i : Nat) : Bool :=
  d.pth.pairs.any (fun p => p.2.line && (p.2.a.carrier == i || p.2.b.carrier == i))

/-- Lane type of a line lane. -/
def laneType (d : Dev) (lane : Nat) : Nat :=
  match portOfLane d (lk 0 lane) with
  | some p => match portOf d p with | some q => q.typ | none => 0
  | none => 0

/-- Raw TU cycles since the start: ticks and the cycles of the running tick (R648). DESIGN CHOICE (log 2). -/
def rawNow (d : Dev) : Nat := d.sys.ticks * 1750000 + d.sys.sub

/-- Change lane k; a change of its signal detect or of its locks is timed (R216). -/
def setLane (k : Nat) (l : Lane) (d : Dev) : Dev :=
  let old := laneOf d k
  { d with ln := { d.ln with lanes := tset d.ln.lanes k { l with
    signalAt := if l.signal = old.signal then old.signalAt else rawNow d
    lockAt := if l.lock = old.lock then old.lockAt else rawNow d } } }

/-- n frame periods of a lane type have passed since a raw TU count (R160). -/
def periodsSince (d : Dev) (typ n since : Nat) : Bool := decide (since * 25 + n * (14336 * 2 ^ typ) ≤ rawNow d * 25)

/-- Sector n's power side. -/
def powerOf (d : Dev) (n : Nat) : Sector := tgetD d.pwr.sectors n Sector.init

def setPower (n : Nat) (x : Sector) (d : Dev) : Dev := { d with pwr := { d.pwr with sectors := tset d.pwr.sectors n x } }

/-- A power-up of a switched domain is counted (R603). -/
def countUp (n : Nat) (d : Dev) : Dev := { d with pwr := { d.pwr with ups := tset d.pwr.ups n (satInc 16 (tgetD d.pwr.ups n 0)) } }

/-- A device job runs on the PKE: the operand memory changes owner, so it is zeroed (R525), and the domain is
powered, a power-up that R603 counts (R526). Behind a running host job it waits. DEDUCED (log 48). -/
def deviceJob (d : Dev) : Dev :=
  if d.pke.running.isSome then { d with pke := { d.pke with device := true } }
  else
  { d with
    pke := { d.pke with
      powered := true, idle := 0, device := false, regs := if d.pke.owner = some 0x80 then d.pke.regs else [], owner := some 0x80 }
    pwr := if d.pke.powered then d.pwr else (countUp 304 d).pwr }

/-! Line-mode lanes. -/

def lmLane (d : Dev) (lane : Nat) : LmLane := tgetD d.lm.lanes lane LmLane.init

def setLm (lane : Nat) (l : LmLane) (d : Dev) : Dev := { d with lm := { d.lm with lanes := tset d.lm.lanes lane l } }

/-- Every line lane in line mode. -/
def lmLanes (d : Dev) : List Nat :=
  d.lm.ports.flatMap (fun p => match portOf d (lk 0 p.1) with
    | some q => portLanes p.1 q
    | none => [])

/-- The Sheaf a line lane belongs to, with its member index. -/
def sheafOf (d : Dev) (lane : Nat) : Option (Nat × Nat) :=
  match d.lm.sheaves.find? (fun s => s.2.members.contains lane) with
  | some (i, s) => some (i, s.members.idxOf lane)
  | none => none

/-- Signed difference of two frame counters modulo 2^48. -/
def fcDiff (a b : Nat) : Int := toSigned 48 ((a + 2 ^ 48 - b % 2 ^ 48) % 2 ^ 48)

/-- Arrival of a member's counter stream in 1/25 TU cycles, reckoned back to counter `ref`: a frame period
is 573.44 × 2^type cycles (R160). -/
def arrivalNorm (d : Dev) (ref lane : Nat) : Int :=
  let l := lmLane d lane
  (l.lastAt * 25 : Int) - fcDiff l.lastFc ref * (14336 * 2 ^ laneType d lane : Int)

/-- Members of a Sheaf in SYNC. -/
def syncMembers (d : Dev) (s : Sheaf) : List Nat := s.members.filter (fun m => (lmLane d m).sync)

/-- Skew of a lane against the earliest member in SYNC, in 1/25 TU cycles (R188). -/
def skewOf (d : Dev) (s : Sheaf) (lane : Nat) : Nat :=
  let ref := (lmLane d lane).lastFc
  let all := (syncMembers d s).map (arrivalNorm d ref)
  let own := arrivalNorm d ref lane
  (own - all.foldl min own).toNat

/-- Skew in ns: a TU cycle is 4/7 ns. DEDUCED (log 27). -/
def skewNs (d : Dev) (s : Sheaf) (lane : Nat) : Nat := skewOf d s lane * 4 / (25 * 7)

/-- A member is aligned (R190). D is 1,750 TU cycles a µs. DEDUCED (log 38). -/
def aligned (d : Dev) (id : Nat) (s : Sheaf) (lane : Nat) : Bool :=
  let l := lmLane d lane
  l.sync && l.rxSheaf == id && l.rxMember == s.members.idxOf lane && decide (skewOf d s lane ≤ s.d * 43750)

/-- Whether a lane in SYNC is aligned as a member of its Sheaf (R190). -/
def fitOf (d : Dev) (lane : Nat) : Option Bool :=
  match sheafOf d lane with
  | some (i, _) => match tget d.lm.sheaves i with
    | some s => if (lmLane d lane).sync then some (aligned d i s lane) else none
    | none => none
  | none => none

/-- The alignment of every line-mode lane judged again (R216). -/
def refit (d : Dev) : Dev :=
  (lmLanes d).foldl (fun d m =>
    let l := lmLane d m
    let f := fitOf d m
    if f = l.fit then d else setLm m { l with fit := f, fitAt := rawNow d } d) d

/-! Descriptor records (R201). -/

def descValid (r : List Word) : Bool := bit (r.getD 0 0) 31
def descCbr (r : List Word) : Bool := fld (r.getD 0 0) 30 29 == 1
def descHold (r : List Word) : Bool := bit (r.getD 0 0) 28
def descSheaf (r : List Word) : Nat := fld (r.getD 0 0) 9 0
def descRate (r : List Word) : Nat := (r.getD 1 0).toNat
def descFirst (r : List Word) : Nat := fld (r.getD 2 0) 24 16
def descN (r : List Word) : Nat := fld (r.getD 2 0) 9 0
def descF (r : List Word) : Nat := fld (r.getD 3 0) 9 0

/-- Length of a CBR container at nominal justification. -/
def cbrNominal (r : List Word) : Nat := descN r * 1016 - descF r

/-- What replaces a client's output (R12, R220). DEDUCED (log 39). -/
def replacement (c : Nat) (r : List Word) : Output :=
  if descCbr r then .client c (List.replicate (cbrNominal r) 0xFF#8) else .localFault c

/-- Clients the demapper serves: port and record. -/
def rxClients (d : Dev) : List (Nat × List Word) := d.lm.rxNow.filter (fun p => descValid p.2)

/-- Traffic is blocked at the client egress: STAGING and LOCKED (R12, R90). -/
def egressBlocked (d : Dev) : Bool := d.sys.phase == .up && (d.sys.mode == .staging || d.sys.mode == .locked)

/-- What client egress c sends while traffic is blocked: the all-ones signal of a CBR client, else local fault (R12). -/
def blockedOutput (d : Dev) (c : Nat) : Output :=
  match tget d.lm.rxNow c with
  | some r => if descValid r then replacement c r else .localFault c
  | none => .localFault c

/-- Every configured client port shows the output of a mode that blocks traffic (R12, R91). -/
def blockEgress (d : Dev) : Dev :=
  ((d.ln.ports.map (·.1)).filter (fun k => decide (64 ≤ k) && decide (k < 128))).foldl
    (fun d k => out (blockedOutput d (k - 64)) d) d

/-- The line-mode path pair of a Sheaf, and whether the Sheaf is its path B (R376). -/
def pathOfSheaf (d : Dev) (i : Nat) : Option (Nat × PathPair × Bool) :=
  match d.pth.pairs.find? (fun p => p.2.line && (p.2.a.carrier == i || p.2.b.carrier == i)) with
  | some (n, p) => some (n, p, p.b.carrier == i)
  | none => none

/-- The Sheaf that a client mapped onto Sheaf i is taken from: that of the path the Points has selected (R222). -/
def takenFrom (d : Dev) (i : Nat) : Nat :=
  match pathOfSheaf d i with
  | some (_, p, _) => if p.selected = 1 then p.b.carrier else p.a.carrier
  | none => i

/-- Member lanes that carry at least one slot of a client (R217). -/
def clientLanes (d : Dev) (r : List Word) : List Nat :=
  match tget d.lm.sheaves (takenFrom d (descSheaf r)) with
  | some s => (List.range s.members.length).filterMap (fun m =>
      if decide (8 * m < descFirst r + descN r) && decide (descFirst r < 8 * m + 8) then s.members[m]? else none)
  | none => []

def lmClient (d : Dev) (c : Nat) : LmClient := tgetD d.lm.clients c LmClient.init

def setClient (c : Nat) (x : LmClient) (d : Dev) : Dev :=
  { d with lm := { d.lm with clients := tset d.lm.clients c x } }

/-! Defects (R215 to R221). Maps carry bit code − 1. -/

/-- The one defect of highest rank of a declared set: its code, 0 for none. The reported set holds it
alone (R218). -/
def primary (declared : Nat) : Nat :=
  match (List.range 10).find? (fun i => declared.testBit i) with
  | some i => i + 1
  | none => 0

/-- The reported set as a map (R218). -/
def reported (declared : Nat) : Nat := if primary declared = 0 then 0 else 2 ^ (primary declared - 1)

/-- The declared set that applies to a client: its own, and those of the lanes that carry it (R217). -/
def clientDeclared (d : Dev) (c : Nat) (r : List Word) : Nat :=
  (clientLanes d r).foldl (fun a m => a ||| ((lmLane d m).declared % 256)) ((lmClient d c).declared)

/-- Collect EVT_LM_DEFECT for an object whose reported set changed (R237). -/
def defectEvent (kind obj old new : Nat) (d : Dev) : Dev :=
  let w3 := (tickEventW 0 0x04C0 (kind * 64 + obj) d).2
  let code := if new = 0 then old else new
  tickEvent ⟨0, 0x04C0, kind * 64 + obj,
    wd (kind * 2 ^ 31 + (if new = 0 then 0 else 2 ^ 30) + code * 2 ^ 16 + obj),
    wd (min (fld w3 31 16 + 1) 0xFFFF * 2 ^ 16 + (if new = 0 then 0 else 2 ^ (new - 1)))⟩ d

/-- The map of the second in progress gains a bit (R225). -/
def pmMark (p : Pm) (bits : Nat) : Pm := { p with map := p.map ||| bits }

/-- Count in an accumulator, with its overflow flag (R225, R226). -/
def pmAdd (p : Pm) (i n : Nat) : Pm :=
  let v := p.acc.getD i 0 + n
  { p with
    acc := (p.acc ++ List.replicate (i + 1 - p.acc.length) 0).set i (min v 0xFFFFFFFF)
    ovf := if v ≥ 0xFFFFFFFF then p.ovf ||| 2 ^ i else p.ovf }

/-- The FC that the earliest aligned member of a client's Sheaf receives now (R221). -/
def currentFc (d : Dev) (r : List Word) : Option Nat :=
  let i := takenFrom d (descSheaf r)
  match tget d.lm.sheaves i with
  | some s =>
    let al := s.members.filter (aligned d i s)
    match al.find? (fun m => skewOf d s m == al.foldl (fun a x => min a (skewOf d s x)) (skewOf d s m)) with
    | some m => some (lmLane d m).fc
    | none => none
  | none => none

/-- After a change of declared sets from d0: events, second maps and the edges of the replacement
(R218, R220, R221, R225). -/
def laneDefectEdge (d0 : Dev) (d : Dev) (lane : Nat) : Dev :=
  let a := primary ((lmLane d0 lane).declared)
  let l := lmLane d lane
  let b := primary l.declared
  if a = b then d
  else defectEvent 0 lane a b (setLm lane { l with pm := pmMark l.pm (reported l.declared) } d)

/-- The defects of a client, whose primary one was `a`, have changed. -/
def clientEdge (a : Nat) (d : Dev) (cr : Nat × List Word) : Dev :=
  let dec := clientDeclared d cr.1 cr.2
  let b := primary dec
  let x := lmClient d cr.1
  let act := decide (1 ≤ b) && decide (b ≤ 9)
  let x := { x with pm := pmMark x.pm (reported dec) }
  let x := if act = x.replaced then x else { x with replaced := act, edges := x.edges ++ [(currentFc d cr.2, act)] }
  let d := setClient cr.1 x d
  if a = b then d else defectEvent 1 cr.1 a b d

def clientDefectEdge (d0 : Dev) (d : Dev) (cr : Nat × List Word) : Dev :=
  clientEdge (primary (clientDeclared d0 cr.1 cr.2)) d cr

/-- Clients whose defects are judged: those that the demapper serves and that are not unmapped (R215, R231). -/
def judgedClients (d : Dev) : List (Nat × List Word) :=
  (rxClients d).filter (fun c => tget d.lm.rxCopy c.1 == some c.2)

/-- Apply a change and report what it does to the defects of every object. -/
def withDefects (f : Dev → Dev) (d0 : Dev) : Dev :=
  let d := refit (f d0)
  let d := (lmLanes d).foldl (laneDefectEdge d0) d
  (judgedClients d).foldl (clientDefectEdge d0) d

/-- Declare or clear a lane defect. -/
def setDefect (lane code : Nat) (on : Bool) (d : Dev) : Dev :=
  let l := lmLane d lane
  let bitv := 2 ^ (code - 1)
  setLm lane { l with declared := if on then l.declared ||| bitv else l.declared - (l.declared &&& bitv) } d

/-! Alignment (R192, R214). -/

/-- Collect EVT_LM_ALIGN for a transition of a lane. -/
def alignEvent (lane : Nat) (sync : Bool) (cause : Nat) (d : Dev) : Dev :=
  let n := fld (tickEventW 0 0x0480 lane d).2 15 0
  tickEvent ⟨0, 0x0480, lane, wd ((if sync then 2 ^ 31 else 0) + cause * 2 ^ 16 + lane), wd (min (n + 1) 0xFFFF)⟩ d

/-- A lane goes to HUNT, and its trackers are freed (R192); the far end's accepted pair is reset (R224),
the AUTH block and the epoch are discarded (R197, R216). DEDUCED (log 27). -/
def toHunt (lane cause : Nat) (d : Dev) : Dev :=
  let l := lmLane d lane
  let l' := { l with
    sync := false, syncAt := rawNow d, fit := none, trackers := [], miss := 0, icvBad := 0, epoch := none, confirmed := false,
    epochHi := none, differs := none, authFrames := 0, authFails := 0, farBdi := false, farBdc := 0,
    farCand := 0, farRun := 0, csfOld := none, csfNew := none, ttiCopy := [], ttiRun := 0 }
  if l.sync then
    let d := alignEvent lane false cause (setLm lane l' d)
    if l.farBdi || l.farBdc ≠ 0 then emit 0 0x04C1 (wd lane) 0 d else d
  else setLm lane { l with trackers := [] } d

end Sys2Proof.Machine
end

