-- ==== Sys2Proof/Machine/Serve.lean ====
section
/-!
DEFINITION. How the device serves an NCS request: the description of a command (R58, R92), the checks of
R56 in their order, the answer.
-/
namespace Sys2Proof.Machine

/-- Modes columns of R58. -/
def runModes : List Mode := [.staging, .secure, .service]
def runL : List Mode := [.staging, .secure, .service, .locked]

/-- What a command table and its chapter say of a command. -/
structure Cmd where
  code : Nat
  /-- Level (R52): true for an expert command. -/
  expert : Bool := false
  /-- The Pages column shows the tenant pages. -/
  tenants : Bool := false
  /-- The Pages column shows SMB. -/
  smb : Bool := false
  modes : List Mode := runL
  /-- Only the BV128 has the command (R1). -/
  bv128 : Bool := false
  /-- Page 0 may issue it in BLANK (R92). -/
  blank : Bool := true
  /-- Page 0 may issue it in RETIRED (R92). -/
  retired : Bool := false
  /-- The Completes column reads Event. -/
  event : Bool := false
  /-- Step 4: LEN is valid for the command. -/
  lenOk : NcsReq → Bool
  /-- Step 6: a further reason why the page or the life cycle forbids it (the reason of R55). -/
  forbids : Otp → Dev → NcsReq → Option Nat := fun _ _ _ => none
  /-- Step 9: the index of the first offending payload word. -/
  bad : Otp → Dev → NcsReq → Option Nat := fun _ _ _ => none
  /-- Step 10: the object is busy. -/
  busy : Otp → Dev → NcsReq → Bool := fun _ _ _ => false
  /-- Step 11: capacity is exhausted. -/
  full : Otp → Dev → NcsReq → Bool := fun _ _ _ => false
  /-- Step 12 and the effect: the device after, the status, the payload. -/
  act : Otp → Dev → NcsReq → Dev × Nat × List Word
  /-- What follows the response of a request that passed the checks: given the request and its status. -/
  after : Otp → NcsReq → Nat → Dev → Dev := fun _ _ _ d => d

/-- A fixed LEN. -/
def lenIs (n : Nat) (r : NcsReq) : Bool := r.len == n

/-- The expert mask under which the latched request of page p is judged: a change of grant applies to requests
latched after it (R59, R61). -/
def latchMask (d : Dev) (p : Nat) : BitVec 16 := if p = 0 then 0xFFFF#16 else (pageOf d p).grant

/-- The requester may issue the command by role, page and level (R15, R16, R52, R59, R79): the reason it may
not. -/
def pageForbids (c : Cmd) (d : Dev) (r : NcsReq) : Option Nat :=
  if r.page = 65 then (if c.smb then none else some 1)
  else if r.page ≠ 0 && !c.tenants then some 1
  else if c.expert && !(r.expert && (latchMask d r.page).getLsbD (c.code / 256 - 1)) then some 2
  else none

/-- The life cycle forbids the command (R92). -/
def lifeForbids (c : Cmd) (o : Otp) (r : NcsReq) : Bool :=
  if c.code ≤ 0x0104 then false
  else if r.page = 0 || r.page = 65 then
    (o.life = .blank && !c.blank) || (o.life = .retired && !c.retired)
  else !(o.life = .deployed)

/-- Checks 1 to 11 of R56: the first status that applies, with its payload. Where several reasons of step 6 apply, the
page and the level are named first, then the life cycle, then the chapter's own reason. DESIGN CHOICE (log 74). -/
def checks (c : Cmd) (o : Otp) (d : Dev) (r : NcsReq) : Option (Nat × List Word) :=
  if d.sys.mode = .halted then some (stHalted, [])
  else if r.len > (if r.page = 65 then 14 else 254) then some (stBadLength, [])
  else if c.bv128 && !(o.variant = .bv128) then some (stBadCode, [])
  else if !c.lenOk r then some (stBadLength, [])
  else if r.rsv % 128 ≠ 0 then some (stBadField, [0xFFFF])
  else match pageForbids c d r with
    | some n => some (stNotPermitted, [wd n])
    | none =>
      match if lifeForbids c o r then some 4 else c.forbids o d r with
      | some n => some (stNotPermitted, [wd n])
      | none =>
        if d.sys.mode = .locked && !c.modes.contains .locked then some (stLocked, [])
        else if !c.modes.contains d.sys.mode then some (stWrongMode, [wd (modeCode d)])
        else match c.bad o d r with
          | some i => some (stBadField, [wd i])
          | none =>
            let g := pageOf d r.page
            if c.busy o d r then some (stBusy, [2])
            else if c.event && !(decide (g.accepted.length < 64 - ringUsed g)) then some (stBusy, [3])
            else if c.event && decide (8 ≤ g.accepted.length) then some (stBusy, [4])
            else if g.accepted.any (fun a => a.tag == r.tag) || d.sb.orphans.any (fun x => x.1 == r.page && x.2.1 == r.tag) then
              some (stBusy, [5])
            else if c.full o d r then some (stNoResource, [])
            else none

/-- Run a command whose checks 1 to 11 passed: its effect, the entry among the accepted commands where it
answers ST_ACCEPTED, its response (R48, R65, R70). -/
def perform (c : Cmd) (o : Otp) (d : Dev) (r : NcsReq) : Dev :=
  match c.act o d r with
  | (d', st, payload) =>
    c.after o r st
      (respond r.page r.tag st payload (if st = stAccepted then accept r.page r.tag c.code d' else d'))

/-- The device answers one request for a command. -/
def serve (c : Cmd) (r : NcsReq) (o : Otp) (d : Dev) : Dev :=
  match checks c o d r with
  | some (st, payload) => respond r.page r.tag st payload d
  | none => perform c o d r

/-- A request reaches the device: the page windows and the SMBus channel answer only while the device is
past its reset and not in DORMANT (R78, R97). -/
def reachable (d : Dev) (p : Nat) : Bool :=
  match d.sys.phase with
  | .up | .sleeping => if p = 65 then d.sys.aoGood else d.sys.linkUp
  | .starting => d.sys.startRun && (if p = 65 then d.sys.aoGood else d.sys.linkUp)
  | _ => false

/-- Requester p (65: SMBus) has a latched request. -/
def latched (d : Dev) (p : Nat) : Bool := if p = 65 then d.sb.smbBusy else decide (p ≤ 64) && (pageOf d p).reqBusy

/-- Word i of the latched request of requester p. -/
def latchWord (d : Dev) (p i : Nat) : Word :=
  if p = 65 then d.sb.smbReq.getD i 0 else tgetD (pageOf d p).latch i 0

/-- The request record of R49. -/
def requestWords (code : Nat) (r : NcsReq) : List Word :=
  wd (code * 2 ^ 16 + r.tag % 256 * 2 ^ 8 + r.rsv % 128 * 2 + flag r.expert 0) :: wd r.len :: r.payload

/-- A request area that holds a record and zeros after it. -/
def recordArea (ws : List Word) : Table Word :=
  (((List.range 256).zip ws).filter (fun p => p.2 != 0))

/-- The request is latched on its page with the page's grant (R46, R61), or on the SMBus channel (R80). The host has
written its record and zeros into the request area. DESIGN CHOICE (log 11). -/
def latchReq (code : Nat) (r : NcsReq) (d : Dev) : Dev :=
  if r.page = 65 then
    { d with sb := { d.sb with smbReq := (requestWords code r).take 16, smbBusy := true, smbReady := false } }
  else
    let g := pageOf d r.page
    let area := recordArea (requestWords code r)
    setPage r.page { g with
      req := area, latch := area, grant := g.expert, lastTag := r.tag % 256, reqBusy := true, respValid := false } d

/-- The requesters in round-robin order, from the one after the last served; the SMBus channel follows page 64
(R69, R80). -/
def roundRobin (last : Nat) : List Nat := (List.range 66).map (fun i => (last + 1 + i) % 66)

/-- The requester whose latched request is picked up next (R69). -/
def nextRequester (d : Dev) : Option Nat := (roundRobin d.sb.served).find? (latched d)

/-- The Signal box picks the request of requester p up. -/
def pickUp (p : Nat) (d : Dev) : Dev := { d with sb := { d.sb with served := p } }

/-- A request comes to a requester whose earlier one is not yet answered: a ring only sets OVERRUN (R47), a Block Write
is refused by NACK (R80). -/
def turnAway (p : Nat) (d : Dev) : Dev :=
  if p = 65 then out .smbNack d else setPage p { pageOf d p with overrun := true } d

/-- A request that has just been latched: in HALTED and while SB_UP is 0 the page hardware answers (R74, R77); the
Signal box serves it where it is next in order, and it stays latched behind others where it is not (R69).
DESIGN CHOICE (log 11). -/
def answer (c : Cmd) (r : NcsReq) (o : Otp) (d : Dev) : Dev :=
  if d.sys.mode = .halted then respond r.page r.tag stHalted [] d
  else if !d.sb.up then respond r.page r.tag stBusy [1] d
  else if nextRequester d = some r.page then serve c r o (pickUp r.page d)
  else d

/-- The command as one command of the block: its request is put before the device and answered in its turn.
DESIGN CHOICE (log 11). -/
def command (c : Cmd) (r : NcsReq) (o : Otp) (d : Dev) : Dev :=
  if !(r.page ≤ 65 && reachable d r.page) then d
  else if latched d r.page then turnAway r.page d
  else answer c r o (latchReq c.code r d)

end Sys2Proof.Machine
end

