-- ==== Sys2Proof/Machine/TimeOps.lean ====
section
/-!
DEFINITION. The arithmetic of network time (chapter 13): how time passes, how it is read, stamps and path
delays, the TU's interrupt, and the edge that raises PF vector 1 (R68).
-/
namespace Sys2Proof.Machine

/-- One nanosecond and one second in units of 2^-32 ns. -/
def nsU : Nat := 2 ^ 32
def secU : Nat := 1000000000 * 2 ^ 32

/-- 4/7 ns × (1 + rate) in units of 2^-32 ns, as a fraction: numerator over `rateDen` (R433, R434). -/
def rateNum (r : Int) : Nat := (4 * 2 ^ 32 * (65536000000 + r)).toNat
def rateDen : Nat := 7 * 65536000000

/-- The Model T increment: rounded to 2^-32 ns (R433). -/
def modelTInc (r : Int) : Nat := (2 * rateNum r + rateDen) / (2 * rateDen)

/-- Time that n TU cycles take under the model and the rate in force (R433). DEDUCED (log 43). -/
def span (u : Tu) (n : Nat) : Nat := if u.modelF then n * rateNum u.rate / rateDen else n * modelTInc u.rate

/-- Network time now. DEDUCED (log 43). -/
def timeNow (d : Dev) : Nat := d.tu.tBase + span d.tu (rawNow d - d.tu.cBase)

/-- The time base re-based at the present cycle, so that a change of rate, model or time starts here.
DEDUCED (log 43). -/
def rebase (d : Dev) : Dev := { d with tu := { d.tu with tBase := timeNow d, cBase := rawNow d } }

/-- Growth of the ingress store at stretch k/16 in 1/10 byte per ns, at the worst load (R595). -/
def storeGrowth (k : Nat) : Nat := [0, 0, 222, 632, 1000, 1333, 1636, 1913, 2167].getD k 2167

/-- The most that the ingress store holds after n TU cycles (R595, R596): it grows at 2/16 and more, and drains
at 75 GB/s otherwise; 4 MiB at most. DEDUCED (log 50). -/
def storeAfter (n k store : Nat) : Nat :=
  if 2 ≤ k then min 4194304000 (store + n * storeGrowth k * 400 / 7) else store - n * 300000 / 7

/-- The parts of a core clock cycle that Sector.ccFine counts: the least common multiple of 16 to 24. -/
def ccParts : Nat := 411863760

/-- Core clock cycles of a sector since the start. -/
def Sector.cc (x : Sector) : Nat := x.ccFine / ccParts

/-- n TU cycles pass for a sector: its core clock makes 16 / (16 + k) of them at stretch k/16 (R38), and at
2/16 or more they count in PMU_BELOW (R598). -/
def Sector.pass (n : Nat) (x : Sector) : Sector :=
  { x with
    ccFine := x.ccFine + n * 16 * ccParts / (16 + x.stretch), store := storeAfter n x.stretch x.store
    belowTick := if 2 ≤ x.stretch then x.belowTick + n else x.belowTick }

/-- n TU cycles pass. DESIGN CHOICE (log 2). -/
def passTime (n : Nat) (d : Dev) : Dev :=
  let secs := (List.range 4).map (fun i => (i, (powerOf d i).pass n))
  { d with sys := { d.sys with sub := d.sys.sub + n }, pwr := { d.pwr with sectors := secs } }

/-- TU cycles of n µs. -/
def usCycles (n : Nat) : Nat := 1750 * n

/-- Seconds, nanoseconds and 2^-16 ns of an instant (R432). -/
def secOf (t : Nat) : Nat := t / secU
def nsOf (t : Nat) : Nat := t / nsU % 1000000000
def fracOf (t : Nat) : Nat := t / 2 ^ 16 % 2 ^ 16

/-- The instant of seconds and nanoseconds. -/
def instant (sec ns : Nat) : Nat := sec * secU + ns * nsU

/-- The three words of R453: epoch and seconds high, seconds low, nanoseconds. -/
def stampWords (epoch t : Nat) : List Word :=
  [wd (epoch % 65536 * 2 ^ 16 + secOf t / 2 ^ 32 % 65536), wd (secOf t % 2 ^ 32), wd (nsOf t)]

/-- TU_NS_LO (R438). -/
def nsLo (t : Nat) : Nat := (t / nsU) % 2 ^ 32

/-- An instant is reached (R437). Seconds count 48 bits, so the difference is signed there. -/
def reachedAt (now t : Nat) : Bool :=
  let ds := toSigned 48 ((secOf now % 2 ^ 48 + 2 ^ 48 - secOf t % 2 ^ 48) % 2 ^ 48)
  decide (0 < ds) || (decide (ds = 0) && decide (t % secU ≤ now % secU))

/-- A tick, one millisecond, in units of network time (R277). -/
def tickU : Nat := 1000000 * 2 ^ 32

/-! Path delays (R445). -/

/-- Key of a lane's direction. DEDUCED (log 44). -/
def dk (side dir lane : Nat) : Nat := (side * 2 + dir) * 64 + lane

/-- The sum of the four terms in ps. DEDUCED (log 44). -/
def pathDelay (d : Dev) (side dir lane : Nat) : Int :=
  let k := dk side dir lane
  let typ := match portOfLane d (lk side lane) with
    | some p => (portOf d p).map (·.typ) |>.getD 0
    | none => 0
  Config.dFix typ dir + tgetD d.tu.dLock k 0 + tgetD d.tu.dLive k 0 + tgetD d.tu.dUser k 0

/-- Ps in units of 2^-32 ns. -/
def psU (p : Int) : Int := p * 2 ^ 32 / 1000

/-- The stamp of a frame that crosses the stamping point of a port now (R440): the path delay of the port's
lowest lane is taken off a received frame and added to a sent one. DEDUCED (log 44). -/
def stampNow (d : Dev) (side dir port : Nat) : Nat :=
  let x := psU (pathDelay d side dir port)
  if dir = 0 then ((timeNow d : Int) - x).toNat else ((timeNow d : Int) + x).toNat

/-! TU_STATUS and the hardware vector. -/

/-- TU_STATUS (R451). -/
def tuStatus (d : Dev) : Nat :=
  flag (d.tu.refUse == d.tu.ref) 8 + flag d.tu.todIn 7 + flag d.tu.ppsIn 6 + flag d.tu.refLost 5
    + flag (!d.tu.txq.isEmpty) 4 + flag d.tu.ovfFlag 3 + flag d.tu.rearmed 2 + flag d.tu.alarm32 1 + flag d.tu.alarm 0

/-- IRQ_HW_PEND.TU (R451). -/
def tuPend (d : Dev) : Bool := tuStatus d % 256 &&& d.tu.irqEn.toNat != 0

/-- The other sources: IRQ_HW_PEND.PCF (R619), TAMP (R555), PMU (R601), DMA (R620). -/
def pcfPend (d : Dev) : Bool := d.tel.event &&& d.tel.irqEn != 0
def tampPend (d : Dev) : Bool := d.tamp.fired != 0 || d.tamp.disagree
def pmuPend (d : Dev) : Bool := d.pwr.event &&& d.pwr.irqEn != 0
def dmaPend (d : Dev) : Bool := d.tel.dmaEvent &&& d.tel.dmaIrqEn != 0

/-- IRQ_HW_PEND (R68). -/
def hwPend (d : Dev) : BitVec 5 :=
  BitVec.ofNat 5 (flag (pcfPend d) 4 + flag (tampPend d) 3 + flag (pmuPend d) 2 + flag (dmaPend d) 1 + flag (tuPend d) 0)

/-- Some unmasked source is pending. -/
def hwActive (d : Dev) : Bool := hwPend d &&& ~~~d.sb.hwMask != 0#5

/-- A change after which pending AND NOT mask goes from zero to non-zero sends one message on PF vector 1
(R68). -/
def withHw (f : Dev → Dev) (d : Dev) : Dev := if !hwActive d && hwActive (f d) then raise 65 (f d) else f d

/-! Alarms (R439). -/

/-- The native alarm's condition: the difference of seconds is signed in 48 bits (R437). -/
def almReached (d : Dev) : Bool :=
  let now := timeNow d
  let ds := toSigned 48 ((secOf now % 2 ^ 48 + 2 ^ 48 - (fld d.tu.almHi 15 0 * 2 ^ 32 + d.tu.almLo.toNat)) % 2 ^ 48)
  decide (0 < ds) || (decide (ds = 0) && decide (d.tu.almNs.toNat ≤ nsOf now))

/-- The 32-bit alarm's condition. -/
def alm32Reached (d : Dev) : Bool :=
  decide (0 ≤ toSigned 32 ((nsLo (timeNow d) + 2 ^ 32 - d.tu.alm32.toNat) % 2 ^ 32))

/-- Fire each armed alarm whose condition holds. -/
def alarms (d : Dev) : Dev :=
  withHw (fun d =>
    let a := d.tu.arm && almReached d
    let b := d.tu.arm32 && alm32Reached d
    { d with tu := { d.tu with
      alarm := d.tu.alarm || a, arm := d.tu.arm && !a, alarm32 := d.tu.alarm32 || b, arm32 := d.tu.arm32 && !b } }) d

/-- CRC-32 of IEEE 802.3. -/
def crc32 (b : Bytes) : Nat :=
  (b.foldl (fun c x =>
    (List.range 8).foldl (fun c _ => if c % 2 = 1 then (c / 2) ^^^ 0xEDB88320 else c / 2) (c ^^^ x.toNat)) 0xFFFFFFFF)
    ^^^ 0xFFFFFFFF

/-- CRC-16 with generator 0x1021, initial 0xFFFF (R164). -/
def crc16 (b : Bytes) : Nat :=
  b.foldl (fun c x =>
    (List.range 8).foldl (fun c i =>
      let top := c.testBit 15
      let inBit := x.toNat.testBit (7 - i)
      let c := c * 2 % 65536
      if top == inBit then c else c ^^^ 0x1021) c) 0xFFFF

end Sys2Proof.Machine
end

