-- ==== Sys2Proof/Machine/FrameCrypt.lean ====
section
/-!
DEFINITION. The bytes of protected frames: SecTAG and IV of frame mode (R129, R133, R134, R242), what a slice
makes of a frame, and the Gleaner's record of a tagged frame (R608, R609).
-/
namespace Sys2Proof.Machine

/-! The SecTAG (R129), as IEEE 802.1AE-2018 lays it out. -/

/-- TCI and AN: V = 0, ES, SC, SCB, E, C, AN. -/
def tciAn (es sc scb conf : Bool) (an : Nat) : Nat :=
  flag es 6 + flag sc 5 + flag scb 4 + flag conf 3 + flag conf 2 + an % 4

def secTag (tci sl pn : Nat) (sci : Option Nat) : Bytes :=
  beBytes 2 0x88E5 ++ beBytes 1 tci ++ beBytes 1 sl ++ beBytes 4 (pn % 2 ^ 32)
    ++ (match sci with | some s => beBytes 8 s | none => [])

/-- A SUITE code is an XPN suite (R122). -/
def isXpn (suite : Nat) : Bool := suite == 3 || suite == 4

/-- The 96-bit IV of a frame-mode SA: SSCI and PN under the salt for XPN (R129), SCI and PN otherwise. -/
def fmIv (x : SaRec) (sci pn : Nat) : Bytes :=
  if isXpn x.suite then xorBytes (beBytes 4 x.ssci ++ beBytes 8 pn) x.salt else beBytes 8 sci ++ beBytes 4 pn

/-- Length of the SecTAG of a frame that has one at byte 12. -/
def tagLen (f : Bytes) : Nat := if (beAt f 14 1).testBit 5 then 16 else 8

/-- Seal a frame whose first `aad` bytes stay clear: ciphertext and ICV behind them (R242). -/
def sealFrameH (h : Block) (key iv : Bytes) (aad : Nat) (f : Bytes) : Bytes :=
  let a := f.take aad
  let c := gcmSeal key iv a (f.drop aad)
  a ++ c ++ gcmTagH h key iv a c

def sealFrame (key iv : Bytes) (aad : Nat) (f : Bytes) : Bytes := sealFrameH (hashKey key) key iv aad f

/-- The protected part of a received frame without its ICV. -/
def rxBody (f : Bytes) : Bytes := f.take (f.length - 16)

/-- The tag over a received frame. -/
def rxTag (h : Block) (key iv : Bytes) (aad : Nat) (f : Bytes) : Bytes :=
  gcmTagH h key iv ((rxBody f).take aad) ((rxBody f).drop aad)

/-- The ICV of a received frame is right (R133). -/
def icvRight (h : Block) (key iv : Bytes) (aad : Nat) (f : Bytes) : Bool := rxTag h key iv aad f == f.drop (f.length - 16)

/-- The frame without SecTAG and ICV, its text opened. -/
def openFrame (key iv : Bytes) (aad : Nat) (f : Bytes) : Bytes :=
  let b := rxBody f
  f.take 12 ++ (b.take aad).drop (12 + tagLen f) ++ gcmOpen key iv (b.take aad) (b.drop aad)

/-- The frame without SecTAG and ICV, as it came. -/
def stripFrame (f : Bytes) : Bytes := f.take 12 ++ (rxBody f).drop (12 + tagLen f)

/-- GHASH input cycles of a frame (R239): blocks of additional data and of text, and the length block.
DEDUCED (log 54). -/
def ghashCycles (aad text : Nat) : Nat := (aad + 15) / 16 + (text + 15) / 16 + 1

/-- The 64-bit PN of an XPN frame from its 32 bits, relative to the lowest acceptable PN (R134; the rule of
IEEE 802.1AE-2018). -/
def recoverPn (lowest pn32 : Nat) : Nat :=
  let up := lowest / 2 ^ 32
  if (lowest % 2 ^ 32).testBit 31 && !pn32.testBit 31 then (up + 1) % 2 ^ 32 * 2 ^ 32 + pn32 else up * 2 ^ 32 + pn32

/-- The values that a resident context holds in shares. -/
def Ctx.key (c : Ctx) : Bytes := xorBytes c.key1 c.key2
def Ctx.auth (c : Ctx) : Bytes := xorBytes c.auth1 c.auth2
def Ctx.hash (c : Ctx) : Block := c.hash1.headD 0 ^^^ c.hash2.headD 0

/-- What the slice makes of a frame under a resident context (R242): the finished frame, or the opened one with its
verdict. -/
def sliceResult (x : SaRec) (c : Ctx) (sci : Nat) (f : Flight) : Flight :=
  let iv := fmIv x sci f.pn
  if f.rx then
    { f with outp := openFrame c.key iv f.aad f.inp, icvOk := icvRight c.hash c.key iv f.aad f.inp }
  else
    let rs : Reseal := ⟨c.key, iv, f.aad, f.inp⟩
    { f with outp := sealFrameH c.hash c.key iv f.aad f.inp, reseal := if f.ptp.isSome then some rs else none }

/-- The tag that the slice computed for a frame. -/
def resultTag (x : SaRec) (c : Ctx) (sci : Nat) (f : Flight) : Bytes :=
  if f.rx then rxTag c.hash c.key (fmIv x sci f.pn) f.aad f.inp else f.outp.drop (f.outp.length - 16)

/-! The Gleaner (R608, R609). -/

/-- Whether a frame that enters now is tagged: a draw of k bits of the line instance. DEDUCED (log 51). -/
def gleanDraw (d : Dev) : Bool × Dev :=
  let d := { d with tel := { d.tel with loadTick := d.tel.loadTick + 1 } }
  if d.tel.gleanEn then
    let x := lineBytes ((d.tel.gleanKNow + 7) / 8) d
    (beNat x.1 % 2 ^ d.tel.gleanKNow == 0, x.2)
  else (false, d)

/-- The record begun for a tagged frame: group, wire length, stamp at stage 0. -/
def gleanStart (group len stamp : Nat) (d : Dev) : Option Glean × Dev :=
  let x := gleanDraw d
  let g : Glean := ⟨group, 0xFFFFF, len, d.tu.epoch, stamp, rawNow d, List.replicate 7 none, d.sl.shadowOn, false, false, false, none⟩
  (if x.1 then some g else none, x.2)

/-- Stage i from 1 to 7 is reached now. DESIGN CHOICE (log 58). -/
def gleanStage (i : Nat) (d : Dev) (g : Option Glean) : Option Glean :=
  g.map (fun g => { g with stages := g.stages.set (i - 1) (some (rawNow d - g.raw)) })

/-- The sixteen words of a record (R609). DESIGN CHOICE (log 58). -/
def gleanWords (dropped : Bool) (g : Glean) : List Word :=
  [wd (flag dropped 31 + flag g.shadow 30 + flag g.missed 29 + flag g.granary 28 + g.slice.getD 0xFF * 2 ^ 16 + g.group),
   wd g.sa, wd (g.len % 65536)] ++ stampWords g.epoch g.t
    ++ g.stages.map (fun x => match x with | some n => wd n | none => 0xFFFFFFFF#32) ++ [0, 0, 0]

/-- A record is finished: kept for the next snapshot, at most 4,096, the rest lost and counted (R611). -/
def gleanFinish (dropped : Bool) (g : Option Glean) (d : Dev) : Dev :=
  match g with
  | none => d
  | some g =>
    let t := d.tel
    if t.records.length < 4096 then { d with tel := { t with records := t.records ++ [gleanWords dropped g] } }
    else withHw (fun d => { d with tel := { t with
      lostR7 := satInc 16 t.lostR7, lostRecords := satInc 16 t.lostRecords, event := t.event ||| 4 } }) d

end Sys2Proof.Machine
end

