-- ==== Sys2Proof/Machine/GrnLine.lean ====
section
/-!
DEFINITION. How the Granary protects a line (R347 to R352): nonces, ciphertext and MAC, and the counters of a page
at every write of one of its lines.
-/
namespace Sys2Proof.Machine

/-- Page frame number: channel × 2^19 + frame index (R341). -/
def pfnOf (channel frame : Nat) : Nat := channel * 2 ^ 19 + frame

/-- The line nonce N_b of R347. -/
def lineNonce (region : BitVec 4) (pfn : BitVec 26) (line : BitVec 6) (major : BitVec 64) (minor : BitVec 7)
    (b : BitVec 2) : BitVec 128 := region ++ pfn ++ line ++ major ++ minor ++ (0 : BitVec 19) ++ b

/-- The nonce of the MAC of a counter line or a tree node (R348): region ID 0xF, the child's level, its index. -/
def nodeNonce (level : BitVec 6) (index : BitVec 26) : BitVec 128 := lineNonce 0xF index level 0 0 0

/-- A nonce as the 16-byte AES block, most significant byte first. -/
def nonceBlock (n : BitVec 128) : Bytes := beBytes 16 n.toNat

/-- Ciphertext of a line: AES-256 counter mode over its four blocks (R347). -/
def lineCipher (ke : Bytes) (nonce : BitVec 2 → BitVec 128) (plain : Bytes) : Bytes :=
  xorBytes plain (([0, 1, 2, 3].map (fun b => aes ke (nonceBlock (nonce b)))).flatten)

/-- The upper 56 bits of GHASH_H(C) XOR AES(K_M, N_0), H = AES(K_M, 0) (R348). -/
def mac56 (km : Bytes) (n0 : BitVec 128) (c : Bytes) : Bytes :=
  let h := aes km (List.replicate 16 0)
  (xorBytes (ghash h (c ++ beBytes 16 512)) (aes km (nonceBlock n0))).take 7

/-- What the page frame holds of a data line: its ciphertext and its MAC, under the key pair K_E, K_M of its
region. DESIGN CHOICE (log 21). -/
def storedLine (key : Bytes) (region pfn line : Nat) (p : PageCtr) (plain : Bytes) : Bytes × Bytes :=
  let n := fun b => lineNonce (BitVec.ofNat 4 region) (BitVec.ofNat 26 pfn) (BitVec.ofNat 6 line) p.major
    (BitVec.ofNat 7 (tgetD p.minors line 0)) b
  let c := lineCipher (key.take 32) n plain
  (c, mac56 (key.drop 32) (n 0) c)

/-- The whole page is re-encrypted under the current key (R352, R358): major counter plus 1, minors 0. -/
def PageCtr.renew (p : PageCtr) : PageCtr := ⟨p.major + 1, [], false⟩

/-- A page frame is allocated: its major counter is the region's allocation counter, its minors 0, its key the
current one (R351). -/
def PageCtr.fresh (major : BitVec 64) : PageCtr := ⟨major, [], false⟩

/-- The minor counter of a line goes up (R350). -/
def PageCtr.bump (line : Nat) (p : PageCtr) : PageCtr :=
  { p with minors := tset p.minors line (tgetD p.minors line 0 + 1) }

/-- One write of a line: the counters after it and the lines written. A page under the old key is re-encrypted
first (R358); a minor counter at 127 re-encrypts the page with the new data merged in (R352). DESIGN CHOICE (log 21).
-/
def PageCtr.write (line : Nat) (p : PageCtr) : PageCtr × Nat :=
  if p.old then (p.renew.bump line, 65)
  else if 127 ≤ tgetD p.minors line 0 then (p.renew, 64)
  else (p.bump line, 1)

/-- The key pair that a page's selector names (R343, R349). -/
def Region.keyOf (r : Region) (p : PageCtr) : Bytes := if p.old then r.oldKey else r.key

/-- A line as it is stored under a page's counters. -/
def PageFrame.put (g : Nat) (r : Region) (line : Nat) (plain : Bytes) (p : PageFrame) : PageFrame :=
  { p with lines := tset p.lines line (storedLine (r.keyOf p.ctr) g p.pfn line p.ctr plain) }

/-- The plain bytes of a stored line (R347). -/
def PageFrame.plain (g : Nat) (r : Region) (line : Nat) (p : PageFrame) : Bytes :=
  match tget p.lines line with
  | some s => (storedLine (r.keyOf p.ctr) g p.pfn line p.ctr s.1).1
  | none => List.replicate 64 0

/-- The MAC of a line verifies (R348, R349). -/
def PageFrame.verifies (g : Nat) (r : Region) (line : Nat) (p : PageFrame) : Bool :=
  match tget p.lines line with
  | some s => (storedLine (r.keyOf p.ctr) g p.pfn line p.ctr (p.plain g r line)).2 == s.2
  | none => true

/-- The whole page is read and written again on a page frame under the region's current key (R352, R358, R362). -/
def PageFrame.renewAt (g : Nat) (r : Region) (pfn : Nat) (p : PageFrame) : PageFrame :=
  p.lines.foldl (fun q l => q.put g r l.1 (p.plain g r l.1)) ⟨pfn, p.ctr.renew, []⟩

/-- One write of a line (R350, R352, R358): the page after it and the lines written. -/
def PageFrame.write (g : Nat) (r : Region) (line : Nat) (plain : Bytes) (p : PageFrame) : PageFrame × Nat :=
  let w := p.ctr.write line
  let q := if w.2 = 1 then p else p.renewAt g r p.pfn
  (PageFrame.put g r line plain { q with ctr := w.1 }, w.2)

/-- The counter line of a page frame: the major counter, then the minor counters as one field of 448 bits, both least
significant byte first (R341). DESIGN CHOICE (log 21). -/
def counterLine (p : PageCtr) : Bytes :=
  (beBytes 8 p.major.toNat).reverse ++ (beBytes 56 ((p.minors.map (fun m => m.2 * 2 ^ (7 * m.1))).sum)).reverse

end Sys2Proof.Machine
end

