-- ==== Sys2Proof/Machine/GrnTree.lean ====
section
/-!
DEFINITION. Where the Granary keeps what (R341 to R345): the page map, the integrity tree over the counter lines, the
places of its copies, the metadata cache.
-/
namespace Sys2Proof.Machine

/-- Page frames of a channel (R341). -/
def framesPerChannel : Nat := 458752

def regionOf (d : Dev) (g : Nat) : Region := tgetD d.grn.regions g Region.init
def setRegion (g : Nat) (x : Region) (d : Dev) : Dev := { d with grn := { d.grn with regions := tset d.grn.regions g x } }

/-- The key of a page of a mapped region, or of a buffered queue. -/
def bufKey (region n : Nat) : Nat := region * 2 ^ 20 + n

/-! The page map (R345). -/

/-- The mapped regions. -/
def mappedRegions : List Nat := [0, 1, 5]

/-- Pages of region g that belong on channel c: page i sits on channel i modulo the channels. -/
def mappedHome (d : Dev) (g c : Nat) : Nat := ((regionOf d g).quota + d.grn.width - 1 - c) / max 1 d.grn.width

/-- Pages that belong on one channel, of the regions before g. -/
def homesBefore (d : Dev) (g c : Nat) : Nat := ((mappedRegions.filter (· < g)).map (fun e => mappedHome d e c)).sum
def homesOn (d : Dev) (c : Nat) : Nat := homesBefore d 6 c

/-- Channels that took part in the start, and pages whose channel did not. -/
def startChannelsOf (d : Dev) : List Nat := (List.range d.grn.width).filter (fun c => !d.grn.gone.contains c)
def displaced (d : Dev) : List (Nat × Nat) :=
  mappedRegions.flatMap (fun g => d.grn.gone.flatMap (fun e =>
    (List.range (mappedHome d g e)).map (fun j => (g, e + j * d.grn.width))))

/-- The rank of a page among those whose channel took no part. -/
def displacedRank (d : Dev) (g i : Nat) : Nat :=
  let c := i % max 1 d.grn.width
  (d.grn.gone.map (homesBefore d g)).sum
    + ((d.grn.gone.takeWhile (· != c)).map (mappedHome d g)).sum + i / max 1 d.grn.width

/-- The page frame that the start gives to page i of mapped region g: on its channel region by region; a page whose
channel took no part goes behind those, on the others in turn. DESIGN CHOICE (log 22). -/
def homePfn (d : Dev) (g i : Nat) : Nat :=
  let c := i % max 1 d.grn.width
  if d.grn.gone.contains c then
    let r := displacedRank d g i
    let stay := startChannelsOf d
    let e := stay.getD (r % max 1 stay.length) 0
    pfnOf e (homesOn d e + r / max 1 stay.length)
  else pfnOf c (homesBefore d g c + i / max 1 d.grn.width)

/-- Page frames of a channel that the start gives to mapped pages. -/
def startMapped (d : Dev) (c : Nat) : Nat :=
  let stay := startChannelsOf d
  if stay.contains c then
    homesOn d c + ((d.grn.gone.map (homesOn d)).sum + stay.length - 1 - stay.idxOf c) / max 1 stay.length
  else 0

/-- The region of a frame that the start gave to a mapped page. -/
def startRegion (d : Dev) (c f : Nat) : Nat :=
  let stay := startChannelsOf d
  let own := fun (g : Nat) => decide (f < homesBefore d (g + 1) c)
  let r := (f - homesOn d c) * stay.length + stay.idxOf c
  let far := fun (g : Nat) => decide (r < (d.grn.gone.map (homesBefore d (g + 1))).sum)
  (mappedRegions.find? (if f < homesOn d c then own else far)).getD 5

/-- Counters of a page of a mapped region that has had no line written on its own: what the start and the Winnower's
walks left (R357, R358). -/
def startCtr (d : Dev) (g : Nat) : PageCtr :=
  let r := regionOf d g
  ⟨BitVec.ofNat 64 (if r.oldKey.isEmpty then r.epoch else r.epoch - 1), [], !r.oldKey.isEmpty⟩

/-- Page i of mapped region g. -/
def mappedFrame (d : Dev) (g i : Nat) : PageFrame := tgetD d.grn.frames (bufKey g i) ⟨homePfn d g i, startCtr d g, []⟩

/-! The integrity tree (R343). -/

/-- The number of a page frame among all, which is its counter line's index in the tree. -/
def frameIndex (pfn : Nat) : Nat := pfn / 2 ^ 19 * framesPerChannel + pfn % 2 ^ 19

/-- The counters of page frame number i: of a page in use, of a frame that is free again, as the start left them. -/
def counterAt (d : Dev) (i : Nat) : PageCtr :=
  let c := i / framesPerChannel
  let f := i % framesPerChannel
  let here := fun (p : PageFrame) => p.pfn == pfnOf c f
  match (d.grn.bufs.flatMap (fun b => b.2.pages)).find? here, (d.grn.frames.map (·.2)).find? here, tget d.grn.left (pfnOf c f) with
  | some p, _, _ => p.ctr
  | none, some p, _ => p.ctr
  | none, none, some x => x
  | none, none, none => if f < startMapped d c then startCtr d (startRegion d c f) else ⟨0, [], false⟩

/-- Counter lines, and nodes of a level. -/
def treeNodes (d : Dev) (level : Nat) : Nat := (d.grn.width * framesPerChannel + 8 ^ level - 1) / 8 ^ level

/-- The MAC of a counter line or node, as its parent holds it (R348). -/
def nodeMac (kt : Bytes) (level index : Nat) (b : Bytes) : Bytes :=
  mac56 kt (nodeNonce (BitVec.ofNat 6 level) (BitVec.ofNat 26 index)) b

/-- The 64 bytes of node `index` of a level, level 0 being the counter lines: eight MACs of children; at level 1 the key
selectors of the eight pages. A child that does not exist has zeros. -/
def nodeBytes (d : Dev) : Nat → Nat → Bytes
  | 0, i => counterLine (counterAt d i)
  | l + 1, i =>
    let kids := (List.range 8).map (8 * i + ·)
    let macs := kids.flatMap (fun k => if k < treeNodes d l then nodeMac d.grn.kt l k (nodeBytes d l k) else List.replicate 7 0)
    macs ++ (if l = 0 then kids.map (fun k => BitVec.ofBool (counterAt d k).old |>.setWidth 8) else List.replicate 8 0)

/-- The root register after every change of a counter line or a key selector: it covers the level-8 nodes (R343). -/
def setRoot (d : Dev) : Dev := { d with grn := { d.grn with root := nodeBytes d 9 0 } }

/-- The channel of copy A or B of a node of levels 1 to 3, before retirements (R343). In a BV064 copy A of node n is
on stack n mod 2. DESIGN CHOICE (log 21). -/
def nodeHome (width n : Nat) (copyB : Bool) : Nat :=
  if width = 16 then (n + 8 * b1 copyB) % 16
  else if width = 32 then 16 * ((n + b1 copyB) % 2) + n / 4 % 16
  else 16 * ((n + 2 * b1 copyB) % 4) + n / 4 % 16

/-- The channel of a copy: those of a channel without pages are on the next one of its stack (R362). -/
def nodeChannel (away : Nat → Bool) (width n : Nat) (copyB : Bool) : Nat :=
  let h := nodeHome width n copyB
  let turn := (List.range 16).map (fun i => h / 16 * 16 + (h + i) % 16)
  (turn.find? (fun c => !away c)).getD h

/-- The page frame that a tree node covers first. -/
def nodeFirst (level index : Nat) : Nat :=
  let i := index * 8 ^ level
  pfnOf (i / framesPerChannel) (i % framesPerChannel)

/-! The metadata cache (R344). -/

/-- Entries of 64 bytes in 32 MiB. -/
def metaMax : Nat := 524288

/-- One entry is used: fetched and verified against its parent where it is not there, the least recently used one written
back for it; `dirty`: it is changed. -/
def metaEnter (dirty : Bool) (c : List MetaLine) (level index : Nat) : List MetaLine :=
  let me := fun (m : MetaLine) => m.level == level && m.index == index
  let rest := c.filter (fun m => !me m)
  let room := if rest.length < metaMax then rest else rest.drop 1
  room ++ [⟨level, index, dirty || c.any (fun m => me m && m.dirty)⟩]

/-- A line of a page frame is read or written: its path, the parents first, goes through the cache (R344, R349, R350). -/
def metaUse (dirty : Bool) (pfn : Nat) (d : Dev) : Dev :=
  let i := frameIndex pfn
  { d with grn := { d.grn with
    metaCache := [3, 2, 1, 0].foldl (fun c l => metaEnter dirty c l (i / 8 ^ l)) d.grn.metaCache } }

end Sys2Proof.Machine
end

