-- ==== Sys2Proof/Machine/GrnOps.lean ====
section
/-!
DEFINITION. Pages of the Granary (chapters 09 and 10): channels in use, buffer pages of the queues (R322, R345,
R351), counted lines (R358), the standing reservations (R34, R35, R379).
-/
namespace Sys2Proof.Machine

/-- Channels that hold pages: not retired. -/
def channelLive (o : Otp) (c : Nat) : Bool := decide (c < channels o) && !o.retired.contains c

/-- A channel takes new pages: in service and not being retired (R322, R362). -/
def channelOpen (o : Otp) (d : Dev) (c : Nat) : Bool :=
  channelLive o c && !((d.grn.retiring.map (·.ch)) == some c)

def liveChannels (o : Otp) : Nat := ((List.range (channels o)).filter (channelLive o)).length

/-- Channels whose pages have moved to others: retired ones, and a retiring one past its migration (R362).
DEDUCED (log 20). -/
def channelGone (o : Otp) (d : Dev) (c : Nat) : Bool :=
  o.retired.contains c || (match d.grn.retiring with | some r => r.ch == c && decide (3 ≤ r.phase) | none => false)

/-- Pages of a mapped region that stand on a channel, by region and page. -/
def mappedPagesOn (d : Dev) (c : Nat) : List (Nat × Nat) :=
  let own := if d.grn.gone.contains c then [] else
    mappedRegions.flatMap (fun g => (List.range (mappedHome d g c)).map (fun j => (g, c + j * d.grn.width)))
  let far := (displaced d).filter (fun p => homePfn d p.1 p.2 / 2 ^ 19 == c)
  let came := ((d.grn.frames.map (fun p => (p.1 / 2 ^ 20, p.1 % 2 ^ 20))).filter (fun p => homePfn d p.1 p.2 / 2 ^ 19 != c))
  (own ++ far ++ came).filter (fun p => (mappedFrame d p.1 p.2).pfn / 2 ^ 19 == c)

/-- How many they are: those that the start put there, without those that have left, with those that have come. -/
def mappedOn (d : Dev) (c : Nat) : Nat :=
  let moved := d.grn.frames.filter (fun p => homePfn d (p.1 / 2 ^ 20) (p.1 % 2 ^ 20) / 2 ^ 19 != p.2.pfn / 2 ^ 19)
  startMapped d c + (moved.filter (fun p => p.2.pfn / 2 ^ 19 == c)).length
    - (moved.filter (fun p => homePfn d (p.1 / 2 ^ 20) (p.1 % 2 ^ 20) / 2 ^ 19 == c)).length

/-- Buffer pages in use on a channel, in a region, in all. -/
def bufferOn (d : Dev) (c : Nat) : Nat :=
  (d.grn.bufs.map (fun b => (b.2.pages.filter (fun p => p.pfn / 2 ^ 19 == c)).length)).sum
def pagesIn (d : Dev) (g : Nat) : Nat := ((d.grn.bufs.filter (fun b => b.1 / 2 ^ 20 == g)).map (·.2.pages.length)).sum
def bufferPages (d : Dev) : Nat := (d.grn.bufs.map (·.2.pages.length)).sum

/-- Free page frames of a channel. -/
def freeOn (o : Otp) (d : Dev) (c : Nat) : Nat :=
  if channelOpen o d c then framesPerChannel - mappedOn d c - bufferOn d c else 0

def freeAll (o : Otp) (d : Dev) : Nat := ((List.range (channels o)).map (freeOn o d)).sum

/-- A channel may be next: open, and not below 1/64 of the average of free pages (R322). -/
def channelFit (o : Otp) (d : Dev) (c : Nat) : Bool :=
  channelOpen o d c && decide (1 ≤ freeOn o d c) && decide (freeAll o d ≤ 64 * liveChannels o * freeOn o d c)

/-- The channel of a queue's next page: 17 above that of its previous page, modulo the channels; the first page
goes where most pages are free (R322). DESIGN CHOICE (log 22). -/
def nextChannel (o : Otp) (d : Dev) (key : Nat) : Option Nat :=
  let n := channels o
  let turn := match tget d.dsp.channel key with
    | some c => (List.range n).map (fun i => (c + 17 * (i + 1)) % n)
    | none =>
      let all := List.range n
      all.filter (fun c => all.all (fun e => decide (freeOn o d e ≤ freeOn o d c)))
  turn.find? (channelFit o d)

def bufOf (d : Dev) (k : Nat) : Buffered := tgetD d.grn.bufs k ⟨[], 0, 0, []⟩

/-- Count lines written in a region under its key (R358). -/
def countLines (g n : Nat) (d : Dev) : Dev :=
  setRegion g { regionOf d g with lines := (regionOf d g).lines + BitVec.ofNat 64 n } d

/-- Line n of mapped region g is written (R350, R358). DESIGN CHOICE (log 21). -/
def writeMapped (g n : Nat) (plain : Bytes) (d : Dev) : Dev :=
  let w := (mappedFrame d g (n / 64)).write g (regionOf d g) (n % 64) plain
  let d := metaUse true w.1.pfn { d with grn := { d.grn with frames := tset d.grn.frames (bufKey g (n / 64)) w.1 } }
  setRoot (countLines g w.2 d)

/-- An SA's 128-byte context as it stands (R318). -/
def contextBytes (d : Dev) (sa : Nat) : Bytes :=
  match tget d.kc.sas sa with
  | some x => Config.saContext x.key x.ka x.salt x.ssci x.suite x.gen x.owner x.attrs x.pn
  | none => []

/-- One of the two lines of an SA's context in the SA context store is written (R318). -/
def writeContextLine (sa half : Nat) (d : Dev) : Dev :=
  let b := (contextBytes d sa).drop (64 * half) ++ zeros 64
  writeMapped 0 (2 * sa + half) (b.take 64) d

def writeContext (sa : Nat) (d : Dev) : Dev := writeContextLine sa 1 (writeContextLine sa 0 d)

/-- A cache entry is evicted: its mutable fields are written back (R318), on up to two lines (R321). Which lines
they stand on is open. -/
def writeBack (sa : Nat) (d : Dev) : Dev :=
  let w := draw 2 d
  let d := if w.1.getLsbD 0 then writeContextLine sa 0 w.2 else w.2
  if w.1.getLsbD 1 then writeContextLine sa 1 d else d

/-- The page frame that holds an SA's context. -/
def contextFrame (d : Dev) (sa : Nat) : PageFrame := mappedFrame d 0 (2 * sa / 64)

/-- An SA's context is read: its lines verify (R349). -/
def contextSound (d : Dev) (sa : Nat) : Bool :=
  (contextFrame d sa).verifies 0 (regionOf d 0) (2 * sa % 64) && (contextFrame d sa).verifies 0 (regionOf d 0) ((2 * sa + 1) % 64)

/-! Page frames of buffers (R345, R351, R353). -/

/-- The first number from n on that has a property, among `fuel` numbers. -/
def seek (p : Nat → Bool) : Nat → Nat → Option Nat
  | 0, _ => none
  | fuel + 1, n => if p n then some n else seek p fuel (n + 1)

/-- Frames of a channel in use beside those that the start gave to mapped pages. -/
def framesUsed (d : Dev) (c : Nat) : List Nat :=
  (((d.grn.bufs.flatMap (fun b => b.2.pages)) ++ d.grn.frames.map (·.2)).filter (fun p => p.pfn / 2 ^ 19 == c)).map (·.pfn % 2 ^ 19)

/-- A free page frame of a channel for a queue's next page: the next one of the queue's open level-1 group there, else
the first of a group that is free, else the first free one (R353). DESIGN CHOICE (log 22). -/
def freeFrame (d : Dev) (k c : Nat) : Option Nat :=
  let used := framesUsed d c
  let low := startMapped d c
  let free := fun (f : Nat) => decide (low ≤ f) && decide (f < framesPerChannel) && !used.contains f
  let last := ((bufOf d k).pages.reverse.find? (fun p => p.pfn / 2 ^ 19 == c)).map (fun p => p.pfn % 2 ^ 19)
  let open' := last.bind (fun f => if f % 8 ≠ 7 && free (f + 1) then some (f + 1) else none)
  let group := (seek (fun g => (List.range 8).all (fun i => free (8 * g + i))) (used.length + 1) ((low + 7) / 8)).map (8 * ·)
  ((open'.or group).or (seek free (used.length + 1) low)).map (pfnOf c)

/-- One more page for a queue, within the region's quota (R345, R351). DESIGN CHOICE (log 22). -/
def addPage (o : Otp) (k : Nat) (d : Dev) : Option Dev :=
  let g := k / 2 ^ 20
  if (regionOf d g).quota ≤ pagesIn d g then none
  else match (nextChannel o d k).bind (fun c => (freeFrame d k c).map (fun pfn => (c, pfn))) with
    | none => none
    | some (c, pfn) =>
      let b := bufOf d k
      let p : PageFrame := ⟨pfn, PageCtr.fresh (regionOf d g).alloc, []⟩
      let d := setRegion g { regionOf d g with alloc := (regionOf d g).alloc + 1 } d
      some (setRoot (metaUse true pfn { d with
        grn := { d.grn with bufs := tset d.grn.bufs k { b with pages := b.pages ++ [p], tail := 0, line := [] }, left := tdel d.grn.left pfn },
        dsp := { d.dsp with channel := tset d.dsp.channel k c } }))

/-- A line of the newest page of a queue is written (R350). DESIGN CHOICE (log 22). -/
def writeLast (k line : Nat) (plain : Bytes) (d : Dev) : Dev :=
  let b := bufOf d k
  let g := k / 2 ^ 20
  match b.pages.getLast? with
  | some p =>
    let w := p.write g (regionOf d g) line plain
    let d := { d with grn := { d.grn with bufs := tset d.grn.bufs k { b with pages := b.pages.dropLast ++ [w.1] } } }
    setRoot (metaUse true p.pfn (countLines g w.2 d))
  | none => d

/-- More bytes for the newest page of a queue: they are assembled into lines on die, and each full line is written
(R350). DESIGN CHOICE (log 22). -/
def fillPage (k : Nat) (more : Bytes) (d : Dev) : Dev :=
  let a := (bufOf d k).tail
  let data := (bufOf d k).line ++ more
  let d := (List.range (data.length / 64)).foldl (fun d j => writeLast k (a / 64 + j) (slice data (64 * j) 64) d) d
  { d with grn := { d.grn with
    bufs := tset d.grn.bufs k { bufOf d k with tail := a + more.length, line := data.drop (data.length / 64 * 64) } } }

/-- Write bytes at the end of a buffered queue; none where the region has no free page frame for them. -/
def bufWrite (o : Otp) (k : Nat) (bytes : Bytes) (d : Dev) : Option Dev :=
  let b := bufOf d k
  let m := if b.pages.isEmpty then 0 else min bytes.length (4096 - b.tail)
  let d := if m = 0 then d else fillPage k (bytes.take m) d
  (List.range ((bytes.length - m + 4095) / 4096)).foldl (fun (x : Option Dev) i =>
    (x.bind (addPage o k)).map (fillPage k (slice bytes (m + 4096 * i) 4096))) (some d)

/-- Page frames are free again; their counter lines stay as they are (R345). -/
def freeFrames (ps : List PageFrame) (d : Dev) : Dev :=
  { d with grn := { d.grn with left := ps.foldl (fun t p => tset t p.pfn p.ctr) d.grn.left } }

/-- n bytes of a queue are read out; `empty`: nothing of it waits any more. A line that still is assembled on die is
written before a frame that ends in it leaves (R350). Every page read goes through the metadata cache; a page frame is
free again when its last byte has been read (R345, R349). -/
def bufRead (k n : Nat) (empty : Bool) (d : Dev) : Dev :=
  let b := bufOf d k
  let h := b.head + n
  let d := if n ≠ 0 && !b.line.isEmpty && (empty || decide (4096 * (b.pages.length - 1) + b.tail / 64 * 64 < h)) then
      writeLast k (b.tail / 64) (b.line ++ zeros (64 - b.line.length)) d
    else d
  let b := bufOf d k
  let d := if n = 0 then d else (b.pages.take ((h + 4095) / 4096)).foldl (fun d p => metaUse false p.pfn d) d
  if empty then freeFrames b.pages { d with grn := { d.grn with bufs := tdel d.grn.bufs k } }
  else
    freeFrames (b.pages.take (h / 4096)) { d with grn := { d.grn with
      bufs := tset d.grn.bufs k { b with pages := b.pages.drop (h / 4096), head := h % 4096 } } }

/-- Key of the yard pages of one path of a pair (R322). -/
def yardKey (n : Nat) (b : Bool) : Nat := bufKey 2 (2 * n + b1 b)

/-- A copy of a pair's path is stored in the Marshalling yard (R394). DESIGN CHOICE (log 22). -/
def yardStore (o : Otp) (n : Nat) (b : Bool) (bytes : Bytes) (d : Dev) : Option Dev := bufWrite o (yardKey n b) bytes d

/-- The yard pages of a pair are freed. -/
def yardFree (n : Nat) (d : Dev) : Dev := [false, true].foldl (fun d b => bufRead (yardKey n b) 0 true d) d

/-- Every buffer page of the device is freed (R364). -/
def freeBuffers (d : Dev) : Dev :=
  freeFrames (d.grn.bufs.flatMap (fun b => b.2.pages)) { d with grn := { d.grn with bufs := [] } }

/-! Standing reservations (R35, R379). -/

/-- Sum of the nominal rates of a Sheaf's clients, in bytes per second. -/
def sheafBytes (d : Dev) (i : Nat) : Nat :=
  ((d.lm.shadow.filter (fun c => descValid c.2 && descSheaf c.2 == i)).map (fun c => descRate c.2 * 125)).sum

/-- Client rate of a path pair, in bytes per second. -/
def pairBytes (d : Dev) (p : PathPair) : Nat :=
  if p.line then sheafBytes d p.a.carrier
  else match clientOfLine d p.a.carrier with
    | some c => match portOf d (lk 1 c) with | some q => portGbps q * 125000000 | none => 0
    | none => 0

/-- Bytes per second of every standing reservation, in quarters: 2.25 × client rate. -/
def reservedQ (d : Dev) : Nat :=
  9 * ((d.pth.pairs.map (fun p => if p.2.hitless then pairBytes d p.2 else 0)).sum
    + (d.lm.sheaves.map (fun s => if 20 < s.2.d then sheafBytes d s.1 else 0)).sum)

/-- The buffered-flow share of 3.2 TB/s, in quarters of a byte per second, scaled to the stacks of the variant. -/
def flowShareQ (o : Otp) : Nat := 3200000000000 * sectors o

/-- Bytes of the Marshalling yard that the hitless pairs reserve: 2 × client rate × D_p (R379). -/
def yardBytes (d : Dev) : Nat :=
  (d.pth.pairs.map (fun p => if p.2.hitless then 2 * pairBytes d p.2 * p.2.dp / 1000000 else 0)).sum

/-- Bytes of the skew buffer that the Sheaves reserve: the client rate × D (R189, R345 give no formula).
DESIGN CHOICE (log 22). -/
def skewBytes (d : Dev) : Nat :=
  (d.lm.sheaves.map (fun s => if 20 < s.2.d then sheafBytes d s.1 * s.2.d / 1000000 else 0)).sum

/-- Some standing reservation exists (R346). -/
def anyReservation (d : Dev) : Bool := decide (reservedQ d ≠ 0)

/-- The reservations fit the share and the quotas. -/
def reservationsFit (o : Otp) (d : Dev) : Bool :=
  decide (reservedQ d ≤ flowShareQ o) && decide (yardBytes d ≤ (regionOf d 2).quota * 4096)
    && decide (skewBytes d ≤ (regionOf d 3).quota * 4096)

end Sys2Proof.Machine
end

