-- ==== Sys2Proof/Machine/Placement.lean ====
section
/-!
DEFINITION. Placement (chapter 09): groups, their slices, spreading, moves as queued, the context cache.
-/
namespace Sys2Proof.Machine

/-! Slices (R23, R257). -/

def sliceOf (d : Dev) (n : Nat) : Slice := tgetD d.sl.slices n Slice.init
def setSlice (n : Nat) (x : Slice) (d : Dev) : Dev := { d with sl := { d.sl with slices := tset d.sl.slices n x } }

/-- Sector of a slice, and whether its number is a Siding's. -/
def sliceSector (n : Nat) : Nat := n / 36
def isSiding (n : Nat) : Bool := decide (32 ≤ n % 36)

/-- The Sidings of a sector. -/
def sectorSidings (s : Nat) : List Nat := (List.range 4).map (fun i => 36 * s + 32 + i)

/-! Groups (R309, R310). -/

/-- 0 client to line, 1 line to client. -/
def gidDir (gid : Nat) : Nat := gid / 64 % 2

def groupRate (d : Dev) (gid : Nat) : Nat :=
  if gid / 64 < 2 then
    match portOf d (lk 0 (gid % 64)) with | some p => portGbps p | none => 0
  else laneGbps (laneType d (gid % 64))

def groupW (d : Dev) (gid : Nat) : Nat := max 1 (groupRate d gid / 200)

/-- What a position of a group brings to its slice, in Gb/s. -/
def posRate (d : Dev) (gid : Nat) : Nat :=
  groupRate d gid / max 1 (match tget d.dsp.groups gid with | some g => g.slices.length | none => 1)

/-- A use of a slice: slice, direction and rate. -/
abbrev SliceUse := Nat × Nat × Nat

/-- The uses of slices by the positions of groups. -/
def servedUses (d : Dev) : List SliceUse :=
  d.dsp.groups.flatMap (fun g => g.2.slices.map (fun n => (n, gidDir g.1, posRate d g.1)))

/-- The uses that moves not yet switched over are to bring. -/
def claimedUses (d : Dev) : List SliceUse :=
  (d.dsp.moves.filter (fun p => p.2.obj.isNone && decide (p.2.phase ≤ 1))).map
    (fun p => (p.2.dst, gidDir p.2.group, posRate d p.2.group))

def useRate (us : List SliceUse) (n : Nat) : Nat := ((us.filter (fun u => u.1 == n)).map (fun u => u.2.2)).sum

/-- Rate placed on a slice, in Gb/s. -/
def sliceLoad (d : Dev) (n : Nat) : Nat := useRate (servedUses d) n

/-- A slice carries no group. -/
def sliceUnused (d : Dev) (n : Nat) : Bool := d.dsp.groups.all (fun g => !g.2.slices.contains n)

/-- A slice that no move goes to. -/
def unclaimed (d : Dev) (n : Nat) : Bool := d.dsp.moves.all (fun p => p.2.obj.isSome || p.2.dst != n)

/-- Room on a slice for a position of a group (R310): a slice of its own for a group of 200 Gb/s or more, else one with
groups of its direction and rate to spare. -/
def hasRoom (us : List SliceUse) (rate dir per n : Nat) : Bool :=
  let here := us.filter (fun u => u.1 == n)
  if 200 ≤ rate then here.isEmpty else here.all (fun u => u.2.1 == dir) && decide (useRate us n + per ≤ 200)

/-- The default latency class is 0 (R326). -/
def class1 (d : Dev) (gid : Nat) : Bool := tgetD d.dsp.classes gid 0 == 1

/-- The sectors of R311 in order, with the hints of R326 and their precedence (R327). -/
def sectorOrder (o : Otp) (d : Dev) (gid : Nat) : List Nat :=
  let line := sectorOf (gid % 64)
  let hint := match tget d.dsp.prefer gid with | some s => if class1 d gid then [] else [s] | none => []
  let client := if gid / 64 < 2 then match clientOfLine d (gid % 64) with | some c => [sectorOf c] | none => [] else []
  (hint ++ [line] ++ client ++ List.range (sectors o)).eraseDups.filter (· < sectors o)

/-- In-service positions that can take work. -/
def usable (o : Otp) (d : Dev) (n : Nat) : Bool :=
  decide (n < slices o) && !isSiding n && decide ((sliceOf d n).state ≤ 1) && !d.dsp.avoid.contains n

def candidates (o : Otp) (d : Dev) (gid : Nat) : List Nat :=
  ((sectorOrder o d gid).flatMap (fun s => (List.range 32).map (36 * s + ·))).filter (usable o d)

/-- The slices a record of R328 names. -/
def recordSlices (r : List Word) : List Nat :=
  (List.range (fld (r.getD 0 0) 19 16)).map (fun i =>
    fld (r.getD (1 + i / 4) 0) (8 * (i % 4) + 7) (8 * (i % 4)))

def recordOverride (r : List Word) : Bool := bit (r.getD 0 0) 31
def recordLock (r : List Word) : Bool := bit (r.getD 0 0) 30
def activeRecord (d : Dev) (gid : Nat) : List Word := tgetD d.dsp.active gid [0, 0, 0]

/-- Of some slices the first one with the least load. -/
def leastLoaded (load : Nat → Nat) (ns : List Nat) : Option Nat :=
  ns.find? (fun n => ns.all (fun m => decide (load n ≤ load m)))

/-- k more positions beside those of `acc`, on the least loaded slices of a pool: where no slice has room the slices that
remain are shared (R26, R312). -/
def spill (us : List SliceUse) (per : Nat) (pool : List Nat) : Nat → List Nat → List Nat
  | 0, acc => acc
  | k + 1, acc =>
    match leastLoaded (fun n => useRate us n + per * acc.count n) (pool ++ acc.filter (fun n => !pool.contains n)) with
    | some n => spill us per pool k (acc ++ [n])
    | none => acc

/-- A slice that a record names can serve: not under AVOID_SLICE, in service or replacing (R327, R329). -/
def recordUp (o : Otp) (d : Dev) (n : Nat) : Bool :=
  decide (n < slices o) && !d.dsp.avoid.contains n && (if isSiding n then (sliceOf d n).state == 5 else decide ((sliceOf d n).state ≤ 1))

/-- Slices for k positions of a group, none of those in `skip`: those with room in the order of R311, then the least
loaded of its direction, Sidings that have taken over among them (R312). -/
def slicesFor (o : Otp) (d : Dev) (us : List SliceUse) (gid per : Nat) (skip : List Nat) (k : Nat) : List Nat :=
  let dir := gidDir gid
  let c := candidates o d gid
  let free := (c.filter (fun n => !skip.contains n && hasRoom us (groupRate d gid) dir per n)).take k
  let all := c ++ ((sectorOrder o d gid).flatMap sectorSidings).filter (recordUp o d)
  spill us per (all.filter (fun n => us.any (fun u => u.1 == n && u.2.1 == dir))) (k - free.length) free

/-- Each position whose slice fails `up` takes the next spare one. -/
def substitute (up : Nat → Bool) : List Nat → List Nat → List Nat
  | [], _ => []
  | n :: t, spare => if up n then n :: substitute up t spare else match spare with
    | m :: rest => m :: substitute up t rest
    | [] => substitute up t []

/-- What others than a group use. -/
def otherUses (d : Dev) (gid : Nat) : List SliceUse :=
  let d := { d with dsp := { d.dsp with
    groups := tdel d.dsp.groups gid, moves := d.dsp.moves.filter (fun p => p.2.group != gid) } }
  servedUses d ++ claimedUses d

/-- Where a group goes (R310, R311, R327, R329), position by position. DEDUCED (log 37). -/
def placement (o : Otp) (d : Dev) (gid : Nat) : List Nat :=
  let us := otherUses d gid
  let r := activeRecord d gid
  if recordOverride r then
    let ss := recordSlices r
    let per := groupRate d gid / max 1 ss.length
    substitute (recordUp o d) ss (slicesFor o d us gid per ss (ss.filter (fun n => !recordUp o d n)).length)
  else slicesFor o d us gid (groupRate d gid / groupW d gid) [] (groupW d gid)

/-- A slice for one position that has to leave its own. -/
def spareSlice (o : Otp) (d : Dev) (gid : Nat) : Option Nat :=
  (slicesFor o d (servedUses d ++ claimedUses d) gid (posRate d gid) [] 1).head?

/-! Shares (R312). -/

/-- What the groups of a direction ask of a sector, and what the slices that serve them give: 200 Gb/s each. -/
def sectorDemand (us : List SliceUse) (s dir : Nat) : Nat :=
  ((us.filter (fun u => sliceSector u.1 == s && u.2.1 == dir)).map (fun u => u.2.2)).sum
def sectorSupply (us : List SliceUse) (s dir : Nat) : Nat :=
  200 * ((us.filter (fun u => sliceSector u.1 == s && u.2.1 == dir)).map (fun u => u.1)).eraseDups.length

/-- The share of a group in Gb/s: in each sector that cannot give every group its rate, in proportion to its rate.
DEDUCED (log 37). -/
def groupShare (d : Dev) (gid : Nat) : Nat :=
  match tget d.dsp.groups gid with
  | none => 0
  | some g =>
    let us := servedUses d
    let less := fun (n : Nat) =>
      let want := sectorDemand us (sliceSector n) (gidDir gid)
      let has := sectorSupply us (sliceSector n) (gidDir gid)
      posRate d gid * (want - has) / max 1 want
    if g.slices.isEmpty then 0 else groupRate d gid - (g.slices.map less).sum

/-- A group has its rate in full. -/
def fullShare (d : Dev) (gid : Nat) : Bool := decide (groupRate d gid ≤ groupShare d gid)

/-- A group can take one more frame: it has its rate, or what it took in the running tick is within its share.
DEDUCED (log 37). -/
def withinShare (d : Dev) (gid : Nat) : Bool :=
  match tget d.dsp.groups gid with
  | none => false
  | some g => !g.slices.isEmpty && (fullShare d gid || decide (g.bytes * 8 * 7 ≤ groupShare d gid * d.sys.sub * 4))

/-- Rate short across the device (R340). -/
def rateShort (d : Dev) : Nat := (d.dsp.groups.map (fun g => groupRate d g.1 - groupShare d g.1)).sum

/-- Slices in service or replacing. -/
def slicesWorking (o : Otp) (d : Dev) : Nat :=
  ((List.range (slices o)).filter (fun n =>
    if isSiding n then (sliceOf d n).state == 5 else (sliceOf d n).state != 7)).length

/-- DEDUCED (log 37). -/
def shortfallEvent (reason : Nat) (o : Otp) (d : Dev) : Dev :=
  emit 0 0x0681 (wd (reason * 2 ^ 16 + min (rateShort d) 0xFFFF)) (wd (slicesWorking o d)) d

/-- EVT_DSP_HINT_UNMET, at most once per object per 1,000 ticks (R340). -/
def hintUnmet (kind obj reason owner : Nat) (d : Dev) : Dev :=
  let k := kind * 2 ^ 20 + obj
  let recent := match tget d.dsp.unmet k with | some t => decide (d.sys.ticks < t + 1000) | none => false
  if recent then d
  else
    let ps := if owner = 0 then [0] else [0, owner]
    let d := { d with dsp := { d.dsp with unmet := tset d.dsp.unmet k d.sys.ticks } }
    emitOn ps 0x0682 (wd (kind * 2 ^ 28 + obj % 2 ^ 18)) (wd reason) d

/-- Slices take the direction of a group they serve. -/
def setDirs (gid : Nat) (ns : List Nat) (d : Dev) : Dev :=
  ns.foldl (fun d n => setSlice n { sliceOf d n with dir := gidDir gid } d) d

/-- Why a group could not have slices of a sector: a higher constraint, or no capacity there (R327, R340). -/
def unmetReason (o : Otp) (d : Dev) (gid s : Nat) : Nat :=
  let barred := d.dsp.avoid.any (fun n => sliceSector n == s && !isSiding n && decide (n < slices o) && decide ((sliceOf d n).state ≤ 1))
  if recordOverride (activeRecord d gid) || (class1 d gid && s != sectorOf (gid % 64)) || barred then 2 else 1

/-- The hints of a group that a placement does not honour are reported and kept (R327). -/
def hintCheck (o : Otp) (gid : Nat) (ss : List Nat) (d : Dev) : Dev :=
  let inside := fun (s : Nat) => !ss.isEmpty && ss.all (fun n => sliceSector n == s)
  let line := sectorOf (gid % 64)
  let d := if class1 d gid && !inside line then hintUnmet 4 gid (unmetReason o d gid line) 0 d else d
  match tget d.dsp.prefer gid with
  | some s => if inside s then d else hintUnmet 2 gid (unmetReason o d gid s) 0 d
  | none => d

/-- A group comes into being and is placed (R309 to R312). -/
def placeGroup (gid : Nat) (o : Otp) (d : Dev) : Dev :=
  let ss := placement o d gid
  let g : Group := ⟨ss, recordOverride (activeRecord d gid), false, 0, 0, 0, []⟩
  let d := setDirs gid ss { d with dsp := { d.dsp with groups := tset d.dsp.groups gid g } }
  let d := hintCheck o gid ss d
  if fullShare d gid then d else shortfallEvent 1 o d

/-! Commits (R337). -/

/-- A commit whose moves are all complete ends. -/
def commitCheck (d : Dev) : Dev :=
  match d.dsp.commit with
  | some (page, tag, true, n) =>
    if d.dsp.moves.any (fun p => p.2.cause == 4) then d
    else finish page tag 0x0612 stOk (wd n) { d with dsp := { d.dsp with commit := none } }
  | _ => d

/-- A group ceases to exist. -/
def dropGroup (gid : Nat) (d : Dev) : Dev :=
  commitCheck { d with dsp := { d.dsp with
    groups := tdel d.dsp.groups gid, moves := d.dsp.moves.filter (fun m => m.2.group != gid) } }

/-! Objects and their spreading (R298, R313). -/

/-- Key of an object word: kind and number. -/
def objKey (kind n : Nat) : Nat := kind * 2 ^ 18 + n
def objKind (k : Nat) : Nat := k / 2 ^ 18
def objNum (k : Nat) : Nat := k % 2 ^ 18

/-- Owner page of an object; line-mode streams belong to page 0. -/
def objOwner (d : Dev) (k : Nat) : Nat :=
  if objKind k < 2 then
    match tget d.fm.scs (objNum k) with
    | some x => match tget d.fm.secys x.secy with | some y => y.owner | none => 0
    | none => 0
  else 0

/-- The group an object's frames belong to. -/
def objGroup (d : Dev) (k : Nat) : Option Nat :=
  if objKind k < 2 then
    match tget d.fm.scs (objNum k) with
    | some sc => match tget d.fm.secys sc.secy with
      | some y => some (objKind k * 64 + y.line)
      | none => none
    | none => none
  else some (objKind k * 64 + objNum k % 64)

/-- A set of positions b to b + s − 1 covers a position of a group of n. -/
def covers (b s n p : Nat) : Bool := (List.range s).any (fun i => (b + i) % max 1 n == p)

/-- The other active objects of a group: those that carried a frame in this tick or the last one (R314). -/
def activeSpreads (d : Dev) (gid k : Nat) : List Spread :=
  (d.dsp.spreads.filter (fun p => p.1 != k && objGroup d p.1 == some gid && decide (0 < p.2.last + p.2.bytes))).map (·.2)

/-- The contexts and the measured load that other objects bring to the most filled position of a stripe set, and to the
set (R313, R314). -/
def setCost (xs : List Spread) (n s b : Nat) : Nat × Nat :=
  let at' := fun (p : Nat) => xs.filter (fun x => covers x.b x.s n p)
  let ps := (List.range s).map (fun i => (b + i) % max 1 n)
  let most := ps.foldl (fun a p => max a (at' p).length) 0
  (if most < 8 then 0 else most, (ps.map (fun p => ((at' p).map (fun x => x.last / max 1 x.s)).sum)).sum)

/-- b of an object's stripe set of width s: no more than 8 contexts on a slice where that can be, then the least measured
load, then the lowest (R313, R314). -/
def bestSet (d : Dev) (k gid s : Nat) : Nat :=
  match tget d.dsp.groups gid with
  | none => 0
  | some g =>
    let n := g.slices.length
    let xs := activeSpreads d gid k
    let bs := (List.range (max 1 (n / max 1 s))).map (· * s)
    let le := fun (x y : Nat × Nat) => decide (x.1 < y.1) || (x.1 == y.1 && decide (x.2 ≤ y.2))
    (bs.find? (fun b => bs.all (fun c => le (setCost xs n s b) (setCost xs n s c)))).getD 0

/-- How an object is spread; a new SC starts at s = W (R313). -/
def spreadOf (d : Dev) (k : Nat) : Spread :=
  match tget d.dsp.spreads k with
  | some sp => sp
  | none =>
    let gid := (objGroup d k).getD 128
    let w := if gid < 128 then groupW d gid else 1
    ⟨w, bestSet d k gid w, 0, 0, 0, 0, 0⟩

/-- The slices of a stripe set, in stripe-position order. -/
def stripeSlices (g : Group) (s b : Nat) : List Nat :=
  (List.range s).filterMap (fun i => g.slices[(b + i) % max 1 g.slices.length]?)

/-- The slice of an object's next frame of n bytes; its stripe counter advances (R313). -/
def nextSlice (k n : Nat) (d : Dev) : Option Nat × Dev :=
  match objGroup d k with
  | none => (none, d)
  | some gid => match tget d.dsp.groups gid with
    | none => (none, d)
    | some g =>
      let sp := spreadOf d k
      let pos := sp.b + sp.k % sp.s
      let sp := { sp with k := sp.k + 1, bytes := sp.bytes + n }
      let g' := { g with bytes := g.bytes + n, objs := addNat k g.objs }
      let d := { d with dsp := { d.dsp with spreads := tset d.dsp.spreads k sp, groups := tset d.dsp.groups gid g' } }
      (g.slices[pos % max 1 g.slices.length]?, d)

/-! Moves (R316, R317). -/

/-- Put a move at the end of the waiting moves. -/
def queueMove (group : Nat) (obj : Option (Nat × Nat × Nat)) (pos src dst cause : Nat) (d : Dev) : Dev :=
  let m : Move := ⟨group, obj, pos, src, dst, 0, 0, cause⟩
  let n := d.dsp.nextMove
  { d with dsp := { d.dsp with moves := tset d.dsp.moves n m, nextMove := n + 1 } }

/-- A group's slices, position by position. -/
def setSlices (gid : Nat) (ss : List Nat) (d : Dev) : Dev :=
  { d with dsp := { d.dsp with groups := tmod d.dsp.groups gid (fun g => { g with slices := ss }) } }

/-- The position of a group goes to a slice. -/
def setPosition (gid pos n : Nat) (d : Dev) : Dev :=
  match tget d.dsp.groups gid with
  | some g => setDirs gid [n] (setSlices gid (g.slices.set pos n) d)
  | none => d

/-- n moves are complete, for a cause of R340. -/
def countMoves (n cause : Nat) (d : Dev) : Dev :=
  if n = 0 then d
  else { d with dsp := { d.dsp with
    movesDone := d.dsp.movesDone + BitVec.ofNat 64 n, doneTick := d.dsp.doneTick + n
    causeTick := d.dsp.causeTick ||| 2 ^ min cause 3 } }

/-- A move is complete (R316, R340). -/
def moveDone (id : Nat) (m : Move) (d : Dev) : Dev :=
  countMoves 1 m.cause { d with dsp := { d.dsp with moves := tdel d.dsp.moves id } }

/-- The group a frame in flight belongs to. -/
def flightGroup (d : Dev) (f : Flight) : Option Nat := objGroup d (objKey (b1 f.rx) f.sc)

/-! The context cache (R318, R319). -/

/-- A hint asks for an SA to be pinned: PIN of its object, or class 1 of its group. -/
def hinted (d : Dev) (x : SaRec) : Bool :=
  d.dsp.pins.contains x.obj || (match objGroup d x.obj with | some g => class1 d g | none => false)

def hintedSas (d : Dev) : List (Nat × SaRec) := d.kc.sas.filter (fun x => x.2.state != 4 && hinted d x.2)

/-- An SA is pinned by a hint: of those that hints ask for, the 16,384 installed first (R319). DEDUCED (log 37). -/
def hintPinned (d : Dev) (sa : Nat) : Bool :=
  match tget d.kc.sas sa with
  | some x => x.state != 4 && hinted d x
      && decide (((hintedSas d).filter (fun y => decide (y.2.order < x.order))).length < 16384)
  | none => false

/-! SAs and schedules (R273, R275, R302). -/

def saOf (d : Dev) (i : Nat) : Option SaRec := tget d.kc.sas i
def setSa (i : Nat) (x : SaRec) (d : Dev) : Dev := { d with kc := { d.kc with sas := tset d.kc.sas i x } }

def kobjOf (d : Dev) (k : Nat) : KObj := tgetD d.kc.objs k ⟨[], none⟩
def setKobj (k : Nat) (x : KObj) (d : Dev) : Dev := { d with kc := { d.kc with objs := tset d.kc.objs k x } }

/-- The SA on an AN or key index of an object. -/
def saOn (d : Dev) (k an : Nat) : Option Nat := tget (kobjOf d k).an an

/-- The AN that a schedule takes an object to: g + 1 for a chain object. -/
def targetAn (d : Dev) (e : Nat × Nat) : Nat :=
  match tget d.kc.chains e.1 with
  | some c => (c.gen + 1) % 4
  | none => e.2

/-- The INSTALLED SA that a schedule takes an object to. -/
def targetSa (d : Dev) (e : Nat × Nat) : Option (Nat × SaRec) :=
  match saOn d e.1 (targetAn d e) with
  | some i => match saOf d i with | some x => if x.state = 1 then some (i, x) else none | none => none
  | none => none

/-- Objects of a schedule; KC_REKEY_ALL takes every chain. -/
def schedObjs (d : Dev) (s : Sched) : List (Nat × Nat) := if s.all then d.kc.chains.map (fun c => (c.1, 0)) else s.objs

/-- The pending schedule that names an SA, the one with the earliest T. DEDUCED (log 34). -/
def schedOf (d : Dev) (i : Nat) : Option (Nat × Sched) :=
  let mine := d.kc.scheds.filter (fun s => (schedObjs d s.2).any (fun e => (targetSa d e).map (·.1) == some i))
  mine.find? (fun s => mine.all (fun u => decide (s.2.t ≤ u.2.t)))

/-- A schedule names the SA, or has made it ACTIVE, and now lies between T − PRELOAD and T + W (R279, R319). -/
def schedPinned (d : Dev) (sa : Nat) : Bool :=
  let within := fun (lead t w : Nat) => reachedAt (timeNow d + lead * tickU) t && !reachedAt (timeNow d) (t + w * tickU)
  (match schedOf d sa with | some (_, s) => within s.lead s.t s.w | none => false)
    || (match (saOf d sa).bind (·.switched) with | some (id, t, w, _) => id < 0xFFE && within 0 t w | none => false)

/-- The other SA of the chain an SA belongs to (R319). -/
def companion (d : Dev) (sa : Nat) : Option Nat :=
  match tget d.kc.sas sa with
  | some x => if x.chain then
      (d.kc.sas.find? (fun y => y.1 != sa && y.2.obj == x.obj && y.2.chain && (y.2.state == 1 || y.2.state == 2))).map (·.1)
    else none
  | none => none

/-- The INSTALLED next generation of a chain whose ACTIVE SA is in the cache. -/
def chainPinned (d : Dev) (sa : Nat) : Bool :=
  match tget d.kc.sas sa, companion d sa with
  | some x, some c => x.state == 1 && d.dsp.cache.contains c
  | _, _ => false

/-- A frame of the SA is in flight: its context is never evicted (R318). -/
def saInFlight (d : Dev) (sa : Nat) : Bool := d.fm.flights.any (fun f => f.sa == sa)

/-- The entry to evict (R319). DEDUCED (log 37). -/
def cacheVictim (d : Dev) : Option Nat :=
  let free := d.dsp.cache.filter (fun sa => !saInFlight d sa)
  match free.find? (fun sa => !hintPinned d sa && !schedPinned d sa && !chainPinned d sa) with
  | some v => some v
  | none => free.find? (fun sa => !hintPinned d sa)

/-- Put a context into the cache, the most recently used; the evicted one is written back (R318, R319). -/
def cacheInsert (sa : Nat) (d : Dev) : Dev :=
  let rest := d.dsp.cache.filter (· != sa)
  let full := !decide (rest.length < 65536)
  let v := if full then cacheVictim d else none
  let d := match v with | some v => writeBack v d | none => d
  { d with dsp := { d.dsp with cache := rest.filter (fun x => some x != v) ++ [sa] } }

/-- A frame's SA is looked up: hit and touched, or missed. -/
def cacheLookup (sa : Nat) (d : Dev) : Bool × Dev :=
  if d.dsp.cache.contains sa then
    let d := cacheInsert sa d
    (true, { d with dsp := { d.dsp with hits := d.dsp.hits + 1 } })
  else (false, { d with dsp := { d.dsp with misses := d.dsp.misses + 1 } })

/-- The fetch of a line lane's context begins (R320). -/
def fetchStart (sa : Nat) (d : Dev) : Dev := { d with dsp := { d.dsp with fetching := addNat sa d.dsp.fetching } }

/-- A context is read from the SA context store into the cache (R318, R344). -/
def cacheRead (sa : Nat) (d : Dev) : Dev := cacheInsert sa (metaUse false (contextFrame d sa).pfn d)

/-- A context is fetched with its chain companion (R319). -/
def cacheFetch (sa : Nat) (d : Dev) : Dev :=
  match companion d sa with
  | some c => cacheRead sa (if d.dsp.cache.contains c then d else cacheRead c d)
  | none => cacheRead sa d

/-- A context is brought into the cache ahead of its use (R279, R321, R335). -/
def prefetch (sa : Nat) (d : Dev) : Dev :=
  if d.dsp.cache.contains sa then d
  else
    let d := cacheFetch sa d
    { d with dsp := { d.dsp with prefetches := d.dsp.prefetches + 1 } }

/-- Contexts pinned by hints (R335). -/
def pinnedCount (d : Dev) : Nat := min 16384 (hintedSas d).length

/-- Every context that hints pin is in the cache (R326). -/
def pinFetch (d : Dev) : Dev :=
  ((hintedSas d).filter (fun x => hintPinned d x.1)).foldl (fun d x => prefetch x.1 d) d

/-- A new SA that a hint asks for is pinned, or the hint is unmet: the limit has been reached (R319, R340). -/
def pinNew (sa : Nat) (d : Dev) : Dev :=
  match tget d.kc.sas sa with
  | none => d
  | some x =>
    if !hinted d x then d
    else if hintPinned d sa then prefetch sa d
    else if d.dsp.pins.contains x.obj then hintUnmet 1 x.obj 3 (objOwner d x.obj) d
    else hintUnmet 4 ((objGroup d x.obj).getD 0) 3 0 d

end Sys2Proof.Machine
end

