-- ==== Sys2Proof/Machine/SliceOps.lean ====
section
/-!
DEFINITION. What slices do (chapters 07 and 09): contexts, frames at a slice, isolation, slices taken out of
service and their replacement, Sidings, samples and bulk jobs on Sidings, entropy events.
-/
namespace Sys2Proof.Machine

/-! Slot counters (R606). -/

def slotOf (d : Dev) (n : Nat) : SlotCtr := tgetD d.tel.slots n SlotCtr.init
def setSlot (n : Nat) (x : SlotCtr) (d : Dev) : Dev := { d with tel := { d.tel with slots := tset d.tel.slots n x } }

/-- Cycles of a slice that accept live traffic or a bulk job, and wasted ones. DEDUCED (log 54). -/
def deliver (n c : Nat) (d : Dev) : Dev := setSlot n { slotOf d n with delivered := (slotOf d n).delivered + c } d
/-- DEDUCED (log 54). -/
def waste (n c : Nat) (d : Dev) : Dev := setSlot n { slotOf d n with wasted := (slotOf d n).wasted + c } d

/-- A slice counts in every state but OFF and OUT: its counting starts and stops with its state. -/
def setState (n st : Nat) (d : Dev) : Dev :=
  let x := slotOf d n
  let cc := (powerOf d (sliceSector n)).cc
  let was := x.since.isSome
  let now := st != 0 && st != 7
  let x := if now && !was then { x with since := some cc }
    else if !now && was then { x with counted := x.counted + (cc - x.since.getD cc), since := none }
    else x
  setSlot n x (setSlice n { sliceOf d n with state := st } d)

/-! Masks and key registers (R240, R244, R245, R250). -/

/-- n mask bytes of a slice's expander (R244, R245). DESIGN CHOICE (log 76). -/
def Slice.masks (x : Slice) (n : Nat) : Bytes × Slice :=
  ((List.range n).map (Config.maskByte x.expander), { x with expander := Config.maskNext x.expander n })

/-- The mask bits of n blocks on their way through the pipeline: 3,712 a block (R244). -/
def Slice.spend (x : Slice) (n : Nat) : Slice := { x with expander := Config.maskNext x.expander (464 * n) }

/-- A secret value split by fresh random bits. -/
def Slice.split (x : Slice) (b : Bytes) : (Bytes × Bytes) × Slice :=
  let r := x.masks b.length
  ((r.1, xorBytes b r.1), r.2)

/-- Blocks split by fresh random bits. -/
def Slice.splitBlocks (x : Slice) (bs : List Block) : (List Block × List Block) × Slice :=
  let r := x.masks (16 * bs.length)
  let ms := blocksOf bs.length r.1
  ((ms, List.zipWith (· ^^^ ·) bs ms), r.2)

/-- Bytes that the secrets of a context take. -/
def Ctx.size (c : Ctx) : Nat := 2 * (c.key1.length + c.auth1.length + 16 * c.hash1.length)

/-- The contexts that p holds for stay; the others leave, their registers overwritten with fresh random values (R240,
R585). -/
def Slice.keep (x : Slice) (p : Ctx → Bool) : Slice :=
  let gone := x.ctxs.filter (fun c => !p c)
  if gone.isEmpty then x
  else
    let r := x.masks (gone.map Ctx.size).sum
    { r.2 with ctxs := x.ctxs.filter p, vacant := r.1 }

/-- Every context leaves. -/
def Slice.wipe (x : Slice) : Slice := x.keep (fun _ => false)

/-- The key registers of a Siding are overwritten when a job ends (R250). -/
def Slice.clearKey (x : Slice) (n : Nat) : Slice := let r := x.masks n; { r.2 with vacant := r.1 }

/-! Sidings (R26, R253, R324). -/

/-- A Siding that no replacement holds: idle, recomputing samples or running bulk jobs. -/
def sidingFree (d : Dev) (n : Nat) : Bool := isSiding n && decide (2 ≤ (sliceOf d n).state) && decide ((sliceOf d n).state ≤ 4)

/-- The Sidings of the device, those of sector s first. -/
def sidingsFrom (o : Otp) (s : Nat) : List Nat :=
  sectorSidings s ++ ((List.range (sectors o)).filter (· != s)).flatMap sectorSidings

/-- The Siding of a sector kept for shadow verification: its lowest-numbered idle one. -/
def keptSiding (d : Dev) (s : Nat) : Option Nat :=
  if d.sl.shadowOn then
    (sectorSidings s).find? (fun n => (sliceOf d n).state == 2 || (sliceOf d n).state == 3)
  else none

def isKept (d : Dev) (n : Nat) : Bool := keptSiding d (sliceSector n) == some n

/-- The Siding that takes over, in the order of R26; last one used for droop relief (R324). DEDUCED (log 31). -/
def pickSiding (o : Otp) (d : Dev) (s : Nat) : Option Nat :=
  let all := sidingsFrom o s
  let free := all.filter (sidingFree d)
  let order := free.filter (fun n => sliceSector n == s && !isKept d n) ++ free.filter (fun n => sliceSector n == s)
    ++ free.filter (fun n => !isKept d n) ++ free
    ++ all.filter (fun n => (sliceOf d n).state == 5 && (sliceOf d n).replaced.isNone)
  order.head?

/-- Idle Sidings remaining. -/
def idleSidings (o : Otp) (d : Dev) : Nat :=
  ((sidingsFrom o 0).filter (fun n => decide (n < slices o) && sidingFree d n)).length

/-- The state of a free Siding follows from what runs on it. -/
def sidingRefresh (n : Nat) (d : Dev) : Dev :=
  if sidingFree d n then
    setState n (if d.sl.bulk.any (fun j => j.siding == some n) then 4
      else if d.sl.samples.any (fun x => x.siding == n || x.second == some n) then 3 else 2) d
  else d

/-- Waiting bulk jobs start, in acceptance order, on the lowest-numbered Siding with room (R253, R258).
DEDUCED (log 32). -/
def bulkAssign (o : Otp) (d : Dev) : Dev :=
  d.sl.bulk.foldl (fun d j =>
    if j.siding.isSome then d
    else
      let room := fun n => ((sliceOf d n).state == 2 || (sliceOf d n).state == 4) && !isKept d n
        && decide ((d.sl.bulk.filter (fun x => x.siding == some n)).length < 16)
      match (((List.range (sectors o)).flatMap sectorSidings).find? room) with
      | some n =>
        let jobs := d.sl.bulk.map (fun x => if x.page == j.page && x.tag == j.tag then { x with siding := some n } else x)
        sidingRefresh n { d with sl := { d.sl with bulk := jobs } }
      | none => d) d

/-- The key of a job, its text in the source, and where its text ends. -/
def BulkJob.key (j : BulkJob) : Bytes := xorBytes j.key1 j.key2
def BulkJob.text (j : BulkJob) : Bytes :=
  if j.mode = 4 then
    let t := j.source.drop j.aadLen
    if j.encrypt then t else t.take (t.length - 16)
  else j.source

/-- A job does its next n blocks: what they give, and the job with its chain state (R256, R258, R264). -/
def BulkJob.part (j : BulkJob) (n : Nat) : Bytes × BulkJob :=
  let t := (j.text.drop (16 * j.pos)).take (16 * n)
  if j.mode = 4 then
    let r := gcmPart j.key (j.iv.take 12) j.encrypt j.pos j.chain t
    (r.1, { j with pos := j.pos + n, chain := r.2 })
  else
    let r := bulkCipher j.mode j.encrypt j.key (blockBytes j.chain) t
    (r, { j with pos := j.pos + n, chain := toBlock (bulkChain j.mode j.encrypt (blockBytes j.chain) t r) })

/-- Jobs as they stand after a step of one of them. -/
def setJob (j : BulkJob) (d : Dev) : Dev :=
  { d with sl := { d.sl with bulk := d.sl.bulk.map (fun x => if x.page == j.page && x.tag == j.tag then j else x) } }

/-- A running job stops at a block boundary, a free number of whole blocks further on: they stand in its destination, its
chain state is kept (R256, R265). DEDUCED (log 32). -/
def bulkPause (j : BulkJob) (d : Dev) : BulkJob × Dev :=
  let left := j.text.length / 16 - j.pos
  let x := draw 32 d
  let r := j.part (x.1.toNat % (left + 1))
  (r.2, out (.hostWrite (j.dst + 16 * j.pos) r.1) x.2)

/-- The key registers of a Siding are overwritten as a job leaves it (R250). -/
def clearKey (j : BulkJob) (d : Dev) : Dev :=
  match j.siding with
  | some n => setSlice n ((sliceOf d n).clearKey (2 * j.key1.length)) d
  | none => d

/-- A sample of a slice's frames is skipped, or a frame that would have been one. -/
def skipSample (n : Nat) (d : Dev) : Dev := setSlice n { sliceOf d n with skipped := (sliceOf d n).skipped + 1 } d

/-- Everything leaves a Siding: its bulk jobs wait for another one with their chain state, its samples are
skipped (R256). -/
def clearSiding (o : Otp) (n : Nat) (d : Dev) : Dev :=
  let gone := d.sl.samples.filter (fun x => x.siding == n || x.second == some n)
  let d := gone.foldl (fun d x => skipSample x.slice d) d
  let samples := d.sl.samples.filter (fun x => !(x.siding == n || x.second == some n))
  let jobs := d.sl.bulk.filter (fun j => j.siding == some n)
  let d := jobs.foldl (fun d j =>
    let r := bulkPause j d
    setJob { r.1 with siding := none } (clearKey j r.2)) { d with sl := { d.sl with samples := samples } }
  bulkAssign o (gone.foldl (fun d x => sidingRefresh x.siding d) d)

/-! Contexts (R240, R249, R250). -/

/-- Whether the slice loader loads an SA's context: the SA is installed and its key may be used (R90); the owner page in
the context is the one recorded for the SA, and the slot's attributes admit the slice loader (R250). DEDUCED (log 31). -/
def loadable (d : Dev) (sa : Nat) : Bool :=
  match tget d.kc.sas sa with
  | some x => x.state != 4 && d.sys.mode != .locked && x.owner == objOwner d x.obj && x.attrs.testBit 2
  | none => false

/-- The context of an SA, its secrets split by fresh random bits (R241, R244). The powers of the hash subkey are 32,
one for each accumulator of the multiplier's latency. DEDUCED (log 31). -/
def Slice.newCtx (s : Slice) (sa : Nat) (x : SaRec) (ready : Bool) : Ctx × Slice :=
  let k := s.split x.key
  let a := k.2.split x.ka
  let h0 := hashKey (if x.suite = 0x11 then x.ka else x.key)
  let h := a.2.splitBlocks (powersFrom h0 32 h0)
  (⟨sa, x.gen, x.owner, k.1.1, k.1.2, a.1.1, a.1.2, h.1.1, h.1.2, ready⟩, h.2)

/-- The least recently used of eight resident contexts leaves. -/
def Slice.makeRoom (s : Slice) : Slice :=
  if s.ctxs.length < 8 then s
  else match (s.ctxs.find? (·.ready)).or s.ctxs.head? with
    | some v => s.keep (fun e => e.sa != v.sa)
    | none => s

/-- Start the load of a context; the least recently used one leaves where eight are resident. -/
def startLoad (n sa : Nat) (d : Dev) : Dev :=
  match tget d.kc.sas sa with
  | none => d
  | some x =>
    if (sliceOf d n).ctxs.any (fun c => c.sa == sa) then d
    else
      let c := (sliceOf d n).makeRoom.newCtx sa x false
      waste n 33 (setSlice n { c.2 with ctxs := c.2.ctxs ++ [c.1] } d)

/-- A context whose load the slice began early enough (R314): it is resident. -/
def loadNow (n sa : Nat) (d : Dev) : Dev :=
  if loadable d sa then
    let d := startLoad n sa d
    setSlice n { sliceOf d n with
      ctxs := (sliceOf d n).ctxs.map (fun c => if c.sa == sa then { c with ready := true } else c) } d
  else d

/-- A frame of n blocks goes through the pipeline under a resident context, now the most recently used one; a change of
context wastes 1 cc (R239, R606). -/
def useCtx (n sa blocks : Nat) (d : Dev) : Dev :=
  let x := sliceOf d n
  let cs := x.ctxs
  let d := if x.lastSa.isSome && x.lastSa != some sa then waste n 1 d else d
  setSlice n { x.spend blocks with
    ctxs := cs.filter (fun c => c.sa != sa) ++ cs.filter (fun c => c.sa == sa), lastSa := some sa } d

/-- Remove the contexts of an SA everywhere, as when it is destroyed. -/
def eraseCtx (sa : Nat) (d : Dev) : Dev :=
  let sls := d.sl.slices.map (fun p => (p.1, p.2.keep (fun c => c.sa != sa)))
  { d with sl := { d.sl with slices := sls }, dsp := { d.dsp with
    cache := d.dsp.cache.filter (· != sa), fetching := d.dsp.fetching.filter (· != sa) } }

/-! Flights at a slice. -/

def setFlight (f : Flight) (d : Dev) : Dev :=
  { d with fm := { d.fm with flights := d.fm.flights.map (fun x => if x.id == f.id then f else x) } }

def flightOf (d : Dev) (id : Nat) : Option Flight := d.fm.flights.find? (fun f => f.id == id)

/-- Bytes that a sample holds in the shadow buffer. -/
def Sample.bytes (x : Sample) : Nat := x.inp.length

/-- A frame that the Gleaner tagged while shadow verification was enabled: its inputs, its context's identity and its tag
are copied into the sector's shadow buffer of 64 KiB, or it is skipped (R253, R268). Whether it is there. -/
def takeSample (o : Otp) (g : Option Glean) (x : Sample) (d : Dev) : Bool × Dev :=
  if !(g.map (·.check)).getD false then (false, d)
  else
    let s := sliceSector x.slice
    let used := ((d.sl.samples.filter (fun y => sliceSector y.slice == s)).map (·.bytes)).sum
    let free := fun n => (sliceOf d n).state == 2 || (sliceOf d n).state == 3
    match (sidingsFrom o s).find? free with
    | some n =>
      if used + x.bytes ≤ 65536 && !(d.sys.mode = .locked) then
        (true, sidingRefresh n { d with sl := { d.sl with samples := d.sl.samples ++ [{ x with siding := n }] } })
      else (false, skipSample x.slice d)
    | none => (false, skipSample x.slice d)

/-- A mismatch at a slice: the isolation count, EVT_ISOLATION with the owner page of the context and the page that the
frame carries; a tagged frame's sample is skipped (R249, R253). -/
def isolate (n sa ctxOwner owner : Nat) (g : Option Glean) (d : Dev) : Dev :=
  let x := sliceOf d n
  let d := setSlice n { x with
    isolation := x.isolation + 1, isoTick := x.isoTick + 1
    skipped := if (g.map (·.check)).getD false then x.skipped + 1 else x.skipped } d
  emit 0 0x06E3 (wd (ctxOwner * 2 ^ 16 + owner * 2 ^ 8 + n)) (wd sa) d

/-- A frame is dropped whole at its slice and leaves a void token (R249, R315). -/
def isolationDrop (f : Flight) (ctxOwner : Nat) (d : Dev) : Dev :=
  setFlight { f with stage := .done, void := true, verdict := true } (isolate f.slice f.sa ctxOwner f.owner f.glean d)

/-- The SCI of a frame's secure channel. -/
def sciOf (d : Dev) (f : Flight) : Nat := match tget d.fm.scs f.sc with | some x => x.sci | none => 0

/-- A frame's first block enters the pipeline under its resident context. -/
def enterSlice (o : Otp) (f : Flight) (c : Ctx) (d : Dev) : Dev :=
  match tget d.kc.sas f.sa with
  | none => isolationDrop f c.owner d
  | some x =>
    let r := sliceResult x c (sciOf d f) f
    let d := useCtx f.slice f.sa (blockCount (f.inp.length - f.aad) + 1) (deliver f.slice f.cycles d)
    let t := takeSample o f.glean ⟨f.slice, f.sa, f.gen, f.owner, f.aad, f.inp, resultTag x c (sciOf d f) r, 0, none, none⟩ d
    let g := gleanStage 4 t.2 (f.glean.map (fun g => { g with slice := some f.slice, shadow := t.1 }))
    setFlight { r with stage := .sliced, glean := g } t.2

/-- The frames that wait at a slice advance in order: each is compared with the resident context (R249); one
whose context loads stalls the slice (R240). The fuel is the number of waiting frames. -/
def advanceLoop (o : Otp) (n : Nat) : Nat → Dev → Dev
  | 0, d => d
  | k + 1, d =>
    match d.fm.flights.find? (fun f => f.slice == n && f.stage == .loading) with
    | none => d
    | some f =>
      match (sliceOf d n).ctxs.find? (fun c => c.sa == f.sa) with
      | some c =>
        if !c.ready then d
        else if c.gen == f.gen && c.owner == f.owner then advanceLoop o n k (enterSlice o f c d)
        else advanceLoop o n k (isolationDrop f c.owner d)
      | none => if loadable d f.sa then startLoad n f.sa d else advanceLoop o n k (isolationDrop f 0 d)

/-- A slice accepts work: it is powered, in service or replacing, and its mask expander is seeded (R245). -/
def slicePowered (d : Dev) (n : Nat) : Bool :=
  let x := sliceOf d n
  (x.state == 1 || x.state == 5) && x.seeded

def advance (o : Otp) (n : Nat) (d : Dev) : Dev :=
  if slicePowered d n then advanceLoop o n d.fm.flights.length d else d

/-! Out of service (R26, R255, R256, R323, R331). -/

/-- Frames that wait at a slice are dispatched again, in order; a frame that has nowhere to go leaves a void token (R315,
R323). -/
def redispatch (n : Nat) (mine : Flight → Bool) (dest : Flight → Option Nat) (d : Dev) : Dev :=
  let one := fun (f : Flight) =>
    if f.slice != n || f.stage != .loading || !mine f then f
    else match dest f with
      | some m => { f with slice := m }
      | none => { f with stage := .done, void := true, verdict := true }
  { d with fm := { d.fm with flights := d.fm.flights.map one } }

/-- Void tokens for the frames in the pipeline of a lost slice (R315). -/
def voidPipe (n : Nat) (mine : Flight → Bool) (d : Dev) : Dev :=
  let one := fun (f : Flight) =>
    if f.slice == n && f.stage == .sliced && mine f then { f with stage := .done, void := true, verdict := true } else f
  { d with fm := { d.fm with flights := d.fm.flights.map one } }

/-- The frames of one group. -/
def ofGroup (d : Dev) (gid : Nat) (f : Flight) : Bool := flightGroup d f == some gid

/-- A record of R328 with slice m in the place of n. -/
def recordPut (n m : Nat) (r : List Word) : List Word :=
  let put := fun (w : Word) => (List.range 4).foldl (fun w i =>
    if fld w (8 * i + 7) (8 * i) = n then wd (w.toNat - n * 2 ^ (8 * i) + m * 2 ^ (8 * i)) else w) w
  if recordOverride r then [r.getD 0 0, put (r.getD 1 0), put (r.getD 2 0)] else r

/-- Everything that names slice n names slice m: positions, records in force, homes of relieved groups, sources of moves
that wait (R323, R329). -/
def moveGroups (n m : Nat) (d : Dev) : Dev :=
  let one := fun (ss : List Nat) => ss.map (fun x => if x == n then m else x)
  { d with dsp := { d.dsp with
    groups := d.dsp.groups.map (fun g => (g.1, { g.2 with slices := one g.2.slices }))
    active := d.dsp.active.map (fun r => (r.1, recordPut n m r.2))
    relief := d.dsp.relief.map (fun r => (r.1, { r.2 with moved := r.2.moved.map (fun g => (g.1, one g.2)) }))
    moves := d.dsp.moves.map (fun p => (p.1, if p.2.src == n && p.2.phase == 0 then { p.2 with src := m } else p.2)) } }

/-- Positions of groups on a slice. -/
def positionsOn (d : Dev) (n : Nat) : Nat := (d.dsp.groups.map (fun g => g.2.slices.count n)).sum

/-- No Siding is idle: each position of a lost slice goes to the slices that remain, with the frames that waited (R26,
R312). -/
def spreadOut (o : Otp) (n : Nat) (d0 : Dev) : Dev :=
  let d := (d0.dsp.groups.filter (fun g => g.2.slices.contains n)).foldl (fun d g =>
    (List.range g.2.slices.length).foldl (fun d i =>
      if g.2.slices.getD i 0 = n then match spareSlice o d g.1 with | some m => setPosition g.1 i m d | none => d
      else d) d) d0
  let dest := fun (f : Flight) => (flightGroup d0 f).bind (fun gid =>
    match tget d0.dsp.groups gid, tget d.dsp.groups gid with
    | some g0, some g => (g.slices[g0.slices.idxOf n]?).filter (· != n)
    | _, _ => none)
  let left := d.dsp.groups.map (fun g => (g.1, { g.2 with slices := g.2.slices.filter (· != n) }))
  redispatch n (fun _ => true) dest { d with dsp := { d.dsp with groups := left } }

/-- Moves that leave or target a lost slice (R331). DEDUCED (log 37). -/
def movesOfLost (o : Otp) (n : Nat) (d : Dev) : Dev :=
  commitCheck (d.dsp.moves.foldl (fun d p =>
    let m := p.2
    let mine := ofGroup d m.group
    if m.obj.isSome then d
    else if m.src == n && decide (1 ≤ m.phase) then
      let d := if m.phase = 1 then setPosition m.group m.pos m.dst d else d
      moveDone p.1 { m with cause := 1 } (voidPipe n mine (redispatch n mine (fun _ => some m.dst) d))
    else if m.dst == n then
      let back := if (sliceOf d m.src).state = 7 then (spareSlice o d m.group).getD m.src else m.src
      let d := if m.phase = 2 then setPosition m.group m.pos back d else d
      voidPipe n mine (redispatch n mine (fun _ => none) { d with dsp := { d.dsp with moves := tdel d.dsp.moves p.1 } })
    else d) d)

/-- A Siding that its groups have left is idle again. -/
def reliefSiding (n : Nat) (d : Dev) : Dev :=
  let x := sliceOf d n
  if isSiding n && x.state == 5 && sliceUnused d n && unclaimed d n then
    setState n 2 (setSlice n { x.wipe with dir := 0, replaced := none } d)
  else d

/-- A relieved group goes back to its own sector at once, with the frames that wait (R324). -/
def reliefHome (o : Otp) (d : Dev) (g : Nat × Group) : Dev :=
  match d.dsp.relief.findSome? (fun r => (r.2.moved.find? (fun x => x.1 == g.1)).map (·.2)) with
  | none => d
  | some home =>
    let d := { d with dsp := { d.dsp with
      moves := d.dsp.moves.filter (fun p => p.2.group != g.1 || p.2.obj.isSome)
      relief := d.dsp.relief.map (fun r => (r.1, { r.2 with moved := r.2.moved.filter (fun x => x.1 != g.1) }))
      groups := tset d.dsp.groups g.1 { g.2 with relief := false } } }
    (List.range g.2.slices.length).foldl (fun d i =>
      let old := g.2.slices.getD i 0
      let own := home.getD i old
      let next := if recordUp o d own then own else (spareSlice o d g.1).getD old
      if next = old then d
      else reliefSiding old (redispatch old (ofGroup d g.1) (fun _ => some next) (setPosition g.1 i next d))) d

/-- A Siding is taken for work of a direction: its bulk and shadow work stops, its relief groups go home (R256, R324). -/
def takeSiding (o : Otp) (m dir : Nat) (d : Dev) : Dev :=
  let d := (d.dsp.groups.filter (fun g => g.2.relief && g.2.slices.contains m)).foldl (reliefHome o) d
  let d := { d with dsp := { d.dsp with moves := d.dsp.moves.filter (fun p => p.2.obj.isSome || p.2.dst != m) } }
  let d := clearSiding o m (setState m 5 d)
  setSlice m { sliceOf d m with dir := dir } d

/-- The Siding takes over: every group and position of the slice is its own, the contexts of the slice are fetched for
it, what waits goes along (R256, R323). DEDUCED (log 31). -/
def takeOver (o : Otp) (n m : Nat) (d : Dev) : Dev :=
  let lost := sliceOf d n
  let d := takeSiding o m lost.dir d
  let ctxs := lost.ctxs.map (fun c => { c with ready := false })
  let d := setSlice m { sliceOf d m with replaced := some n, ctxs := ctxs } d
  redispatch n (fun _ => true) (fun _ => some m) (moveGroups n m d)

/-- A slice goes out of service for a reason (R26, R252, R269). DEDUCED (log 31). -/
def sliceOut (reason n : Nat) (o : Otp) (d : Dev) : Dev :=
  let x := sliceOf d n
  if x.state = 7 || n ≥ slices o then d
  else
    let works := !isSiding n || x.state == 5
    let d := movesOfLost o n (setState n 7 d)
    let d := if works then d else clearSiding o n d
    let dest := if works then pickSiding o d (sliceSector n) else none
    let carried := positionsOn d n
    let d := match dest with
      | some m => takeOver o n m d
      | none => spreadOut o n d
    let d := countMoves carried 1 (voidPipe n (fun _ => true) d)
    let d := setSlice n { (sliceOf d n).wipe with reason := reason, dir := 0, replaced := none } d
    let d := emit 0 0x06E0 (wd (dest.getD 0xFF * 2 ^ 16 + reason * 2 ^ 8 + n)) (wd (idleSidings o d)) d
    if works && decide (0 < carried) && dest.isNone then shortfallEvent 1 o d else d

/-- Frames at a slice advance; a third isolation mismatch within a tick takes it out of service (R249). -/
def sliceRun (o : Otp) (n : Nat) (d : Dev) : Dev :=
  let d := advance o n d
  if 3 ≤ (sliceOf d n).isoTick && !((sliceOf d n).state == 7) then sliceOut 3 n o d else d

/-- A context load ends: the frames that waited proceed (R240). DESIGN CHOICE (log 57). -/
def loadDone (n sa : Nat) (o : Otp) (d : Dev) : Dev :=
  let x := sliceOf d n
  if x.ctxs.any (fun c => c.sa == sa && !c.ready) && slicePowered d n then
    if loadable d sa then
      let ctxs := x.ctxs.map (fun c => if c.sa == sa then { c with ready := true } else c)
      let now := gleanStage 2 d
      let fl := d.fm.flights.map (fun f => if f.slice == n && f.stage == .loading && f.sa == sa then { f with glean := now f.glean } else f)
      sliceRun o n (setSlice n { x with ctxs := ctxs } { d with fm := { d.fm with flights := fl } })
    else sliceRun o n (setSlice n (x.keep (fun c => c.sa != sa)) d)
  else d

def execContextLoadDone (slice sa : Nat) (s : State) : Host.Outcome State Fault Refusal := run (loadDone slice sa) s

/-- The expander of a slice takes 256 bits from the key instance (R245). -/
def seedMask (n : Nat) (d : Dev) : Dev :=
  let r := keyBytes 32 d
  let x := sliceOf r.2 n
  setSlice n { x with seeded := true, expander := Config.maskSeed x.expander r.1 } r.2

/-- A slice's domain is powered up and its mask expander has its first seed (R245, R585). -/
def slicePowerUp (n : Nat) (o : Otp) (d : Dev) : Dev :=
  let d := seedMask n d
  let d := setSlice n { sliceOf d n with idle := 0 } d
  sliceRun o n (setState n (if isSiding n then 2 else 1) d)

end Sys2Proof.Machine
end

