-- ==== Sys2Proof/Machine/Dispatcher.lean ====
section
/-!
DEFINITION. The Dispatcher (chapter 09): moves, stripe widths, droop relief, hints, the expert placement table,
its commands and events.
-/
namespace Sys2Proof.Machine

/-! Objects (R121, R298). -/

/-- Kind, AN and number of an object word. -/
def ow (w : Word) : Nat := objKey (fld w 31 30) (fld w 17 0)
def owAn (w : Word) : Nat := fld w 27 26

/-- The object of a key exists: an SC of that direction, a line lane in line mode. -/
def objExists (d : Dev) (k : Nat) : Bool :=
  if objKind k < 2 then
    match tget d.fm.scs (objNum k) with | some x => x.tx == decide (objKind k = 0) | none => false
  else decide (objNum k < 64) && isLmLane d (objNum k)

/-- R121: a tenant page names an object of another page. -/
def objForbids (d : Dev) (page k : Nat) : Option Nat :=
  if page ≠ 0 && objExists d k && objOwner d k ≠ page then some 1 else none

/-- Bits of an object word that are not named are 0 (R298). -/
def owClean (w : Word) : Bool :=
  fld w 29 28 == 0 && fld w 25 18 == 0 && (decide (fld w 31 30 < 2) || fld w 17 6 == 0)

/-! Moves (R316, R317). -/

def moveOf (d : Dev) (id : Nat) : Option Move := tget d.dsp.moves id
def setMove (id : Nat) (m : Move) (d : Dev) : Dev := { d with dsp := { d.dsp with moves := tset d.dsp.moves id m } }

/-- Sector that counts a move against MOVE_LIMIT: that of its source slice. -/
def moveSector (m : Move) : Nat := if m.obj.isSome then sectorOf (m.group % 64) else sliceSector m.src

/-- Another move of the same group, or of the same object in it, runs. -/
def moveBlocked (d : Dev) (id : Nat) (m : Move) : Bool :=
  d.dsp.moves.any (fun p => p.1 != id && p.2.group == m.group && decide (1 ≤ p.2.phase)
    && (p.2.obj.isNone || m.obj.isNone || p.2.obj.map (·.1) == m.obj.map (·.1)))

/-- LOCK keeps a move from starting, but one that the table itself asks for or that leaves a slice under AVOID_SLICE
(R317, R327). DEDUCED (log 37). -/
def moveLocked (d : Dev) (m : Move) : Bool := recordLock (activeRecord d m.group) && decide (m.cause < 4)

/-- The contexts that the source slice holds for a group. -/
def groupCtxs (d : Dev) (gid n : Nat) : List Nat :=
  (sliceOf d n).ctxs.filterMap (fun c => match tget d.kc.sas c.sa with
    | some x => if objGroup d x.obj == some gid then some c.sa else none
    | none => none)

/-- The slices that take frames at a move's step 2. -/
def moveTargets (d : Dev) (m : Move) : List Nat :=
  match m.obj, tget d.dsp.groups m.group with
  | some (_, s, b), some g => (stripeSlices g s b).eraseDups
  | some _, none => []
  | none, _ => [m.dst]

/-- The contexts that a move brings to its targets: what the source slice holds for the group, or those of the SAs of the
object that carry frames. -/
def moveSas (d : Dev) (m : Move) : List Nat :=
  match m.obj with
  | some (k, _, _) => (d.kc.sas.filter (fun x => x.2.obj == k && (x.2.state == 2 || x.2.state == 3))).map (·.1)
  | none => groupCtxs d m.group m.src

/-- Step 1: the targets load the contexts. A target that is OFF is powered up first (R587). DEDUCED (log 37). -/
def moveStart (id : Nat) (_ : Otp) (d : Dev) : Dev :=
  match moveOf d id with
  | none => d
  | some m =>
    let s := moveSector m
    let n := tgetD d.dsp.started s 0
    let goal := moveTargets d m
    if m.phase ≠ 0 || moveBlocked d id m || moveLocked d m || fld d.dsp.prm0 7 0 ≤ n || !goal.all (slicePowered d) then d
    else
      let d := setMove id { m with phase := 1 } { d with dsp := { d.dsp with started := tset d.dsp.started s (n + 1) } }
      goal.foldl (fun d t => ((moveSas d m).filter (loadable d)).foldl (fun d sa => startLoad t sa d) d) d

def execMoveStart (id : Nat) (s : State) : Host.Outcome State Fault Refusal := run (moveStart id) s

/-- Step 2: from here frames of the position, or of the object's new set, go to the targets; a drain marker stands behind
the last one sent before. DEDUCED (log 37). -/
def switchover (id : Nat) (_ : Otp) (d : Dev) : Dev :=
  match moveOf d id with
  | none => d
  | some m =>
    let held := (moveTargets d m).all (fun t => (sliceOf d t).ctxs.all (fun c => c.ready || !(moveSas d m).contains c.sa))
    if m.phase ≠ 1 || !held then d
    else
      let d := match m.obj with
        | some (k, s, b) => { d with dsp := { d.dsp with spreads := tset d.dsp.spreads k { spreadOf d k with s := s, b := b, above := 0, under := 0 } } }
        | none => setPosition m.group m.pos m.dst d
      setMove id { m with phase := 2, marker := d.fm.nextFlight } d

def execMoveSwitchover (id : Nat) (s : State) : Host.Outcome State Fault Refusal := run (switchover id) s

/-- Frames that the drain marker still stands behind. -/
def draining (d : Dev) (m : Move) : Bool :=
  d.fm.flights.any (fun f => decide (f.id < m.marker) && f.stage != .done
    && (match m.obj with
      | some (k, _, _) => objKey (b1 f.rx) f.sc == k
      | none => f.slice == m.src && flightGroup d f == some m.group))

/-- Step 4. -/
def drainComplete (id : Nat) (o : Otp) (d : Dev) : Dev :=
  match moveOf d id with
  | none => d
  | some m =>
    if m.phase ≠ 2 || draining d m then d
    else commitCheck (bulkAssign o (reliefSiding m.src (moveDone id m d)))

def execMoveDrainComplete (id : Nat) (s : State) : Host.Outcome State Fault Refusal := run (drainComplete id) s

/-- R313: an object's stripe width doubles or halves, or its set goes where the measured load of the positions is less,
as a move. DEDUCED (log 37). -/
def stripeChange (k : Nat) (_ : Otp) (d : Dev) : Dev :=
  match objGroup d k with
  | none => d
  | some gid => match tget d.dsp.groups gid with
    | none => d
    | some g =>
      let sp := spreadOf d k
      let waits := d.dsp.moves.any (fun p => p.2.obj.map (·.1) == some k)
      let go := fun (s : Nat) => queueMove gid (some (k, s, bestSet d k gid s)) 0 0 0 0 d
      let cost := setCost (activeSpreads d gid k) g.slices.length sp.s
      let new := bestSet d k gid sp.s
      if 128 ≤ gid || waits || (tget d.dsp.spreads k).isNone then d
      else if !d.dsp.pins.contains k && 2 ≤ sp.above && sp.s * 2 ≤ groupW d gid then go (sp.s * 2)
      else if !d.dsp.pins.contains k && fld d.dsp.prm0 15 8 ≤ sp.under && 2 ≤ sp.s then go (sp.s / 2)
      else if (cost new).1 < (cost sp.b).1 || (cost new).2 + sp.last < (cost sp.b).2 then go sp.s
      else d

def execStripeWidthChange (obj : Nat) (s : State) : Host.Outcome State Fault Refusal := run (stripeChange obj) s

/-! Re-placement. -/

/-- A group's slices once its running moves have switched over. -/
def comingSlices (d : Dev) (gid : Nat) (g : Group) : List Nat :=
  (d.dsp.moves.filter (fun p => p.2.group == gid && p.2.obj.isNone && p.2.phase == 1)).foldl
    (fun ss p => ss.set p.2.pos p.2.dst) g.slices

/-- Moves of a group's positions that have not started are taken back. -/
def dropWaiting (gid : Nat) (d : Dev) : Dev :=
  { d with dsp := { d.dsp with moves := d.dsp.moves.filter (fun p => p.2.group != gid || p.2.obj.isSome || p.2.phase != 0) } }

/-- Each position of a group whose slice is to be another one becomes a move. -/
def moveTo (gid cause : Nat) (cur aim : List Nat) (d : Dev) : Dev :=
  (List.range aim.length).foldl (fun d i =>
    if cur.getD i 0 = aim.getD i 0 then d else queueMove gid none i (cur.getD i 0) (aim.getD i 0) cause d) d

/-- A group is placed again: its positions go where a record says, or keep their slices as far as its new ones hold them.
Where the number of positions changes, the new ones start on the slices the group has. The number of groups moved. -/
def replan (gid cause : Nat) (o : Otp) (d : Dev) : Nat × Dev :=
  match tget d.dsp.groups gid with
  | none => (0, d)
  | some g =>
    let d := dropWaiting gid d
    let want := placement o d gid
    let n := want.length
    let rec' := recordOverride (activeRecord d gid)
    let wide := fun (ss : List Nat) => (List.range n).map (fun i => ss.getD (i % max 1 ss.length) 0)
    let slices := if n = g.slices.length then g.slices else wide g.slices
    let cur := if n = g.slices.length then comingSlices d gid g else slices
    let aim := if rec' then want else substitute (want.contains ·) cur (want.filter (fun m => !cur.contains m))
    let d := hintCheck o gid want d
    let d := { d with dsp := { d.dsp with groups := tset d.dsp.groups gid { g with override := rec', slices := slices } } }
    if n = 0 || aim == cur && n == g.slices.length then (0, d) else (1, moveTo gid cause cur aim d)

/-- A slice comes under AVOID_SLICE: its work moves off; the work of a Siding that replaces a slice goes to one other
Siding (R326, R331). -/
def vacate (n : Nat) (o : Otp) (d : Dev) : Dev :=
  let gs := d.dsp.groups.filter (fun g => g.2.slices.contains n)
  let goes := fun (m : Nat) (g : Nat × Group) (d : Dev) => (List.range g.2.slices.length).foldl (fun d i =>
    if g.2.slices.getD i 0 = n then queueMove g.1 none i n m 5 d else d) d
  if isSiding n then
    if (sliceOf d n).state ≠ 5 then d
    else match (sidingsFrom o (sliceSector n)).find? (sidingFree d) with
      | none => hintUnmet 3 n 1 0 d
      | some m =>
        let d := takeSiding o m (sliceOf d n).dir d
        let d := setSlice m { sliceOf d m with replaced := (sliceOf d n).replaced } d
        reliefSiding n (gs.foldl (fun d g => goes m g d) d)
  else
    gs.foldl (fun d g =>
      let us := servedUses d ++ claimedUses d
      match (candidates o d g.1).find? (hasRoom us (groupRate d g.1) (gidDir g.1) (posRate d g.1)) with
      | some m => goes m g d
      | none => hintUnmet 3 n 1 0 d) d

/-! Droop relief (R324). -/

def reliefOf (d : Dev) (s : Nat) : Relief := tgetD d.dsp.relief s Relief.init
def setRelief (s : Nat) (x : Relief) (d : Dev) : Dev := { d with dsp := { d.dsp with relief := tset d.dsp.relief s x } }

/-- An element goes into a list in front of the first one that it may stand before. -/
def insertBy {α : Type} (le : α → α → Bool) (x : α) : List α → List α
  | [] => [x]
  | y :: t => if le x y then x :: y :: t else y :: insertBy le x t

/-- Groups of a sector that may leave it, highest rate first. -/
def reliefGroups (d : Dev) (s : Nat) : List (Nat × Group) :=
  let gs := d.dsp.groups.filter (fun g => g.2.slices.any (fun n => sliceSector n == s)
    && !recordLock (activeRecord d g.1) && !class1 d g.1 && !g.2.relief)
  gs.foldr (insertBy (fun a b => decide (groupRate d b.1 ≤ groupRate d a.1))) []

/-- Slices of other sectors that could take a position: free in-service capacity, then idle Sidings that are
not kept. -/
def reliefTarget (o : Otp) (d : Dev) (s gid : Nat) : Option Nat :=
  let us := servedUses d ++ claimedUses d
  let others := (List.range (sectors o)).filter (· != s)
  let inService := (others.flatMap (fun t => (List.range 32).map (36 * t + ·))).filter (fun n => usable o d n
    && hasRoom us (groupRate d gid) (gidDir gid) (posRate d gid) n)
  let spare := (others.flatMap sectorSidings).filter (fun n => sidingFree d n && !isKept d n && unclaimed d n && !d.dsp.avoid.contains n)
  (inService ++ spare).head?

/-- One group leaves the sector, position by position; none where no capacity remains. -/
def relieve (o : Otp) (s : Nat) (g : Nat × Group) (d : Dev) : Option Dev :=
  let d1 := (List.range g.2.slices.length).foldl (fun (x : Option Dev) i => x.bind (fun d =>
    let n := g.2.slices.getD i 0
    if sliceSector n != s then some d
    else (reliefTarget o d s g.1).map (fun m =>
      let d := if isSiding m then takeSiding o m (gidDir g.1) d else d
      queueMove g.1 none i n m 2 d))) (some d)
  d1.map (fun d =>
    let r := reliefOf d s
    setRelief s { r with moved := r.moved ++ [(g.1, g.2.slices)] }
      { d with dsp := { d.dsp with groups := tset d.dsp.groups g.1 { g.2 with relief := true } } })

/-- DEDUCED (log 37). -/
def reliefStart (s : Nat) (o : Otp) (d : Dev) : Dev :=
  let r := reliefOf d s
  if s ≥ sectors o || r.on || r.above < 2 then d
  else
    let d := setRelief s { r with on := true, calm := 0, moved := [] } d
    let gs := reliefGroups d s
    let x := gs.foldl (fun (p : Bool × Dev) g =>
      if p.1 then p else match relieve o s g p.2 with | some d => (false, d) | none => (true, p.2)) (false, d)
    let d := x.2
    let d := emit 0 0x0683 (wd (s * 2 ^ 16 + 1)) (wd (reliefOf d s).moved.length) d
    if x.1 then shortfallEvent 2 o d else d

def execDroopReliefStart (sector : Nat) (s : State) : Host.Outcome State Fault Refusal := run (reliefStart sector) s

/-- Where a position returns to as relief ends: its slice of before, where that is still in service and has room;
another one where it stands on a Siding. -/
def returnTo (o : Otp) (d : Dev) (gid now home : Nat) : Nat :=
  let us := servedUses d ++ claimedUses d
  if now = home then now
  else if recordUp o d home && hasRoom us (groupRate d gid) (gidDir gid) (posRate d gid) home then home
  else if isSiding now then (spareSlice o d gid).getD now
  else now

/-- The moved groups return (R324); relief moves that still wait are taken back. -/
def reliefEnd (s : Nat) (o : Otp) (d : Dev) : Dev :=
  let r := reliefOf d s
  if !r.on || r.calm < fld d.dsp.prm1 15 0 then d
  else
    let d := r.moved.foldl (fun d p =>
      let d := dropWaiting p.1 d
      match tget d.dsp.groups p.1 with
      | none => d
      | some g =>
        let d := { d with dsp := { d.dsp with groups := tset d.dsp.groups p.1 { g with relief := false } } }
        let cur := comingSlices d p.1 g
        (List.range cur.length).foldl (fun d i =>
          let now := cur.getD i 0
          let next := returnTo o d p.1 now (p.2.getD i now)
          if next = now then d else queueMove p.1 none i now next 2 d) d) d
    emit 0 0x0683 (wd (s * 2 ^ 16)) (wd r.moved.length) (setRelief s Relief.init d)

def execDroopReliefEnd (sector : Nat) (s : State) : Host.Outcome State Fault Refusal := run (reliefEnd sector) s

/-! What the Dispatcher does at a tick boundary (R313, R324, R333, R340). -/

def spreadTick (d : Dev) (sp : Spread) : Spread :=
  let rate := sp.bytes * 8
  let full := sp.s * 200 * 1000000
  { sp with
    bytes := 0, last := sp.bytes
    above := if fld d.dsp.prm0 31 24 * full < rate * 100 then sp.above + 1 else 0
    under := if rate * 100 < fld d.dsp.prm0 23 16 * full then sp.under + 1 else 0 }

def dspTick (o : Otp) (d : Dev) : Dev :=
  let d := if d.dsp.doneTick = 0 then d
    else emit 0 0x0680 (wd (d.dsp.causeTick * 2 ^ 16 + min d.dsp.doneTick 0xFFFF))
      (wd (min (d.dsp.moves.filter (fun p => decide (1 ≤ p.2.phase))).length 0xFFFF)) d
  let gs := d.dsp.groups.map (fun g => (g.1, { g.2 with active := g.2.objs.length, rate := g.2.bytes * 8 / 1000000, bytes := 0, objs := [] }))
  let sps := d.dsp.spreads.map (fun p => (p.1, spreadTick d p.2))
  let prm := d.dsp.prmNext.getD (d.dsp.prm0, d.dsp.prm1)
  let d := { d with dsp := { d.dsp with
    groups := gs, spreads := sps, doneTick := 0, causeTick := 0, started := [], prm0 := prm.1, prm1 := prm.2, prmNext := none } }
  let idle := d.sl.slices.map (fun p => (p.1, { p.2 with
    isoTick := 0, idle := if p.2.state == 1 && sliceUnused d p.1 then p.2.idle + 1 else 0 }))
  let d := { d with sl := { d.sl with slices := idle, sinceReseed := satInc 32 d.sl.sinceReseed } }
  (List.range (sectors o)).foldl (fun d s =>
    let r := reliefOf d s
    let below := (powerOf d s).belowTick
    setRelief s { r with
      above := if fld d.dsp.prm1 31 24 * 1750000 ≤ below * 100 then r.above + 1 else 0
      calm := if below = 0 then r.calm + 1 else 0 } d) d

/-- R587: an in-service position without work for 100 ticks is powered down, its contexts overwritten. -/
def idleDown (n : Nat) (_ : Otp) (d : Dev) : Dev :=
  let x := sliceOf d n
  if x.state = 1 && !isSiding n && 100 ≤ x.idle && sliceUnused d n && unclaimed d n then
    setSlice n { (sliceOf (setState n 0 d) n).wipe with seeded := false, dir := 0 } (setState n 0 d)
  else d

def execSliceIdlePowerDown (slice : Nat) (s : State) : Host.Outcome State Fault Refusal := run (idleDown slice) s

/-! Commands (R332 to R339). -/

/-- Slices in the layout of R328, 0xFF beyond them. -/
def sliceList (ss : List Nat) : List Word :=
  (List.range 2).map (fun j => wd ((List.range 4).map (fun i => ss.getD (4 * j + i) 0xFF * 2 ^ (8 * i))).sum)

def groupWords (d : Dev) (gid : Nat) : List Word :=
  match tget d.dsp.groups gid with
  | none => []
  | some g =>
    let wide := d.fm.scs.filter (fun c =>
      let k := objKey (b1 (!c.2.tx)) c.1
      objGroup d k == some gid && decide (1 < (spreadOf d k).s))
    [wd (flag g.override 31 + flag (recordLock (activeRecord d gid)) 30 + flag g.relief 29 + g.slices.length * 2 ^ 16 + gid)]
      ++ sliceList g.slices ++ [wd (min g.active 0xFFFF * 2 ^ 16 + min wide.length 0xFFFF), wd g.rate]

def cmdDspGroupGet : Cmd where
  code := 0x0600
  lenOk := lenIs 1
  bad := fun _ d r => firstBad [(0, rf r 0 31 8 == 0 && (tget d.dsp.groups (rf r 0 7 0)).isSome)]
  act := fun _ d r => (d, stOk, groupWords d (rf r 0 7 0))

def execDspGroupGet (r : NcsReq) (s : State) : Host.Outcome State Fault Refusal := run (command cmdDspGroupGet r) s

/-- The ACTIVE SA of an object. -/
def activeSa (d : Dev) (k : Nat) : Option Nat :=
  (d.kc.sas.find? (fun x => x.2.obj == k && x.2.state == 2)).map (·.1)

def placeWords (d : Dev) (k : Nat) : List Word :=
  let gid := (objGroup d k).getD 0
  let ss := match tget d.dsp.groups gid with | some g => g.slices | none => []
  let sp := spreadOf d k
  let set := (List.range sp.s).filterMap (fun i => ss[(sp.b + i) % max 1 ss.length]?)
  let sa := activeSa d k
  let cached := match sa with | some x => d.dsp.cache.contains x | none => false
  [wd (sp.s * 2 ^ 28 + flag cached 17 + flag (d.dsp.pins.contains k) 16 + gid)] ++ sliceList set ++ [wd (sa.getD 0xFFFFF)]

def cmdDspPlaceGet : Cmd where
  code := 0x0601
  tenants := true
  lenOk := lenIs 1
  forbids := fun _ d r => objForbids d r.page (ow (rw r 0))
  bad := fun _ d r => firstBad [(0, owClean (rw r 0) && objExists d (ow (rw r 0)))]
  act := fun _ d r => (d, stOk, placeWords d (ow (rw r 0)))

def execDspPlaceGet (r : NcsReq) (s : State) : Host.Outcome State Fault Refusal := run (command cmdDspPlaceGet r) s

/-- The twelve words of R335. -/
def dspStats (d : Dev) : List Word :=
  let x := d.dsp
  two x.hits ++ two x.misses ++ two x.missDrops ++ two x.prefetches ++ two x.movesDone
    ++ [wd (pinnedCount d), wd (65536 - x.cache.length)]

def cmdDspStatsGet : Cmd where
  code := 0x0602
  lenOk := lenIs 0
  act := fun _ d _ => (d, stOk, dspStats d)

def execDspStatsGet (r : NcsReq) (s : State) : Host.Outcome State Fault Refusal := run (command cmdDspStatsGet r) s

/-- A group ID names a port or lane of the variant. -/
def gidOk (o : Otp) (gid : Nat) : Bool := decide (gid % 64 < lanes o)

/-- Word 1 of a hint names an object of its kind. -/
def hintObjOk (o : Otp) (d : Dev) (r : NcsReq) : Bool :=
  match rf r 0 31 28 with
  | 1 => owClean (rw r 1) && objExists d (ow (rw r 1))
  | 3 => rf r 1 31 8 == 0 && decide (rf r 1 7 0 < slices o)
  | _ => rf r 1 31 8 == 0 && gidOk o (rf r 1 7 0)

def hintValueOk (o : Otp) (r : NcsReq) : Bool :=
  match rf r 0 31 28 with
  | 2 => decide (rf r 0 3 0 < sectors o)
  | 4 => decide (rf r 0 3 0 ≤ 1)
  | k => (k == 1 || k == 3) && rf r 0 3 0 == 0

def hintForbids (d : Dev) (r : NcsReq) : Option Nat :=
  if rf r 0 31 28 = 1 then objForbids d r.page (ow (rw r 1))
  else if r.page ≠ 0 && decide (rf r 0 31 28 ≤ 4) && decide (2 ≤ rf r 0 31 28) then some 1 else none

/-- Set or clear a hint (R326, R336). DEDUCED (log 37). -/
def hintSet (r : NcsReq) (o : Otp) (d : Dev) : Dev × Nat :=
  let on := bit (rw r 0) 27
  let g := rf r 1 7 0
  let w := d.dsp
  let pinned := fun (d' : Dev) => decide (16384 < (hintedSas d').length)
  match rf r 0 31 28 with
  | 1 =>
    let k := ow (rw r 1)
    let d' := { d with dsp := { w with pins := if on then addNat k w.pins else w.pins.filter (· != k) } }
    if on && pinned d' then (d, 0x8600)
    else if on then
      let gid := (objGroup d k).getD 0
      let narrow := decide ((spreadOf d' k).s < groupW d gid) && decide (objKind k < 2)
      (pinFetch (if narrow then queueMove gid (some (k, groupW d gid, bestSet d' k gid (groupW d gid))) 0 0 0 3 d' else d'), stOk)
    else (d', stOk)
  | 2 => ((replan g 3 o { d with dsp := { w with prefer := if on then tset w.prefer g (rf r 0 3 0) else tdel w.prefer g } }).2, stOk)
  | 3 =>
    let n := rf r 1 7 0
    if on && !w.avoid.contains n && decide (32 ≤ w.avoid.length) then (d, 0x8600)
    else if on then (vacate n o { d with dsp := { w with avoid := addNat n w.avoid } }, stOk)
    else ({ d with dsp := { w with avoid := w.avoid.filter (· != n) } }, stOk)
  | _ =>
    let d' := { d with dsp := { w with classes := if on then tset w.classes g (rf r 0 3 0) else tdel w.classes g } }
    if on && rf r 0 3 0 == 1 && pinned d' then (d, 0x8600)
    else (pinFetch (replan g 3 o d').2, stOk)

def cmdDspHintSet : Cmd where
  code := 0x0603
  tenants := true
  modes := runModes
  lenOk := lenIs 3
  forbids := fun _ d r => hintForbids d r
  bad := fun o d r => firstBad
    [(0, hintValueOk o r && rf r 0 26 4 == 0), (1, hintObjOk o d r), (2, rw r 2 == 0)]
  act := fun o d r => let x := hintSet r o d; (x.1, x.2, [])

def execDspHintSet (r : NcsReq) (s : State) : Host.Outcome State Fault Refusal := run (command cmdDspHintSet r) s

def hintWord (d : Dev) (r : NcsReq) : Word :=
  let g := rf r 1 7 0
  match rf r 0 31 28 with
  | 1 => wd (flag (d.dsp.pins.contains (ow (rw r 1))) 31)
  | 2 => match tget d.dsp.prefer g with | some s => wd (2 ^ 31 + s) | none => 0
  | 3 => wd (flag (d.dsp.avoid.contains g) 31)
  | _ => match tget d.dsp.classes g with | some v => wd (2 ^ 31 + v) | none => 0

def cmdDspHintGet : Cmd where
  code := 0x0604
  tenants := true
  lenOk := lenIs 2
  forbids := fun _ d r => hintForbids d r
  bad := fun o d r => firstBad
    [(0, decide (1 ≤ rf r 0 31 28) && decide (rf r 0 31 28 ≤ 4) && rf r 0 27 0 == 0), (1, hintObjOk o d r)]
  act := fun _ d r => (d, stOk, [hintWord d r])

def execDspHintGet (r : NcsReq) (s : State) : Host.Outcome State Fault Refusal := run (command cmdDspHintGet r) s

/-! The expert placement table (R328, R329, R337). -/

/-- Share of a record's group on each of its slices, in Gb/s. -/
def recordShare (d : Dev) (r : List Word) : Nat := groupRate d (fld (r.getD 0 0) 7 0) / max 1 (fld (r.getD 0 0) 19 16)

/-- A record may stand (R329). Other groups count where the shadow does not place them. -/
def recordOk (o : Otp) (d : Dev) (r : List Word) : Bool :=
  let w0 := r.getD 0 0
  let gid := fld w0 7 0
  let n := fld w0 19 16
  let ss := recordSlices r
  let clean := fld w0 29 20 == 0 && fld w0 15 8 == 0 && gidOk o gid
  if !recordOverride r then clean
  else
    let others := d.dsp.groups.filter (fun g => g.1 != gid && !recordOverride (tgetD d.dsp.shadow g.1 [0]))
    clean && decide (max 1 (groupW d gid) ≤ n) && decide (n ≤ 8) && ss.eraseDups.length == ss.length
      && (List.range 8).all (fun i => decide (i < n) || fld (r.getD (1 + i / 4) 0) (8 * (i % 4) + 7) (8 * (i % 4)) == 0xFF)
      && ss.all (fun s => decide (s < slices o) && !isSiding s && (sliceOf d s).state != 7 && !d.dsp.avoid.contains s
        && others.all (fun g => !g.2.slices.contains s || gidDir g.1 == gidDir gid)
        && decide ((others.map (fun g => if g.2.slices.contains s then groupRate d g.1 / g.2.slices.length else 0)).sum
          + recordShare d r ≤ 200))

def recordsOf (r : NcsReq) : List (List Word) :=
  (List.range (r.len / 3)).map (fun i => [rw r (3 * i), rw r (3 * i + 1), rw r (3 * i + 2)])

def cmdDspTableWrite : Cmd where
  code := 0x0610
  expert := true
  modes := runModes
  lenOk := fun r => r.len % 3 == 0 && decide (3 ≤ r.len) && decide (r.len ≤ 192)
  bad := fun o d r => firstBad ((List.range (r.len / 3)).map (fun i => (3 * i, recordOk o d ((recordsOf r).getD i []))))
  act := fun _ d r =>
    ({ d with dsp := { d.dsp with shadow := (recordsOf r).foldl (fun t x => tset t (fld (x.getD 0 0) 7 0) x) d.dsp.shadow } }, stOk, [])

def execDspTableWrite (r : NcsReq) (s : State) : Host.Outcome State Fault Refusal := run (command cmdDspTableWrite r) s

def cmdDspTableRead : Cmd where
  code := 0x0611
  expert := true
  lenOk := lenIs 1
  bad := fun o _ r => firstBad [(0, rf r 0 30 8 == 0 && gidOk o (rf r 0 7 0))]
  act := fun _ d r =>
    let t := if bit (rw r 0) 31 then d.dsp.shadow else d.dsp.active
    (d, stOk, (tgetD t (rf r 0 7 0) [0, 0, 0]).take 3)

def execDspTableRead (r : NcsReq) (s : State) : Host.Outcome State Fault Refusal := run (command cmdDspTableRead r) s

/-- The first record of the shadow that conflicts with another one: its group ID. -/
def shadowConflict (d : Dev) : Option Nat :=
  let rs := d.dsp.shadow.filter (fun r => recordOverride r.2)
  (rs.find? (fun r => (recordSlices r.2).any (fun s =>
    rs.any (fun q => (recordSlices q.2).contains s && gidDir q.1 != gidDir r.1)
      || decide (200 < (rs.map (fun q => if (recordSlices q.2).contains s then recordShare d q.2 else 0)).sum)))).map (·.1)

/-- DEDUCED (log 37). -/
def cmdDspTableCommit : Cmd where
  code := 0x0612
  expert := true
  modes := runModes
  event := true
  lenOk := lenIs 0
  bad := fun _ d _ => shadowConflict d
  busy := fun _ d _ => d.dsp.commit.isSome
  act := fun _ d r => ({ d with dsp := { d.dsp with commit := some (r.page, r.tag, false, 0), commitAt := d.sys.ticks } }, stAccepted, [])

def execDspTableCommit (r : NcsReq) (s : State) : Host.Outcome State Fault Refusal := run (command cmdDspTableCommit r) s

/-- At the tick boundary after a commit the shadow is active; the groups whose records changed move (R329). -/
def tableSwap (o : Otp) (d : Dev) : Dev :=
  match d.dsp.commit with
  | some (page, tag, false, _) =>
    if d.sys.ticks ≤ d.dsp.commitAt then d
    else
    let old := d.dsp.active
    let d := { d with dsp := { d.dsp with active := d.dsp.shadow } }
    let changed := (d.dsp.groups.map (·.1)).filter (fun g =>
      tgetD old g [] != activeRecord d g && (tget old g).isSome || (tget old g).isNone && (tget d.dsp.active g).isSome)
    let x := changed.foldl (fun (p : Nat × Dev) g => let y := replan g 4 o p.2; (p.1 + y.1, y.2)) (0, d)
    let d := x.2
    commitCheck { d with dsp := { d.dsp with commit := some (page, tag, true, x.1) } }
  | _ => d

def execDspTableSwap (s : State) : Host.Outcome State Fault Refusal := run tableSwap s

/-! Parameters (R330, R338). -/

def dspPrmOk (a b : Word) : Option Nat := firstBad
  [(0, decide (50 ≤ fld a 31 24) && decide (fld a 31 24 ≤ 100) && decide (1 ≤ fld a 23 16) && decide (fld a 23 16 ≤ 40)
      && decide (1 ≤ fld a 15 8) && decide (1 ≤ fld a 7 0)),
   (1, decide (1 ≤ fld b 31 24) && decide (fld b 31 24 ≤ 100) && fld b 23 16 == 0 && decide (1 ≤ fld b 15 0)
      && decide (fld b 15 0 ≤ 60000))]

def cmdDspParamWrite : Cmd where
  code := 0x0613
  expert := true
  modes := runModes
  lenOk := lenIs 2
  bad := fun _ _ r => dspPrmOk (rw r 0) (rw r 1)
  act := fun _ d r => ({ d with dsp := { d.dsp with prmNext := some (rw r 0, rw r 1) } }, stOk, [])

def execDspParamWrite (r : NcsReq) (s : State) : Host.Outcome State Fault Refusal := run (command cmdDspParamWrite r) s

/-- The record as last written. -/
def cmdDspParamRead : Cmd where
  code := 0x0614
  expert := true
  lenOk := lenIs 0
  act := fun _ d _ => match d.dsp.prmNext with
    | some p => (d, stOk, [p.1, p.2])
    | none => (d, stOk, [d.dsp.prm0, d.dsp.prm1])

def execDspParamRead (r : NcsReq) (s : State) : Host.Outcome State Fault Refusal := run (command cmdDspParamRead r) s

end Sys2Proof.Machine
end

