-- ==== Sys2Proof/Machine/Ether.lean ====
section
/-!
DEFINITION. How a frame is read: VLAN tags and EtherType (R124), PTP messages (R138, R444), and the change of a
correctionField with its UDP checksum (R139, R140).
-/
namespace Sys2Proof.Machine

def isVlan (e : Nat) : Bool := e == 0x8100 || e == 0x88A8

/-- Number of VLAN tags in front of the EtherType, at most two. -/
def tagCount (f : Bytes) : Nat := if isVlan (beAt f 12 2) then (if isVlan (beAt f 16 2) then 2 else 1) else 0

/-- Offset of the EtherType, and the EtherType. -/
def etherOff (f : Bytes) : Nat := 12 + 4 * tagCount f
def etherType (f : Bytes) : Nat := beAt f (etherOff f) 2

/-- Tag control words: outer and inner tag. -/
def outerTag (f : Bytes) : Nat := beAt f 14 2
def innerTag (f : Bytes) : Nat := beAt f 18 2

/-- Offset of the UDP header of a UDP datagram over IPv4 or IPv6. -/
def udpOff (f : Bytes) : Option Nat :=
  let p := etherOff f + 2
  if etherType f = 0x0800 then
    if beAt f p 1 / 16 = 4 && beAt f (p + 9) 1 = 17 && beAt f (p + 6) 2 % 8192 = 0 then some (p + 4 * (beAt f p 1 % 16)) else none
  else if etherType f = 0x86DD then
    if beAt f p 1 / 16 = 6 && beAt f (p + 6) 1 = 17 then some (p + 40) else none
  else none

/-- Destination UDP port. -/
def udpPort (f : Bytes) : Option Nat := (udpOff f).map (fun u => beAt f (u + 2) 2)

/-- A PTP frame of the bypass class (R124). -/
def isPtp (f : Bytes) : Bool := etherType f == 0x88F7 || udpPort f == some 319 || udpPort f == some 320

/-- Form of a PTP event message: 0 Ethernet, 1 IPv4, 2 IPv6, with the offset of its header (R138). -/
def ptpForm (f : Bytes) : Option (Nat × Nat) :=
  if etherType f = 0x88F7 then some (0, etherOff f + 2)
  else if udpPort f = some 319 then
    (udpOff f).map (fun u => (if etherType f = 0x0800 then 1 else 2, u + 8))
  else none

/-- A PTP message with its header at h is an event message of version 2 (R138). -/
def ptpEventAt (f : Bytes) (h : Nat) : Bool := decide (beAt f h 1 % 16 ≤ 3) && decide (beAt f (h + 1) 1 % 16 = 2)

/-- A frame carries a PTP event message. -/
def isPtpEvent (f : Bytes) : Bool := match ptpForm f with | some (_, h) => ptpEventAt f h | none => false

/-- A PTP event frame crosses a lane of a port, which measures its path by it (R446). DEDUCED (log 44). -/
def measurePath (side dir port : Nat) (f : Bytes) (d : Dev) : Dev :=
  if isPtpEvent f then
    let k := dk side dir port
    { d with tu := { d.tu with
      dCount := tset d.tu.dCount k (satInc 16 (tgetD d.tu.dCount k 0)), dBlock := tset d.tu.dBlock k (tgetD d.tu.dBlock k 0 + 1) } }
  else d

/-- Offset of the correctionField of a frame that the transparent clock of a pair corrects (R138, R152). -/
def ptpCorrects (p : PtpSet) (f : Bytes) : Option Nat :=
  if !p.enable then none
  else match ptpForm f with
    | none => none
    | some (form, h) =>
      let on := if form = 0 then p.eth else if form = 1 then p.ipv4 else p.ipv6
      if on && ptpEventAt f h && (p.anyDomain || beAt f (h + 4) 1 == p.domain) && decide (h + 34 ≤ f.length) then some (h + 8) else none

/-- Put bytes into a frame at an offset. -/
def patch (f : Bytes) (o : Nat) (b : Bytes) : Bytes := f.take o ++ b ++ f.drop (o + b.length)

/-- One's-complement sum of 16-bit words. -/
def onesAdd (a b : Nat) : Nat := (a + b) % 65536 + (a + b) / 65536

/-- RFC 1624: the checksum after four aligned 16-bit words changed from `old` to `new`. DEDUCED (log 24). -/
def sumUpdate (sum old new : Nat) : Nat :=
  let part := fun (v i : Nat) => v / 2 ^ (16 * i) % 65536
  let acc := (List.range 4).foldl (fun a i => onesAdd (onesAdd a (65535 - part old i)) (part new i)) (65535 - sum)
  65535 - acc

/-- The frame with its correctionField at o set, and its non-zero UDP checksum updated (R139, R140).
DEDUCED (log 24). -/
def correct (f : Bytes) (o : Nat) (add : Int) : Bytes :=
  let old := beAt f o 8
  let v := toSigned 64 old + add
  let new := ofSigned 64 (if v > 2 ^ 63 - 1 then 2 ^ 63 - 1 else v)
  let g := patch f o (beBytes 8 new)
  if etherType f = 0x88F7 then g
  else
    let c := o - 10
    let sum := beAt f c 2
    if sum = 0 then g
    else
      let s := sumUpdate sum old new
      patch g c (beBytes 2 (if s = 0 then 0xFFFF else s))

/-- The FCS that a finished frame is sent with: its CRC-32, or that CRC inverted (R135, R242). -/
def fcsOf (ok : Bool) (f : Bytes) : Nat := if ok then crc32 f else crc32 f ^^^ 0xFFFFFFFF

/-- Wire bytes of a frame: its length with FCS and 20 bytes of preamble and gap (R413 ff.). -/
def wireBytes (f : Bytes) : Nat := f.length + 24

/-- A frame padded to the shortest frame of 64 bytes with FCS. -/
def padded (f : Bytes) : Bytes := f ++ zeros (60 - f.length)

end Sys2Proof.Machine
end

