-- ==== Sys2Proof/Machine/EgressOps.lean ====
section
/-!
DEFINITION. Egress queues (chapter 12): storage and drops, shaper credit, the Timetable's gates, the start of a
frame on a port.
-/
namespace Sys2Proof.Machine

/-! Queues (R407, R412, R413, R416). -/

def lineQueue (port q : Nat) : Nat := port * 8 + q
def clientQueue (port : Nat) : Nat := 512 + port

def queueOf (d : Dev) (k : Nat) : Queue := tgetD d.sch.queues k Queue.init
def setQueue (k : Nat) (x : Queue) (d : Dev) : Dev := { d with sch := { d.sch with queues := tset d.sch.queues k x } }

/-- Length of a queued frame with its FCS. -/
def QFrame.size (f : QFrame) : Nat := f.bytes.length + 4

/-- Bytes of a queue's on-die store, and of its frames in the frame buffer. -/
def storeUsed (x : Queue) : Nat := (x.frames.map (fun f => if f.buffered then 0 else f.size)).sum
def buffered (x : Queue) : Nat := (x.frames.map (fun f => if f.buffered then f.size else 0)).sum

def limitBytes (x : Queue) : Nat := fld x.w2 22 0 * 4096

/-- Count a drop of a queue for a cause (R413, R431). DEDUCED (log 41). -/
def dropAt (k cause : Nat) (d : Dev) : Dev :=
  let x := queueOf d k
  setQueue k { x with
    drops := x.drops.set (cause - 1) (x.drops.getD (cause - 1) 0 + 1), dropTick := x.dropTick + 1, dropCause := cause } d

/-- Bytes of congestion buffering that a tick may take (R35), two crossings and metadata each. -/
def bufferBudget (o : Otp) (d : Dev) : Nat := (flowShareQ o - reservedQ d) / 9000

/-- A frame that ends on the way leaves its Gleaner record. -/
def lostFrame (f : QFrame) (d : Dev) : Dev := gleanFinish true f.glean d

/-- A frame arrives at a queue: on die while it may cut through, else into the frame buffer (R33, R412, R413).
DEDUCED (log 41). -/
def enqueue (o : Otp) (k : Nat) (f : QFrame) (d : Dev) : Dev :=
  let x := queueOf d k
  let f := { f with entered := rawNow d }
  if x.frames.isEmpty || (x.frames.all (fun q => !q.buffered) && decide (storeUsed x + f.size ≤ 32768)) then
    setQueue k { x with frames := x.frames ++ [f] } d
  else if limitBytes x < buffered x + f.size then lostFrame f (dropAt k 1 d)
  else if bufferBudget o d < d.sch.bufTick + f.size then lostFrame f (dropAt k 3 d)
  else match bufWrite o (bufKey 4 k) (f.bytes ++ zeros (f.size - f.bytes.length)) d with
    | none => lostFrame f (dropAt k 2 d)
    | some d =>
      let f := { f with buffered := true, glean := f.glean.map (fun g => { g with granary := true }) }
      setQueue k { queueOf d k with frames := x.frames ++ [f], viaBuffer := x.viaBuffer + 1 }
        { d with sch := { d.sch with bufTick := d.sch.bufTick + f.size } }

/-- Take a frame out of its queue by its place; its bytes of the frame buffer are read. -/
def takeFrame (k i : Nat) (d : Dev) : Dev :=
  let x := queueOf d k
  match x.frames[i]? with
  | none => d
  | some f =>
    let rest := x.frames.eraseIdx i
    let d := setQueue k { x with frames := rest } d
    if f.buffered then bufRead (bufKey 4 k) f.size (rest.all (fun q => !q.buffered)) d else d

/-- The frames of a queue that `keep` does not name are discarded with cause 6 (R413). DEDUCED (log 16). -/
def flushBut (keep : QFrame → Bool) (k : Nat) (d : Dev) : Dev :=
  let fs := (queueOf d k).frames
  let d := (fs.filter (fun f => !keep f)).foldl (fun d f => lostFrame f (dropAt k 6 d)) d
  bufRead (bufKey 4 k) 0 true (setQueue k { queueOf d k with frames := fs.filter keep } d)

def flushQueue (k : Nat) (d : Dev) : Dev := flushBut (fun _ => false) k d

/-- A key-channel frame of R293, by Zorral EtherType and subtype. -/
def keyChannelFrame (d : Dev) (f : QFrame) : Bool := beAt f.bytes 12 2 == d.fm.etype && beAt f.bytes 14 1 == 1

/-- Every queue of the device is flushed, as when it leaves SECURE and SERVICE; queue 7 keeps its key-channel
frames where `key` holds (R293, R423). -/
def flushAll (key : Bool) (d : Dev) : Dev :=
  d.sch.queues.foldl (fun d q =>
    flushBut (fun f => key && decide (q.1 < 512) && q.1 % 8 == 7 && !f.buffered && keyChannelFrame d f) q.1 d) d

/-! The shaper (R415). Credit in 1/14,000 byte: at RATE Mb/s a TU cycle brings RATE of them. -/

def rateOf (x : Queue) : Nat := fld x.w0 23 0
def burstU (x : Queue) : Int := (x.w1.toNat * 14000 : Nat)

/-- A queue with its credit brought up to now. DEDUCED (log 41). -/
def refill (d : Dev) (x : Queue) : Queue :=
  let c := x.credit + ((rateOf x * (rawNow d - x.creditAt) : Nat) : Int)
  { x with credit := if c > burstU x then burstU x else c, creditAt := rawNow d }

/-- DEDUCED (log 41). -/
def creditOk (d : Dev) (x : Queue) : Bool := rateOf x == 0 || decide (0 ≤ (refill d x).credit)

/-! The Timetable (R417 to R420). Lengths in units of network time, 2^-32 ns. -/

def ttOf (d : Dev) (p : Nat) : Timetable := tgetD d.sch.tts p Timetable.init
def setTt (p : Nat) (t : Timetable) (d : Dev) : Dev := { d with sch := { d.sch with tts := tset d.sch.tts p t } }

/-- Cycle time of a list in ns. -/
def cycleNs (l : List (Nat × Nat)) : Nat := (l.map (·.2)).sum

/-- Entry, and time left in it, at an offset into the cycle (in units). -/
def entryAt : List (Nat × Nat) → Nat → Nat × Nat
  | [], _ => (0, 0)
  | (_, n) :: t, off => if off < n * nsU then (0, n * nsU - off) else ((entryAt t (off - n * nsU)).1 + 1, (entryAt t (off - n * nsU)).2)

/-- Offset into the cycle at an instant: cycle k starts at base + k × C for every integer k. -/
def cycleOff (l : List (Nat × Nat)) (base t : Nat) : Nat :=
  (((t : Int) - base) % ((max 1 (cycleNs l) * nsU : Nat) : Int)).toNat

/-- How long a queue's gate stays open from entry i on, over a number of entries. -/
def openFrom (l : List (Nat × Nat)) (q : Nat) : Nat → Nat → Nat
  | 0, _ => 0
  | k + 1, i =>
    let e := l.getD (i % max 1 l.length) (0, 0)
    if e.1.testBit q then e.2 * nsU + openFrom l q k (i + 1) else 0

/-- How long a queue's gate stays open from an offset of the cycle on; none: for ever (R419). -/
def openRun (l : List (Nat × Nat)) (q off : Nat) : Option Nat :=
  if l.isEmpty || l.all (fun e => e.1.testBit q) then none
  else
    let e := entryAt l off
    if (l.getD e.1 (0, 0)).1.testBit q then some (e.2 + openFrom l q l.length (e.1 + 1)) else some 0

/-- The list that a swap will make active. -/
def shadowList (t : Timetable) (n : Nat) : List (Nat × Nat) := (List.range n).map (fun i => tgetD t.shadow i (0, 0))

/-- The gate of queue q of a port stays open from now for a length (R414, R419). -/
def gateOpen (d : Dev) (p q need : Nat) : Bool :=
  let t := ttOf d p
  let now := timeNow d
  let run := openRun t.active q (cycleOff t.active t.base now)
  match t.armed with
  | none => match run with | none => true | some r => decide (need ≤ r)
  | some (n, _, at') =>
    let left := at' - now
    let before := match run with | none => true | some r => decide (min need left ≤ r)
    let after := match openRun (shadowList t n) q 0 with | none => true | some r => decide (need ≤ left + r)
    before && (decide (need ≤ left) || after)

/-- The longest run for which a gate is ever open; none: for ever (R413 cause 4). -/
def longestRun (l : List (Nat × Nat)) (q : Nat) : Option Nat :=
  if l.isEmpty || l.all (fun e => e.1.testBit q) then none
  else some ((List.range l.length).foldl (fun m i => max m (openFrom l q l.length i)) 0)

/-- Wire time of a frame on a port, in units of network time. -/
def wireTime (gbps n : Nat) : Nat := n * 8 * nsU / max 1 gbps

/-- Wire time in TU cycles of 4/7 ns, rounded up. -/
def wireCycles (gbps n : Nat) : Nat := (n * 14 + max 1 gbps - 1) / max 1 gbps

/-! The start of a frame. -/

/-- Speed of the port at a port key. -/
def gbpsAt (d : Dev) (pk : Nat) : Nat := match portOf d pk with | some p => portGbps p | none => 0

/-- A port is free for its next frame. -/
def portFree (d : Dev) (pk : Nat) : Bool := decide (tgetD d.sch.busy pk 0 ≤ rawNow d)

/-- The oldest host PTP frame that waits for a port (R442). -/
def hostFrame (d : Dev) (pk : Nat) : Option PtpOut := d.tu.ptpOut.find? (fun x => lk x.side x.port == pk)

/-- A frame occupies a port from now on, or from the end of the frame that runs on it. -/
def occupy (pk n : Nat) (d : Dev) : Dev :=
  let start := max (rawNow d) (tgetD d.sch.busy pk 0)
  { d with sch := { d.sch with busy := tset d.sch.busy pk (start + wireCycles (gbpsAt d pk) n) } }

/-- Residence time of a frame from ball to ball, in units of network time (R139). DEDUCED (log 24). -/
def residence (d : Dev) (f : QFrame) (pk : Nat) : Int :=
  (span d.tu (rawNow d - f.arrival) : Int) + psU (pathDelay d (f.ingress / 64) 0 (f.ingress % 64))
    + psU (pathDelay d (pk / 64) 1 (pk % 64))

/-- A clear frame, or one to be sealed again, with its correctionField advanced (R139, R140). -/
def departing (d : Dev) (f : QFrame) (pk : Nat) : Bytes :=
  match f.ptp with
  | none => f.bytes
  | some o =>
    let add := residence d f pk / 65536
    match f.reseal with
    | none => correct f.bytes o add
    | some r =>
      let head := r.clear.take 12
      let tag := (r.clear.drop 12).take (tagLen r.clear)
      let plain := correct (head ++ r.clear.drop (12 + tagLen r.clear)) o add
      sealFrame r.key r.iv r.aad (head ++ tag ++ plain.drop 12)

/-- The line port that carries the copies of a port (R378, R409). -/
def copyPort (d : Dev) (l : Nat) : Option Nat :=
  (d.pth.pairs.find? (fun p => !p.2.line && p.2.a.carrier == l)).map (·.2.b.carrier)

/-- The port pair of a frame that goes out or came in on a port: counts a PTP correction (R143). -/
def countPair (c i : Nat) (d : Dev) : Dev :=
  match tget d.fm.pairs c with
  | some p => { d with fm := { d.fm with pairs := tset d.fm.pairs c { p with ctr := p.ctr.set i (p.ctr.getD i 0 + 1) } } }
  | none => d

/-- The client port of the pair that a port key belongs to. -/
def pairOfPort (d : Dev) (pk : Nat) : Option Nat := if pk < 64 then clientOfLine d pk else some (pk - 64)

/-- The frame at place i of a queue starts on its port (R414, R415). DEDUCED (log 24). -/
def startFrame (k i pk : Nat) (d : Dev) : Dev :=
  let x := refill d (queueOf d k)
  match x.frames[i]? with
  | none => d
  | some f =>
    let n := wireBytes f.bytes
    let bytes := departing d f pk
    let d := takeFrame k i (setQueue k { x with
      credit := x.credit - ((n * 14000 : Nat) : Int), sent := x.sent + 1, wire := x.wire + BitVec.ofNat 64 n } d)
    let d := measurePath (if pk < 64 then 0 else 1) 1 (pk % 64) ((f.reseal.map (·.clear)).getD f.bytes) d
    let d := match f.ptp, pairOfPort d pk with
      | some _, some c => countPair c 3 d
      | _, _ => d
    let ok := !(f.unchecked && f.bad)
    let d := out (.frame (if pk < 64 then 1 else 0) (pk % 64) bytes (fcsOf ok bytes)) (occupy pk n d)
    let d := match (if pk < 64 then copyPort d pk else none) with
      | some b => out (.frame 1 b bytes (fcsOf ok bytes)) (occupy (lk 0 b) n d)
      | none => d
    let d := if f.unchecked then { d with sch := { d.sch with onWire := d.sch.onWire ++ [(f.id, pk)] } } else d
    gleanFinish false (gleanStage 7 d f.glean) d

end Sys2Proof.Machine
end

