-- ==== Sys2Proof/Machine/Egress.lean ====
section
/-!
DEFINITION. Egress scheduling (chapter 12): selection, Timetable boundaries and swaps, samples, commands.
-/
namespace Sys2Proof.Machine

/-! Selection (R413 cause 4, R414). -/

/-- Whether a queue of a line port may send in the device's mode (R12, R293). -/
def modeSends (d : Dev) (q : Nat) : Bool :=
  match d.sys.mode with
  | .secure | .service => true
  | .staging => q == 7
  | _ => false

/-- Drop head frames whose wire time no gate opening of the running list holds. The fuel is the queue's length.
DEDUCED (log 41). -/
def dropGated (p q : Nat) : Nat → Dev → Dev
  | 0, d => d
  | n + 1, d =>
    let k := lineQueue p q
    match (queueOf d k).frames.head?, longestRun (ttOf d p).active q with
    | some f, some m =>
      if m < wireTime (gbpsAt d p) (wireBytes f.bytes) then dropGated p q n (takeFrame k 0 (lostFrame f (dropAt k 4 d))) else d
    | _, _ => d

/-- A frame of a SecY waits for an earlier one of that SecY in another queue of the port (R423): one that entered
before it or, at one instant, one of a queue that the SecY has left. DEDUCED (log 41). -/
def secyWaits (d : Dev) (p q : Nat) (f : QFrame) : Bool :=
  match f.secy with
  | none => false
  | some y => (List.range 8).any (fun k => k != q && (queueOf d (lineQueue p k)).frames.any (fun g =>
      g.secy == some y && (decide (g.entered < f.entered) || g.entered == f.entered && q == tgetD d.sch.secyQueue y 0)))

/-- A queue of a line port is eligible (R414). -/
def eligible (d : Dev) (p q : Nat) : Bool :=
  let x := queueOf d (lineQueue p q)
  match x.frames.head? with
  | some f => modeSends d q && !secyWaits d p q f && creditOk d x && gateOpen d p q (wireTime (gbpsAt d p) (wireBytes f.bytes))
  | none => false

/-- At a frame boundary of a port the next frame starts, or the port sends idle; a client port sends local fault where
the mode blocks traffic (R12). A host PTP frame goes ahead of every queue (R442). -/
def egressSelect (pk dt : Nat) (_ : Otp) (d : Dev) : Dev :=
  let d := passTime dt d
  if !portFree d pk || (hostFrame d pk).isSome then d
  else if pk < 64 then
    if !lineBound d pk then d
    else
      let d := (List.range 8).foldl (fun d q => dropGated pk q (queueOf d (lineQueue pk q)).frames.length d) d
      match [7, 6, 5, 4, 3, 2, 1, 0].find? (eligible d pk) with
      | some q => startFrame (lineQueue pk q) 0 pk d
      | none => d
  else if pk < 128 && egressBlocked d then out (blockedOutput d (pk - 64)) d
  else if pk < 128 && clientBound d (pk - 64) && modeSends d 0 then startFrame (clientQueue (pk - 64)) 0 pk d
  else d

def execEgressSelect (port : Nat) (dt : Nat) (s : State) : Host.Outcome State Fault Refusal := run (egressSelect port dt) s

/-! The Timetable (R418, R420, R421). -/

/-- The gates show the entry that the time gives. -/
def ttShow (p : Nat) (d : Dev) : Dev :=
  let t := ttOf d p
  if t.active.isEmpty then d else setTt p { t with entry := (entryAt t.active (cycleOff t.active t.base (timeNow d))).1 } d

/-- DEDUCED (log 42). -/
def ttBoundary (p dt : Nat) (_ : Otp) (d : Dev) : Dev := ttShow p (passTime dt d)

def execTtEntryBoundary (port : Nat) (dt : Nat) (s : State) : Host.Outcome State Fault Refusal := run (ttBoundary port dt) s

/-- An armed swap whose instant is reached takes place: the instant is the new base time. DEDUCED (log 42). -/
def ttSwapNow (p : Nat) (d : Dev) : Dev :=
  let t := ttOf d p
  match t.armed with
  | some (n, _, at') =>
    if reachedAt (timeNow d) at' then
      let l := shadowList t n
      let d := setTt p { active := l, base := at', entry := 0, shadow := (List.range n).zip l, armed := none } d
      emit 0 0x0980 (wd (p * 2 ^ 16 + n)) (wd (nsOf at')) d
    else d
  | none => d

def ttSwap (p dt : Nat) (_ : Otp) (d : Dev) : Dev := ttShow p (ttSwapNow p (passTime dt d))

def execTtSwap (port : Nat) (dt : Nat) (s : State) : Host.Outcome State Fault Refusal := run (ttSwap port dt) s

/-- A step of network time (R421). DEDUCED (log 42). -/
def ttStep (d : Dev) : Dev := d.sch.tts.foldl (fun d p => ttShow p.1 (ttSwapNow p.1 d)) d

/-- A re-arm: running lists restart at entry 0 with the present instant as base; armed swaps are cancelled (R421,
R436). DEDUCED (log 42). -/
def ttRearm (d : Dev) : Dev :=
  let now := timeNow d
  { d with sch := { d.sch with tts := d.sch.tts.map (fun p => (p.1, { p.2 with base := now, entry := 0, armed := none })) } }

/-! Samples (R422). -/

/-- Bin of a value under a shift. -/
def binOf (s v : Nat) : Nat :=
  if v < 2 ^ s then 0
  else match (List.range 14).find? (fun i => decide (v < 2 ^ (s + i + 1))) with
    | some i => i + 1
    | none => 15

def Hist.add (h : Hist) (s v : Nat) : Hist :=
  let i := binOf s v
  let n := h.bins.getD i 0
  { low := min h.low v, high := max h.high v, bins := h.bins.set i (min (n + 1) 0xFFFFFFFF),
    ovf := if 0xFFFFFFFF ≤ n + 1 then h.ovf ||| 2 ^ i else h.ovf }

/-- Depth in bytes and delay in ns of the frames that have not started. -/
def sampleQueue (d : Dev) (x : Queue) : Queue :=
  let depth := (x.frames.map (·.size)).sum
  let delay := match x.frames.head? with | some f => (rawNow d - f.entered) * 4 / 7 | none => 0
  { x with
    samples := satInc 32 x.samples
    depth := x.depth.add (fld x.w2 27 24) depth
    delay := x.delay.add (fld x.w2 31 28) delay }

/-- The queues of the device: eight of each bound line port, one of each bound client port (R407). -/
def allQueues (d : Dev) : List Nat :=
  d.fm.pairs.flatMap (fun p => (List.range 8).map (lineQueue p.2.line) ++ [clientQueue p.1])

/-- A sample is due once every 1,024 TU cycles (R422); a row in a period already sampled only passes its time.
DESIGN CHOICE (log 2). DEDUCED (log 41). -/
def queueSample (dt : Nat) (_ : Otp) (d : Dev) : Dev :=
  let d := passTime dt d
  let n := rawNow d / 1024
  if n = d.sch.sampled then d
  else
    let d := { d with sch := { d.sch with sampled := n } }
    (allQueues d).foldl (fun d k => setQueue k (sampleQueue d (queueOf d k)) d) d

def execQueueSample (dt : Nat) (s : State) : Host.Outcome State Fault Refusal := run (queueSample dt) s

/-- The drops of a tick are reported, at most once per queue per 1,000 ticks (R431). -/
def schTick (d : Dev) : Dev :=
  let d := d.sch.queues.foldl (fun d p =>
    let x := p.2
    if x.dropTick = 0 then d
    else
      let due := match x.dropEvt with | some t => decide (t + 1000 ≤ d.sys.ticks) | none => true
      let side := if p.1 < 512 then 0 else 1
      let w2 := side * 2 ^ 31 + x.dropCause * 2 ^ 24 + (if p.1 < 512 then p.1 / 8 * 2 ^ 16 + p.1 % 8 else (p.1 - 512) * 2 ^ 16)
      let d := setQueue p.1 { x with dropTick := 0, dropEvt := if due then some d.sys.ticks else x.dropEvt } d
      if due then emit 0 0x0981 (wd w2) (wd x.dropTick) d else d) d
  { d with sch := { d.sch with bufTick := 0 } }

/-! Commands (R424 to R430). -/

/-- A port word: the queue it names. -/
def pwClient (w : Word) : Bool := bit w 31
def egressKey (w : Word) : Nat := if pwClient w then clientQueue (fld w 21 16) else lineQueue (fld w 21 16) (fld w 2 0)

/-- Reserved bits of a port word are 0 (bit 30 where `top` allows it) and the port exists. -/
def egressPortOk (o : Otp) (top : Bool) (w : Word) : Bool :=
  (top || !bit w 30) && fld w 29 22 == 0 && fld w 15 3 == 0 && decide (fld w 21 16 < lanes o)

def rateOk (w : Word) : Bool := fld w 31 24 == 0 && decide (fld w 23 0 ≤ 1600000)
def burstOk (w : Word) : Bool := decide (84 ≤ w.toNat) && decide (w.toNat ≤ 16777216)

/-- A record is written, and its credit set to BURST (R415). -/
def recordQueue (d : Dev) (x : Queue) : Queue := { x with credit := burstU x, creditAt := rawNow d }

def cmdSchShapeSet : Cmd where
  code := 0x0900
  modes := runModes
  blank := false
  lenOk := lenIs 3
  bad := fun o _ r => firstBad [(0, egressPortOk o false (rw r 0) && !pwClient (rw r 0)), (1, rateOk (rw r 1)), (2, burstOk (rw r 2))]
  act := fun _ d r =>
    let k := egressKey (rw r 0)
    (setQueue k (recordQueue d { queueOf d k with w0 := rw r 1, w1 := rw r 2 }) d, stOk, [])

def execSchShapeSet (r : NcsReq) (s : State) : Host.Outcome State Fault Refusal := run (command cmdSchShapeSet r) s

/-- The three words of a PCP map may not name queue 7, nor use bit 4p + 3. -/
def pcpOk (w : Word) : Bool := (List.range 8).all (fun p => !bit w (4 * p + 3) && decide (fld w (4 * p + 2) (4 * p) < 7))

def cmdSchClassSet : Cmd where
  code := 0x0901
  modes := runModes
  blank := false
  lenOk := lenIs 3
  bad := fun o d r => firstBad
    [(0, if bit (rw r 0) 31 then rf r 0 30 22 == 0 && rf r 0 15 0 == 0 && decide (rf r 0 21 16 < lanes o)
        else rf r 0 30 14 == 0 && (tget d.fm.secys (rf r 0 13 0)).isSome),
     (1, if bit (rw r 0) 31 then pcpOk (rw r 1) else rf r 1 31 3 == 0 && decide (rf r 1 2 0 < 7)), (2, rw r 2 == 0)]
  act := fun _ d r =>
    let x := d.sch
    let x := if bit (rw r 0) 31 then { x with pcp := tset x.pcp (rf r 0 21 16) (rw r 1) }
      else { x with secyQueue := tset x.secyQueue (rf r 0 13 0) (rf r 1 2 0) }
    ({ d with sch := x }, stOk, [])

def execSchClassSet (r : NcsReq) (s : State) : Host.Outcome State Fault Refusal := run (command cmdSchClassSet r) s

/-- The nine counts of R427. -/
def queueCounts (x : Queue) : List (BitVec 64) := [x.sent, x.wire] ++ x.drops ++ [x.viaBuffer]

def cmdSchStatsGet : Cmd where
  code := 0x0902
  lenOk := lenIs 1
  bad := fun o _ r => firstBad [(0, egressPortOk o false (rw r 0))]
  act := fun _ d r => (d, stOk, (queueCounts (queueOf d (egressKey (rw r 0)))).flatMap two)

def execSchStatsGet (r : NcsReq) (s : State) : Host.Outcome State Fault Refusal := run (command cmdSchStatsGet r) s

def sampleWords (x : Queue) : List Word :=
  [wd (fld x.w2 31 28 * 2 ^ 28 + fld x.w2 27 24 * 2 ^ 24 + flag (x.delay.ovf != 0) 1 + flag (x.depth.ovf != 0) 0),
   wd x.samples, wd x.depth.low, wd x.depth.high, wd x.delay.low, wd x.delay.high]
    ++ x.depth.bins.map wd ++ x.delay.bins.map wd ++ [wd x.depth.ovf, wd x.delay.ovf]

def cmdSchSampleGet : Cmd where
  code := 0x0903
  lenOk := lenIs 1
  bad := fun o _ r => firstBad [(0, egressPortOk o true (rw r 0))]
  act := fun _ d r =>
    let k := egressKey (rw r 0)
    let x := queueOf d k
    (if bit (rw r 0) 30 then setQueue k { x with samples := 0, depth := Hist.init, delay := Hist.init } d else d, stOk, sampleWords x)

def execSchSampleGet (r : NcsReq) (s : State) : Host.Outcome State Fault Refusal := run (command cmdSchSampleGet r) s

def ttWords (d : Dev) (p : Nat) : List Word :=
  let t := ttOf d p
  let on := !t.active.isEmpty
  let c := cycleNs t.active
  let done := if on then (((timeNow d : Int) - t.base) / ((max 1 c * nsU : Nat) : Int)) else 0
  let e := if on then (entryAt t.active (cycleOff t.active t.base (timeNow d))).1 else 0
  [wd (flag on 31 + flag t.armed.isSome 30 + t.active.length), wd c, wd (secOf t.base), wd (nsOf t.base), wd e, wd (ofSigned 32 done)]

def cmdSchTtStatus : Cmd where
  code := 0x0904
  blank := false
  lenOk := lenIs 1
  bad := fun o _ r => firstBad [(0, rf r 0 31 22 == 0 && rf r 0 15 0 == 0 && decide (rf r 0 21 16 < lanes o))]
  act := fun _ d r => (d, stOk, ttWords d (rf r 0 21 16))

def execSchTtStatus (r : NcsReq) (s : State) : Host.Outcome State Fault Refusal := run (command cmdSchTtStatus r) s

def cmdSchQueueWrite : Cmd where
  code := 0x0910
  expert := true
  modes := runModes
  blank := false
  lenOk := lenIs 4
  bad := fun o _ r => firstBad [(0, egressPortOk o false (rw r 0)), (1, rateOk (rw r 1)), (2, burstOk (rw r 2)),
    (3, !bit (rw r 3) 23 && decide (rf r 3 22 0 ≤ 4194304))]
  act := fun _ d r =>
    let k := egressKey (rw r 0)
    (setQueue k (recordQueue d { queueOf d k with w0 := rw r 1, w1 := rw r 2, w2 := rw r 3 }) d, stOk, [])

def execSchQueueWrite (r : NcsReq) (s : State) : Host.Outcome State Fault Refusal := run (command cmdSchQueueWrite r) s

def cmdSchQueueRead : Cmd where
  code := 0x0911
  expert := true
  blank := false
  lenOk := lenIs 1
  bad := fun o _ r => firstBad [(0, egressPortOk o false (rw r 0))]
  act := fun _ d r => let x := queueOf d (egressKey (rw r 0)); (d, stOk, [x.w0, x.w1, x.w2])

def execSchQueueRead (r : NcsReq) (s : State) : Host.Outcome State Fault Refusal := run (command cmdSchQueueRead r) s

/-- Word 0 of the Timetable table commands: port and first index; bit 31 where `top` allows it. -/
def ttWord0 (o : Otp) (top : Bool) (w : Word) : Bool :=
  (top || !bit w 31) && fld w 30 22 == 0 && fld w 15 10 == 0 && decide (fld w 21 16 < lanes o)

def durationOk (n : Nat) : Bool := decide (50 ≤ n) && decide (n ≤ 4000000000)

def cmdSchTtWrite : Cmd where
  code := 0x0912
  expert := true
  modes := runModes
  blank := false
  lenOk := fun r => decide (2 ≤ r.len) && r.len == 2 + 2 * (rw r 1).toNat
  bad := fun o _ r => firstBad ([(0, ttWord0 o false (rw r 0)),
      (1, decide (1 ≤ (rw r 1).toNat) && decide ((rw r 1).toNat ≤ 126) && decide (rf r 0 9 0 + (rw r 1).toNat ≤ 1024))]
    ++ (List.range (min 126 (rw r 1).toNat)).flatMap (fun i =>
      [(2 + 2 * i, rf r (2 + 2 * i) 31 8 == 0), (3 + 2 * i, durationOk (rw r (3 + 2 * i)).toNat)]))
  act := fun _ d r =>
    let p := rf r 0 21 16
    let t := ttOf d p
    let sh := (List.range (rw r 1).toNat).foldl (fun s i =>
      tset s (rf r 0 9 0 + i) (rf r (2 + 2 * i) 7 0, (rw r (3 + 2 * i)).toNat)) t.shadow
    (setTt p { t with shadow := sh } d, stOk, [])

def execSchTtWrite (r : NcsReq) (s : State) : Host.Outcome State Fault Refusal := run (command cmdSchTtWrite r) s

def cmdSchTtRead : Cmd where
  code := 0x0913
  expert := true
  blank := false
  lenOk := lenIs 2
  bad := fun o _ r => firstBad [(0, ttWord0 o true (rw r 0)),
    (1, decide (1 ≤ (rw r 1).toNat) && decide ((rw r 1).toNat ≤ 126) && decide (rf r 0 9 0 + (rw r 1).toNat ≤ 1024))]
  act := fun _ d r =>
    let t := ttOf d (rf r 0 21 16)
    (d, stOk, (List.range (rw r 1).toNat).flatMap (fun i =>
      let j := rf r 0 9 0 + i
      let e := if bit (rw r 0) 31 then tgetD t.shadow j (0, 0) else t.active.getD j (0, 0)
      [wd e.1, wd e.2]))

def execSchTtRead (r : NcsReq) (s : State) : Host.Outcome State Fault Refusal := run (command cmdSchTtRead r) s

/-- B_new of a commit. -/
def ttBase (r : NcsReq) : Nat := instant (rf r 1 15 0 * 2 ^ 32 + (rw r 2).toNat) (rw r 3).toNat

/-- The swap instant: B_new, or the first boundary of the running cycle at or after it (R420). -/
def swapInstant (t : Timetable) (b : Nat) : Nat :=
  if t.active.isEmpty then b
  else
    let c := max 1 (cycleNs t.active) * nsU
    let off := cycleOff t.active t.base b
    if off = 0 then b else b + (c - off)

/-- DEDUCED (log 13). -/
def cmdSchTtCommit : Cmd where
  code := 0x0914
  expert := true
  modes := runModes
  blank := false
  lenOk := lenIs 4
  bad := fun o d r =>
    let n := rf r 0 10 0
    let c := cycleNs (shadowList (ttOf d (rf r 0 21 16)) n)
    let now := timeNow d
    let b := ttBase r
    firstBad [(0, rf r 0 31 22 == 0 && rf r 0 15 11 == 0 && decide (rf r 0 21 16 < lanes o) && decide (n ≤ 1024)
        && (n == 0 || decide (1000 ≤ c) && decide (c ≤ 4000000000)
          && (shadowList (ttOf d (rf r 0 21 16)) n).all (fun e => durationOk e.2))),
      (1, rf r 1 31 16 == d.tu.epoch % 65536), (3, decide ((rw r 3).toNat < 1000000000)),
      (2, reachedAt b (now + 2 * tickU) && reachedAt (now + 60 * secU) b)]
  busy := fun _ d r => (ttOf d (rf r 0 21 16)).armed.isSome
  act := fun _ d r =>
    let p := rf r 0 21 16
    let t := ttOf d p
    let at' := swapInstant t (ttBase r)
    (setTt p { t with armed := some (rf r 0 10 0, ttBase r, at') } d, stOk, [wd (secOf at'), wd (nsOf at')])

def execSchTtCommit (r : NcsReq) (s : State) : Host.Outcome State Fault Refusal := run (command cmdSchTtCommit r) s

end Sys2Proof.Machine
end

