-- ==== Sys2Proof/Machine/KeyStore.lean ====
section
/-!
DEFINITION. Key store, derivation and attestation (chapter 15): slots and their use, the internal keys, the
vault and its recovery, sealed key messages, provisioning, attestation.
-/
namespace Sys2Proof.Machine

/-! Slots (R493 to R498). -/

/-- Key length of a slot type (R494). -/
def typeLen : Nat → Option Nat
  | 0x01 => some 16
  | 0x02 => some 32
  | 0x03 => some 32
  | 0x04 => some 32
  | 0x05 => some 48
  | 0x10 => some 48
  | 0x11 => some 4896
  | 0x18 => some 97
  | 0x19 => some 2592
  | _ => none

/-- The public types (R494). -/
def publicType (t : Nat) : Bool := t == 0x18 || t == 0x19

/-- The slot of number n that holds a key. A persistent slot from 2 on is unrecoverable while the vault is
lost (R503). -/
def slotRec (d : Dev) (n : Nat) : Option Slot :=
  if n < 256 then (if n < 2 || !d.ks.kv.isEmpty then tget d.ks.flash n else none) else tget d.ks.ram n

/-- The key of a slot: its two shares combined (R498). A slot that an agreement has filled holds the KEK with the KCK
behind it (R291). -/
def Slot.key (s : Slot) : Bytes := if s.source = 3 then (xorBytes s.share1 s.share2).take 32 else xorBytes s.share1 s.share2
def Slot.kck (s : Slot) : Bytes := if s.source = 3 then (xorBytes s.share1 s.share2).drop 32 else []

/-- Put a slot record at number n. -/
def putSlot (n : Nat) (s : Slot) (d : Dev) : Dev :=
  let d := { d with ks := { d.ks with wiped := tdel d.ks.wiped n } }
  if n < 256 then { d with ks := { d.ks with flash := tset d.ks.flash n s } }
  else { d with ks := { d.ks with ram := tset d.ks.ram n s } }

/-- Leave a slot empty: its key is overwritten with random bytes (R510, R520). -/
def dropSlot (n : Nat) (d : Dev) : Dev :=
  match slotRec d n with
  | none => d
  | some s =>
    let r := keyBytes s.share1.length d
    let d := { r.2 with ks := { r.2.ks with wiped := tset r.2.ks.wiped n r.1 } }
    if n < 256 then { d with ks := { d.ks with flash := tdel d.ks.flash n } }
    else { d with ks := { d.ks with ram := tdel d.ks.ram n } }

/-- A slot record with its key split by a fresh random value (R498). -/
def newSlot (typ owner attrs source : Nat) (key : Bytes) (d : Dev) : Slot × Dev :=
  let r := keyBytes key.length d
  (⟨typ, owner, attrs, source, r.1, xorBytes key r.1⟩, r.2)

/-- The attribute bits (R495). -/
def attrSlice : Nat := 2
def attrPke : Nat := 3
def attrKdu : Nat := 4
def worldS : Nat := 8
def worldN : Nat := 9

/-- Why a page may not use a slot through a master from a world (R496): the reason, none where it may. A
slot of page 0 or of the issuing page fits. -/
def slotUse (o : Otp) (owner master world : Nat) (s : Slot) : Option Nat :=
  if s.owner ≠ owner || !s.attrs.testBit master then some 1
  else if !s.attrs.testBit world then some 3
  else if !s.attrs.testBit (12 + o.life.code) then some 4
  else none

/-! Internal keys and identity (R499 to R502). -/

/-- A fixed input of the KDF of R285: the label, 0x00, the data, L as 32 bits. -/
def fixedInput (label : String) (data : Bytes) (bits : Nat) : Bytes := ascii label ++ [0#8] ++ data ++ beBytes 4 bits

/-- A secret of n bytes goes from OTP to its consumer as the shares r and secret XOR r, with a fresh r (R497). -/
def delivered (n : Nat) (d : Dev) : Dev := (keyBytes n d).2

def internalKey (label : String) (data : Bytes) : Bytes := kdf Config.deviceSecret (fixedInput label data 256) 256
def keyW (d : Dev) : Bytes := internalKey "BALSEVY WRAP" d.ks.kv
def keyC (d : Dev) : Bytes := internalKey "BALSEVY CSEAL" d.ks.kv
def keyCtr (h : Nat) : Bytes := internalKey "BALSEVY CTR" (beBytes 1 h)

/-- The sealing seeds: 64 bytes for ML-KEM-1024, then the P-384 candidate. -/
def sealSeeds : Bytes := kdf Config.deviceSecret (fixedInput "BALSEVY SEALKEY" [] 960) 960
def sealKem : Bytes := sealSeeds.take 64
def sealEc : Bytes := Config.ecKey (sealSeeds.drop 64)

/-- Encapsulation key and sealing point (R502, R516). -/
def sealPublic : Bytes := Config.kemPublic sealKem ++ Config.ecPublic sealEc

/-- The identity as derived, and as it is read: from OTP in RETIRED (R502). -/
def derivedIdentity : Bytes := (sha384 sealPublic).take 32
def identityOf (o : Otp) : Bytes := if o.life = .retired then o.identity else derivedIdentity

/-! Vault and counters (R503, R504). -/

def slotCtrOf (d : Dev) (n : Nat) : Nat := tgetD d.ks.slotCtr n 0
def pageCtrOf (d : Dev) (p : Nat) : Nat := tgetD d.ks.pageCtr p 0

/-- The flash record of counter n (0 to 255 of a slot, from 256 on of a page) under H burns: its value and its
HMAC (R504). DEDUCED (log 47). -/
def counterRecord (h n c : Nat) : Bytes := beBytes 4 c ++ hmac384 (keyCtr h) (beBytes 2 n ++ beBytes 4 c)

/-- The flash record of a persistent slot; an erased one holds random bytes. DEDUCED (log 47). -/
def recordOf (d : Dev) (n : Nat) (s : Option Slot) (ctr : Nat) : Bytes :=
  match s with
  | some s => Config.slotRecord (keyW d) n ctr s.typ s.owner s.attrs s.source s.key
  | none => tgetD d.ks.wiped n []

/-- The value of SEAL over the counter records and the slot records as they stand (R503). -/
def sealNow (o : Otp) (d : Dev) : Bytes :=
  let counters := (List.range 256).flatMap (fun n => counterRecord o.h n (slotCtrOf d n))
    ++ (List.range 65).flatMap (fun p => counterRecord o.h (256 + p) (pageCtrOf d p))
  let digests := (List.range 256).flatMap (fun n =>
    sha384 (recordOf d n (tget d.ks.flash n) (slotCtrOf d n)))
  (hmac384 (keyC d) (counters ++ digests)).take 16

def reseal (o : Otp) (d : Dev) : Dev := { d with ks := { d.ks with sealV := sealNow o d } }

/-- Commit a counter: OTP is burned up to its top byte (R504). -/
def burnTo (c : Nat) (o : Otp) : Otp := { o with h := max o.h (min 255 (c / 2 ^ 24)) }

/-- The counter of a slot, or of the target page for a volatile slot, takes a value. -/
def setCounter (n page c : Nat) (d : Dev) : Dev :=
  if n < 256 then { d with ks := { d.ks with slotCtr := tset d.ks.slotCtr n c } }
  else { d with ks := { d.ks with pageCtr := tset d.ks.pageCtr page c } }

/-- First 64 bits of the digest of a journal record (R503). -/
def journalDigest (d : Dev) (j : Journal) : Bytes :=
  (sha384 (beBytes 2 j.slot ++ beBytes 4 j.ctr ++ recordOf d j.slot j.put j.ctr)).take 8

/-- OTP burns left and H as words show them. -/
def burnWord (o : Otp) : Nat := (255 - o.h) * 2 ^ 8 + o.h

/-- EVT_KS_SLOT_WRITTEN on page 0 and the owner page (R523). -/
def slotEvent (kind owner n ctr : Nat) (d : Dev) : Dev :=
  emitOn (if owner = 0 then [0] else [0, owner]) 0x0B80 (wd (kind * 2 ^ 28 + owner * 2 ^ 16 + n)) (wd ctr) d

/-! Sealed key messages (R506 to R510). -/

def sigLen (method : Nat) : Nat := (if method.testBit 0 then 4627 else 0) + (if method.testBit 1 then 96 else 0)

/-- The public keys of page p's credential, ML-DSA-87 and ECDSA P-384: page 0 is the OWNER (R508, R521). -/
def credential (d : Dev) (p : Nat) : Option Bytes × Option Bytes :=
  let keyOf := fun (n typ : Nat) => match slotRec d n with
    | some s => if s.typ = typ && s.owner = p then some s.key else none
    | none => none
  if p = 0 then (keyOf 0 0x19, keyOf 1 0x18)
  else match tget d.ks.creds p with
    | some (m, e) => (m.bind (keyOf · 0x19), e.bind (keyOf · 0x18))
    | none => (none, none)

/-- A credential holds a public key for every method named. -/
def holdsMethod (d : Dev) (method p : Nat) : Bool :=
  let c := credential d p
  (!method.testBit 0 || c.1.isSome) && (!method.testBit 1 || c.2.isSome)

/-- The signatures at the end of a message verify under a credential (R507). -/
def signedBy (d : Dev) (method p : Nat) (m : Bytes) : Bool :=
  let body := m.take (m.length - sigLen method)
  let sig := m.drop (m.length - sigLen method)
  let c := credential d p
  (!method.testBit 0 || match c.1 with | some k => Config.mldsaVerify k body (sig.take 4627) | none => false)
    && (!method.testBit 1 || match c.2 with
      | some k => Config.ecdsaVerify k body (sig.drop (sigLen method - 96))
      | none => false)

/-- The AES-256 key and the IV of R507 over a ciphertext, an ephemeral point and the context bytes. -/
def sealKeys (ct point context : Bytes) : Option (Bytes × Bytes) :=
  match Config.ecShared sealEc point with
  | some x =>
    let k := kdf (Config.kemDecaps sealKem ct ++ x) (fixedInput "BALSEVY SEAL" context 352) 352
    some (k.take 32, k.drop 32)
  | none => none

/-- Decrypt the part of a message behind `aad` bytes of length L, with its tag (R507). -/
def sealOpen (m : Bytes) (ctAt ptAt aad len : Nat) : Option Bytes :=
  match sealKeys (slice m ctAt 1568) (slice m ptAt 97) (m.take 64) with
  | some (k, iv) =>
    let c := slice m aad len
    if gcmTag k iv (m.take aad) c = slice m (aad + len) 16 then some (gcmOpen k iv (m.take aad) c) else none
  | none => none

/-- The signers R508 and R509 entitle: the OWNER as page 0. An erase may be signed by the OWNER for any
slot (DEDUCED). -/
def entitled (page op typ : Nat) : List Nat :=
  if page = 0 then [0] else if op = 2 || publicType typ then [0, page] else [page]

/-- Fields of a sealed message. -/
def smSlot (m : Bytes) : Nat := beAt m 44 2
def smPage (m : Bytes) : Nat := beAt m 6 1
def smCtr (m : Bytes) : Nat := beAt m 40 4

/-- Check 1 of R509. -/
def sealForm (m : Bytes) : Bool :=
  let op := beAt m 7 1
  let method := beAt m 5 1
  let attrs := beAt m 48 2
  let l := beAt m 50 2
  beAt m 0 4 == 0x5A534B4D && beAt m 4 1 == 1 && decide (1 ≤ method) && decide (method ≤ 3)
    && decide (smPage m ≤ 64) && decide (smSlot m < 4352) && beAt m 47 1 == 0 && beAt m 52 12 == 0
    && beAt m 1729 3 == 0 && attrs &&& 0x0CE0 == 0
    && (if op = 1 then typeLen (beAt m 46 1) == some l
        else op == 2 && beAt m 46 1 == 0 && attrs == 0 && l == 0)
    && m.length == 1732 + l + 16 + sigLen method

/-- Check 7 of R509. -/
def sealFits (o : Otp) (d : Dev) (m : Bytes) (signer : Nat) : Bool :=
  let op := beAt m 7 1
  let n := smSlot m
  decide (2 ≤ n) && decide (n < 256 || beAt m 50 2 ≤ 64)
    && !(op == 1 && !publicType (beAt m 46 1) && (beAt m 48 2).testBit 1)
    && decide (smCtr m / 2 ^ 24 ≤ o.h + 1)
    && (match slotRec d n with
      | some s => s.owner == smPage m || (op == 2 && signer == 0)
      | none => true)

/-- Checks 1 to 7 of R509: the status that ends the message, or its opened key. -/
def sealJudge (o : Otp) (d : Dev) (m : Bytes) : Nat ⊕ Bytes :=
  let method := beAt m 5 1
  let n := smSlot m
  let page := smPage m
  if !sealForm m then .inl stBadField
  else if slice m 8 32 ≠ identityOf o then .inl 0x8B00
  else
    let able := (entitled page (beAt m 7 1) (beAt m 46 1)).filter (holdsMethod d method)
    if able.isEmpty then .inl 0x8B01
    else match able.find? (fun p => signedBy d method p m) with
      | none => .inl stAuthFail
      | some signer =>
        if smCtr m ≤ (if n < 256 then slotCtrOf d n else pageCtrOf d page) then .inl stCounterStale
        else match sealOpen m 64 1632 1732 (beAt m 50 2) with
          | none => .inl stAuthFail
          | some key => if sealFits o d m signer then .inr key else .inl stBadField

/-- Phase 1 of R510: the journal record, then the one write of the vault. DEDUCED (log 47). -/
def sealPrepare (job : SealJob) (key : Bytes) (d : Dev) : Dev :=
  let m := job.msg
  let x := if beAt m 7 1 = 1 then
      let s := newSlot (beAt m 46 1) (smPage m) (beAt m 48 2) 1 key d
      (some s.1, s.2)
    else (none, d)
  let j : Journal := ⟨smSlot m, x.1, smCtr m, smPage m⟩
  let d := x.2
  { d with ks := { d.ks with
    journal := some j, jPrep := true, jSlot := j.slot, jCtr := j.ctr, jDigest := journalDigest d j,
    prepared := some job, queue := d.ks.queue.drop 1 } }

/-- Write what a journal record says into its slot, its counter, SEAL, and JSTATE idle (R510). DEDUCED (log 47). -/
def journalCommit (o : Otp) (j : Journal) (d : Dev) : Dev :=
  let d := match j.put with
    | some s => putSlot j.slot s d
    | none => dropSlot j.slot d
  let d := reseal o (setCounter j.slot j.page j.ctr d)
  { d with ks := { d.ks with jPrep := false, prepared := none } }

/-- Phase 2 of R510, with EVT_KS_SLOT_WRITTEN and EVT_CMD_DONE. DEDUCED (log 47). -/
def sealCommit (o : Otp) (d : Dev) : Otp × Dev :=
  match d.ks.prepared, d.ks.journal with
  | some job, some j =>
    let owner := match j.put with
      | some s => s.owner
      | none => match slotRec d j.slot with | some s => s.owner | none => j.page
    let o := burnTo j.ctr o
    let d := slotEvent (if j.put.isSome then 1 else 2) owner j.slot j.ctr (journalCommit o j d)
    (o, finish job.page job.tag 0x0B01 stOk (wd j.slot) d)
  | _, _ => (o, d)

/-- The next sealed message is checked and prepared; a message that fails ends with its status (R509). -/
def sealTake (o : Otp) (d : Dev) : Dev :=
  match d.ks.queue with
  | [] => d
  | job :: rest =>
    let d := deviceJob d
    match sealJudge o d job.msg with
    | .inr key => sealPrepare job key d
    | .inl st =>
      finish job.page job.tag 0x0B01 st (wd (smSlot job.msg % 8192)) { d with ks := { d.ks with queue := rest } }

/-- KS_SEAL_PROCESS: the prepared message is committed; otherwise the next one is taken, and committed too
when `whole`. -/
def sealProcess (whole : Bool) (o : Otp) (d : Dev) : Otp × Dev :=
  if d.ks.prepared.isSome then sealCommit o d
  else if whole then sealCommit o (sealTake o d)
  else (o, sealTake o d)

def execKsSealProcess (whole : Bool) (s : State) : Host.Outcome State Fault Refusal := runOtp (sealProcess whole) s

/-! Start (R505, R511). -/

/-- A new vault after its loss (R505 causes 1 and 2). -/
def newVault (o : Otp) (d : Dev) : Otp × Dev :=
  let o := { o with h := if o.h < 255 then o.h + 1 else o.h }
  let k := keyBytes 32 d
  let d := k.2
  let low := o.h * 2 ^ 24
  let sc := (List.range 256).map (fun n => (n, max (slotCtrOf d n) low))
  let pc := (List.range 65).map (fun p => (p, max (pageCtrOf d p) low))
  let flash := d.ks.flash.filter (fun s => decide (s.1 < 2))
  (o, reseal o { d with ks := { d.ks with
    kv := k.1, flash := flash, slotCtr := sc, pageCtr := pc, jPrep := false, journal := none,
    lostAtStart := true, unwrapped := true } })

/-- A counter record that fails its HMAC reads as H × 2^24 (R504): record numbers 0 to 255 slots, 256 on
pages. -/
def badCounter (o : Otp) (d : Dev) (n : Nat) : Dev :=
  if n < 256 then { d with ks := { d.ks with slotCtr := tset d.ks.slotCtr n (o.h * 2 ^ 24) } }
  else if n < 321 then { d with ks := { d.ks with pageCtr := tset d.ks.pageCtr (n - 256) (o.h * 2 ^ 24) } }
  else d

/-- The device secret is delivered for each of the four derivations of R500. -/
def deriveInternal (d : Dev) : Dev :=
  let d := delivered 32 (delivered 32 (delivered 32 (delivered 32 d)))
  { d with ks := { d.ks with internal := true, lostAtStart := false } }

/-- The examination of R505 in step 9: what flash holds may fail its checks (`sealOk`, `journalOk`).
DEDUCED (log 47). -/
def ksRecover (sealOk journalOk : Bool) (o : Otp) (d : Dev) : Otp × Dev :=
  match o.life with
  | .retired => (o, { d with ks := { d.ks with
      kv := [], flash := d.ks.flash.filter (fun s => decide (s.1 < 2)), internal := false } })
  | life =>
    let d := deriveInternal d
    if d.ks.kv.isEmpty then
      if life = .blank then (o, d)
      else
        let r := newVault o d
        (r.1, { r.2 with ks := { r.2.ks with recovery := [(0x1FFF, 1, none)] } })
    else if !(sealOk && sealNow o d == d.ks.sealV) then
      let r := newVault o d
      (r.1, { r.2 with ks := { r.2.ks with recovery := [(0x1FFF, 2, none)] } })
    else if d.ks.jPrep then
      match d.ks.journal with
      | some j =>
        if journalOk && journalDigest d j == d.ks.jDigest then
          let o := burnTo j.ctr o
          let d := journalCommit o j d
          (o, { d with ks := { d.ks with unwrapped := true, recovery := [(j.slot, 3, some j.page)] } })
        else (o, { d with ks := { d.ks with
          jPrep := false, unwrapped := true, recovery := [(d.ks.jSlot, 4, (slotRec d d.ks.jSlot).map (·.owner))] } })
      | none => (o, { d with ks := { d.ks with
          jPrep := false, unwrapped := true, recovery := [(d.ks.jSlot, 4, (slotRec d d.ks.jSlot).map (·.owner))] } })
    else (o, { d with ks := { d.ks with unwrapped := true } })

/-- The identity in OTP differs from the one derived (R502). -/
def identityBad (o : Otp) : Bool :=
  match o.life with
  | .blank | .retired => false
  | _ => o.identity != derivedIdentity

/-- EVT_KS_RECOVERY after the mode entry (R505, R523). -/
def recoveryEvents (o : Otp) (d : Dev) : Dev :=
  d.ks.recovery.foldl (fun d r =>
    let pages := match r.2.2 with | some p => if p = 0 then [0] else [0, p] | none => [0]
    emitOn pages 0x0B81 (wd (r.1 * 2 ^ 16 + r.2.1)) (wd (burnWord o)) d) { d with ks := { d.ks with recovery := [] } }

/-- Sealed messages not yet past phase 1 are dropped by LOCK (R514); those past it are committed. -/
def sealLock (o : Otp) (d : Dev) : Otp × Dev :=
  let r := sealCommit o d
  let d := r.2
  (r.1, d.ks.queue.foldl (fun d j => finish j.page j.tag 0x0B01 stLocked (wd (smSlot j.msg % 8192)) d)
    { d with ks := { d.ks with queue := [] } })

/-! Commands (R515 to R521). -/

def cmdKsIdentityGet : Cmd where
  code := 0x0B00
  tenants := true
  smb := true
  lenOk := fun r => r.len == 0 || (r.len == 3 && r.page != 65)
  bad := fun _ _ r => if r.len = 3 then firstBad (bufBad r 0 ++ [(2, decide (1665 ≤ bufLen r 0))]) else none
  act := fun o d r =>
    (if r.len = 3 then out (.hostWrite (bufAddr r 0) sealPublic) d else d, stOk, beWords (identityOf o))

def execKsIdentityGet (r : NcsReq) (s : State) : Host.Outcome State Fault Refusal := run (command cmdKsIdentityGet r) s

/-- The message in the host buffer. DESIGN CHOICE (log 9). -/
def bufMsg (r : NcsReq) : Bytes := r.buf.take (bufLen r 0)

/-- A slot that a sealed message still to be done names (R72, R514). -/
def sealNames (d : Dev) (n : Nat) : Bool :=
  d.ks.queue.any (fun j => smSlot j.msg == n) || (match d.ks.prepared with | some j => smSlot j.msg == n | none => false)

def cmdKsSealSubmit : Cmd where
  code := 0x0B01
  tenants := true
  modes := runModes
  blank := false
  event := true
  lenOk := lenIs 3
  forbids := fun _ _ r => if r.page = 0 || r.page = smPage (bufMsg r) then none else some 1
  bad := fun _ _ r => firstBad (bufBad r 0)
  busy := fun _ d r => sealNames d (smSlot (bufMsg r))
  act := fun _ d r =>
    ({ d with ks := { d.ks with queue := d.ks.queue ++ [⟨r.page, r.tag, bufMsg r⟩] } }, stAccepted, [])

def execKsSealSubmit (r : NcsReq) (s : State) : Host.Outcome State Fault Refusal := run (command cmdKsSealSubmit r) s

/-- A slot word: reserved bits and range. -/
def slotWordOk (w : Word) : Bool := fld w 31 13 == 0 && decide (fld w 12 0 < 4352)

/-- A tenant page names only its own slots (R518, R519). -/
def foreignSlot (d : Dev) (r : NcsReq) (n : Nat) : Option Nat :=
  match slotRec d n with
  | some s => if r.page ≠ 0 && s.owner ≠ r.page then some 1 else none
  | none => none

/-- The counter that guards a slot, as KS_SLOT_INFO and KS_COUNTER_GET show it. -/
def guardCtr (d : Dev) (n page : Nat) : Nat :=
  if n < 256 then slotCtrOf d n
  else match slotRec d n with | some s => pageCtrOf d s.owner | none => pageCtrOf d page

/-- The four words of R518. -/
def slotWords (o : Otp) (d : Dev) (n page : Nat) : List Word :=
  match slotRec d n with
  | some s =>
    let usable := s.attrs.testBit (12 + o.life.code)
    [wd ((if usable then 1 else 2) * 2 ^ 28 + s.source * 2 ^ 24 + s.owner * 2 ^ 16 + s.typ), wd s.attrs,
     wd ((typeLen s.typ).getD 0), wd (guardCtr d n page)]
  | none => [0, 0, 0, wd (guardCtr d n page)]

def cmdKsSlotInfo : Cmd where
  code := 0x0B02
  tenants := true
  lenOk := lenIs 1
  forbids := fun _ d r => foreignSlot d r (rf r 0 12 0)
  bad := fun _ _ r => firstBad [(0, slotWordOk (rw r 0))]
  act := fun o d r => (d, stOk, slotWords o d (rf r 0 12 0) r.page)

def execKsSlotInfo (r : NcsReq) (s : State) : Host.Outcome State Fault Refusal := run (command cmdKsSlotInfo r) s

def cmdKsCounterGet : Cmd where
  code := 0x0B03
  tenants := true
  lenOk := lenIs 1
  forbids := fun _ d r =>
    if bit (rw r 0) 31 then (if r.page ≠ 0 && r.page ≠ rf r 0 6 0 then some 1 else none)
    else foreignSlot d r (rf r 0 12 0)
  bad := fun _ _ r => firstBad [(0, if bit (rw r 0) 31 then rf r 0 30 7 == 0 && decide (rf r 0 6 0 ≤ 64)
    else slotWordOk (rw r 0))]
  act := fun o d r =>
    let c := if bit (rw r 0) 31 then pageCtrOf d (rf r 0 6 0) else guardCtr d (rf r 0 12 0) r.page
    (d, stOk, [wd c, wd (burnWord o)])

def execKsCounterGet (r : NcsReq) (s : State) : Host.Outcome State Fault Refusal := run (command cmdKsCounterGet r) s

/-- An attribute word a key of a secret type may have: reserved bits, DMA and NORMAL are 0. -/
def secretAttrsOk (w : Word) : Bool := fld w 31 16 == 0 && fld w 11 10 == 0 && fld w 7 5 == 0 && !bit w 1

/-- The fixed input of KS_DERIVE (R501). -/
def deriveInput (d : Dev) (cls page : Nat) (context : Bytes) (bits : Nat) : Bytes :=
  let meas := if cls = 1 then d.fw.imageMeas else d.fw.signerMeas ++ beBytes 4 d.fw.runSec.toNat
  fixedInput "BALSEVY DERIVE" ([BitVec.ofNat 8 cls] ++ meas ++ [BitVec.ofNat 8 page] ++ context) bits

def ksDerive (r : NcsReq) (d : Dev) : Dev :=
  let typ := rf r 0 23 16
  let len := (typeLen typ).getD 0
  let key := kdf Config.deviceSecret
    (deriveInput d (rf r 0 31 30) r.page (payloadBytes r 3 (rf r 2 6 0)) (8 * len)) (8 * len)
  let s := newSlot typ r.page (rf r 1 15 0) 2 key (delivered 32 d)
  slotEvent 3 r.page (rf r 0 12 0) 0 (putSlot (rf r 0 12 0) s.1 s.2)

def cmdKsDerive : Cmd where
  code := 0x0B04
  tenants := true
  modes := runModes
  blank := false
  lenOk := fun r => decide (3 ≤ r.len) && r.len == 3 + (rf r 2 6 0 + 3) / 4
  forbids := fun _ d r => match slotRec d (rf r 0 12 0) with
    | some s => if s.owner ≠ r.page then some 1 else none
    | none => none
  bad := fun _ d r => firstBad
    [(0, (rf r 0 31 30 == 1 || rf r 0 31 30 == 2) && rf r 0 29 24 == 0 && rf r 0 15 13 == 0
        && decide (1 ≤ rf r 0 23 16) && decide (rf r 0 23 16 ≤ 5) && decide (256 ≤ rf r 0 12 0)
        && decide (rf r 0 12 0 < 4352)
        && (match slotRec d (rf r 0 12 0) with | some s => s.source == 2 | none => true)),
     (1, secretAttrsOk (rw r 1)), (2, rf r 2 31 7 == 0 && decide (rf r 2 6 0 ≤ 64))]
  busy := fun _ d r => sealNames d (rf r 0 12 0)
  act := fun _ d r => (ksDerive r d, stOk, [])

def execKsDerive (r : NcsReq) (s : State) : Host.Outcome State Fault Refusal := run (command cmdKsDerive r) s

/-- A running agreement takes its KEK from, or into, the slot (R514). -/
def agreementUses (d : Dev) (n : Nat) : Bool := d.kc.peers.any (fun p => p.2.state == 1 && p.2.kekSlot == n)

def cmdKsSlotFree : Cmd where
  code := 0x0B05
  tenants := true
  blank := false
  lenOk := lenIs 1
  forbids := fun _ d r => match slotRec d (rf r 0 12 0) with
    | some s => if rf r 0 12 0 ≥ 256 && s.owner ≠ r.page then some 1 else none
    | none => none
  bad := fun _ d r => firstBad [(0, slotWordOk (rw r 0) && decide (256 ≤ rf r 0 12 0)
    && (slotRec d (rf r 0 12 0)).isSome)]
  busy := fun _ d r => sealNames d (rf r 0 12 0) || agreementUses d (rf r 0 12 0)
  act := fun _ d r => (dropSlot (rf r 0 12 0) d, stOk, [])

def execKsSlotFree (r : NcsReq) (s : State) : Host.Outcome State Fault Refusal := run (command cmdKsSlotFree r) s

/-- The variant code of R84 by number. -/
def variantCode (o : Otp) : Nat := match o.variant with | .bv128 => 0x80 | .bv064 => 0x40 | .bv032 => 0x20

/-- Words 0 to 55 of R513. -/
def attestBody (o : Otp) (d : Dev) (r : NcsReq) : List Word :=
  (List.range 8).map (rw r) ++ beWords (identityOf o)
    ++ [wd (variantCode o * 2 ^ 24 + o.life.code * 2 ^ 8 + modeCode d), d.fw.runVersion, d.fw.runSec,
        wd (flag d.ks.lostAtStart 16 + burnWord o)]
    ++ beWords d.fw.loaderMeas ++ beWords d.fw.imageMeas ++ beWords d.fw.signerMeas

def cmdKsAttest : Cmd where
  code := 0x0B06
  blank := false
  retired := true
  lenOk := lenIs 8
  act := fun o d r =>
    let b := attestBody o d r
    (delivered 48 d, stOk, b ++ beWords (hmac384 o.attest (ascii "BALSEVY ATTEST" ++ wordBytes b)))

def execKsAttest (r : NcsReq) (s : State) : Host.Outcome State Fault Refusal := run (command cmdKsAttest r) s

/-! Provisioning (R512). -/

/-- The status with which a provisioning message ends, or the attestation secret it carries. -/
def provJudge (m : Bytes) : Nat ⊕ Bytes :=
  if !(m.length == 9187 && beAt m 0 4 == 0x5A505256 && beAt m 4 1 == 1 && beAt m 5 3 == 0 && beAt m 2729 3 == 0
      && beAt m 4397 3 == 0) then .inl stBadField
  else if slice m 8 32 ≠ derivedIdentity then .inl 0x8B00
  else if !(Config.mldsaVerify (slice m 40 2592) (m.take 4464) (slice m 4464 4627)
      && Config.ecdsaVerify (slice m 2632 97) (m.take 9091) (slice m 9091 96)) then .inl stAuthFail
  else match sealOpen m 2732 4300 4400 48 with
    | some a => .inr a
    | none => .inl stAuthFail

/-- The message is taken: it ends at once with its status, or its OTP writes begin (R511, R512). -/
def provBegin (r : NcsReq) (d : Dev) : Dev :=
  let d := deviceJob d
  match provJudge (bufMsg r) with
  | .inl st => finish r.page r.tag 0x0B10 st 0 d
  | .inr _ => { d with ks := { d.ks with provision := some ⟨r.page, r.tag, bufMsg r⟩ } }

def cmdKsProvision : Cmd where
  code := 0x0B10
  expert := true
  modes := [.staging]
  event := true
  lenOk := lenIs 3
  forbids := fun o _ r =>
    if o.life ≠ .blank || (o.provBegun ≠ [] && o.provBegun ≠ sha384 (bufMsg r)) then some 4 else none
  bad := fun _ _ r => firstBad (bufBad r 0)
  busy := fun _ d _ => d.ks.provision.isSome
  act := fun _ d _ => (d, stAccepted, [])
  after := fun _ r _ d => provBegin r d

/-- OTP once a provisioning message is under way: identity and attestation secret (step 1 of R512). -/
def provOtp (o : Otp) (d d' : Dev) : Otp :=
  match d.ks.provision, d'.ks.provision with
  | none, some job => match provJudge job.msg with
    | .inr a => { o with identity := slice job.msg 8 32, attest := a, provBegun := sha384 job.msg }
    | .inl _ => o
  | _, _ => o

def execKsProvision (r : NcsReq) (s : State) : Host.Outcome State Fault Refusal :=
  runOtp (fun o d => let d' := command cmdKsProvision r o d; (provOtp o d d', d')) s

/-- EVT_LIFE_CHANGED on every page (R113). -/
def lifeEvent (old new : Life) (d : Dev) : Dev := emitAll 0x01A1 (wd (old.code * 2 ^ 8 + new.code)) 0 d

/-- Steps 2 to 4 of R512, EVT_LIFE_CHANGED, EVT_CMD_DONE. -/
def provDone (o : Otp) (d : Dev) : Otp × Dev :=
  match d.ks.provision with
  | none => (o, d)
  | some job =>
    if o.life ≠ .blank then (o, d)
    else
      let pk0 := slice job.msg 40 2592
      let pk1 := slice job.msg 2632 97
      let s0 := newSlot 0x19 0 0xF30B 4 pk0 d
      let s1 := newSlot 0x18 0 0xF30B 4 pk1 s0.2
      let k := keyBytes 32 s1.2
      let d := putSlot 1 s1.1 (putSlot 0 s0.1 k.2)
      let d := reseal o { d with ks := { d.ks with
        kv := k.1, slotCtr := [], pageCtr := [], provision := none, unwrapped := true } }
      ({ o with life := .provisioned, ownerHash := sha384 (pk0 ++ pk1) },
       finish job.page job.tag 0x0B10 stOk 0 (lifeEvent .blank .provisioned d))

def execProvisioningOtpWriteDone (s : State) : Host.Outcome State Fault Refusal := runOtp provDone s

/-- A credential names a slot of the page with the type (R521). -/
def credSlotOk (d : Dev) (p n typ : Nat) : Bool :=
  match slotRec d n with | some s => s.owner == p && s.typ == typ | none => false

def cmdKsCredentialSet : Cmd where
  code := 0x0B11
  expert := true
  modes := runModes
  blank := false
  lenOk := lenIs 2
  bad := fun _ d r =>
    let p := rf r 0 6 0
    firstBad
      [(0, rf r 0 31 18 == 0 && rf r 0 15 7 == 0 && decide (1 ≤ p) && decide (p ≤ 64)),
       (1, rf r 1 31 29 == 0 && rf r 1 15 13 == 0
          && (if bit (rw r 0) 16 then credSlotOk d p (rf r 1 28 16) 0x19 else rf r 1 28 16 == 0x1FFF)
          && (if bit (rw r 0) 17 then credSlotOk d p (rf r 1 12 0) 0x18 else rf r 1 12 0 == 0x1FFF))]
  act := fun _ d r =>
    let p := rf r 0 6 0
    let m := if bit (rw r 0) 16 then some (rf r 1 28 16) else none
    let e := if bit (rw r 0) 17 then some (rf r 1 12 0) else none
    ({ d with ks := { d.ks with
      creds := if m.isNone && e.isNone then tdel d.ks.creds p else tset d.ks.creds p (m, e) } }, stOk, [])

def execKsCredentialSet (r : NcsReq) (s : State) : Host.Outcome State Fault Refusal :=
  run (command cmdKsCredentialSet r) s

/-! Masking of key RAM (R498). -/

/-- Both shares of a slot XORed with a fresh value, and stored inverted where `inv`. -/
def remaskSlot (inv : Bool) (acc : Table Slot × Dev) (p : Nat × Slot) : Table Slot × Dev :=
  let r := keyBytes p.2.share1.length acc.2
  let f := fun (b : Bytes) => let x := xorBytes b r.1; if inv then x.map (fun y => ~~~y) else x
  (acc.1 ++ [(p.1, { p.2 with share1 := f p.2.share1, share2 := f p.2.share2 })], r.2)

/-- Every 10 ms a fresh value; every hundredth time the shares are stored inverted and the flag toggles. -/
def remask (_ : Otp) (d : Dev) : Dev :=
  if rawNow d < d.ks.remaskAt + usCycles 10000 then d
  else
  let inv := decide (d.ks.remasks % 100 = 99)
  let a := if d.ks.unwrapped then d.ks.flash.foldl (remaskSlot inv) ([], d) else (d.ks.flash, d)
  let b := a.2.ks.ram.foldl (remaskSlot inv) ([], a.2)
  let d := b.2
  { d with ks := { d.ks with
    flash := a.1, ram := b.1, remasks := (d.ks.remasks + 1) % 100, remaskAt := rawNow d, polarity := d.ks.polarity != inv } }

def execKeyShareRemask (s : State) : Host.Outcome State Fault Refusal := run remask s

end Sys2Proof.Machine
end

