-- ==== Sys2Proof/Machine/KcOps.lean ====
section
/-!
DEFINITION. The life of an SA (chapter 08): states and their changes, switches of transmit and receive objects,
retire instants, chains and the derivation of their keys.
-/
namespace Sys2Proof.Machine

/-! SAs and objects (R273, R275). -/

/-- The encoding SA of a transmit object. -/
def encodingSa (d : Dev) (k : Nat) : Option Nat := (kobjOf d k).enc.bind (saOn d k)

/-- An object key is of transmit kind. -/
def isTx (k : Nat) : Bool := objKind k % 2 == 0

/-- Every SA of an object that still holds a key. -/
def sasOf (d : Dev) (k : Nat) : List (Nat × SaRec) := d.kc.sas.filter (fun x => x.2.obj == k && x.2.state != 4)

/-- Pages that hear of an object's events: 0 and the owner. -/
def pagesOf (owner : Nat) : List Nat := if owner = 0 then [0] else [0, owner]

def overlap (d : Dev) : Nat := fld d.kc.prm0 9 0
def retireMax (d : Dev) : Nat := fld d.kc.prm1 15 0

/-- Frames that wait in the miss store for a destroyed SA are dropped and counted (R331). -/
def dropMissing (i : Nat) (d : Dev) : Dev :=
  let gone := d.fm.flights.filter (fun f => f.sa == i && f.stage == .missing)
  let rest := d.fm.flights.filter (fun f => !(f.sa == i && f.stage == .missing))
  let lines := (d.lm.missing.filter (fun m => m.sa == i)).length
  let d := { d with
    fm := { d.fm with flights := rest }, lm := { d.lm with missing := d.lm.missing.filter (fun m => m.sa != i) }
    dsp := { d.dsp with missDrops := d.dsp.missDrops + BitVec.ofNat 64 lines } }
  gone.foldl (fun d f => gleanFinish true f.glean { d with dsp := { d.dsp with missDrops := d.dsp.missDrops + 1 } }) d

/-- An SA is destroyed: its key and context are overwritten; the index is FREE from the next tick boundary on
(R273, R274). -/
def destroySa (i : Nat) (d : Dev) : Dev :=
  match saOf d i with
  | none => d
  | some x =>
    if x.state = 4 then d
    else
      let k := kobjOf d x.obj
      let k := { k with an := if tget k.an x.an = some i then tdel k.an x.an else k.an, enc := if encodingSa d x.obj = some i then none else k.enc }
      let d := setSa i { x with state := 4, key := [], ka := [], salt := [], retireAt := none, retireMax := none } d
      let d := { d with kc := { d.kc with objs := if k.an.isEmpty then tdel d.kc.objs x.obj else tset d.kc.objs x.obj k } }
      dropMissing i (writeContext i (eraseCtx i d))

/-- Every SA of an object is destroyed; how many there were. -/
def destroyObj (k : Nat) (d : Dev) : Nat × Dev :=
  let l := sasOf d k
  (l.length, l.foldl (fun d x => destroySa x.1 d) d)

/-- An index that is DESTROYED becomes FREE (R273). -/
def freeIndex (i : Nat) (d : Dev) : Dev :=
  match saOf d i with
  | some x => if x.state = 4 then { d with kc := { d.kc with sas := tdel d.kc.sas i } } else d
  | none => d

/-! Events collected within a tick (R308, R649). -/

/-- EVT_KC_INBAND: cause 1 receive fallback, 2 limit. -/
def inbandEvent (cause i : Nat) (x : SaRec) (d : Dev) : Dev :=
  (pagesOf x.owner).foldl (fun d p => tickEvent ⟨p, 0x0581, x.obj,
    wd (objKind x.obj * 2 ^ 30 + cause * 2 ^ 28 + x.an * 2 ^ 26 + objNum x.obj), wd i⟩ d) d

/-- EVT_KC_SCHED_MISMATCH of a schedule (0xFFF for in-band and periodic switches): the first object stands, the
objects are counted. -/
def mismatchEvent (early : Bool) (id : Nat) (x : SaRec) (d : Dev) : Dev :=
  (pagesOf x.owner).foldl (fun d p =>
    match d.sb.tickEvents.find? (fun e => e.page == p && e.evt == 0x0582 && e.obj == id) with
    | some e => tickEvent { e with w3 := wd (min (fld e.w3 31 18 + 1) 0x3FFF * 2 ^ 18 + fld e.w3 17 0) } d
    | none => tickEvent ⟨p, 0x0582, id, wd (flag early 31 + objKind x.obj * 2 ^ 29 + id), wd (1 * 2 ^ 18 + objNum x.obj)⟩ d) d

/-! Switches (R276, R277). -/

/-- A chain's generation has become ACTIVE: the next one is to be derived (R283). -/
def chainAdvance (k gen : Nat) (d : Dev) : Dev :=
  match tget d.kc.chains k with
  | some c => { d with kc := { d.kc with chains := tset d.kc.chains k { c with gen := gen, nextReady := false } } }
  | none => d

/-- A transmit object switches at instant T with overlap W to the SA on an AN: the old one is RETIRING until
T + W. -/
def switchTx (k an id t w : Nat) (d : Dev) : Dev :=
  match saOn d k an with
  | none => d
  | some j => match saOf d j with
    | none => d
    | some y =>
      if y.state ≠ 1 then d
      else
        let d := match encodingSa d k with
          | some i => match saOf d i with
            | some x => setSa i { x with state := 3, retireAt := some (t + w * tickU) } d
            | none => d
          | none => d
        let d := setSa j { y with state := 2, switched := some (id, t, w, retireMax d) } d
        let d := setKobj k { kobjOf d k with enc := some an } d
        if y.chain then chainAdvance k y.gen d else d

/-- Generation a is newer than b (R286). -/
def newerGen (a b : Nat) : Bool := decide (0 < toSigned 32 ((a + 2 ^ 32 - b % 2 ^ 32) % 2 ^ 32))

/-- Of two receive SAs of one object x is the newer (R275). -/
def newerSa (x y : SaRec) : Bool := if x.chain && y.chain then newerGen x.gen y.gen else decide (y.order < x.order)

/-- The other path's object of a line-mode receive stream in a pair: the member of the other Sheaf with the same
index. -/
def twinLane (d : Dev) (lane : Nat) : Option Nat :=
  match sheafOf d lane with
  | none => none
  | some (s, m) =>
    match d.pth.pairs.find? (fun p => p.2.line && (p.2.a.carrier == s || p.2.b.carrier == s)) with
    | none => none
    | some (_, p) =>
      let other := if p.a.carrier = s then p.b.carrier else p.a.carrier
      match tget d.lm.sheaves other with
      | some sh => sh.members[m]?
      | none => none

/-- A path of a pair is in service: not DOWN. -/
def pathServes (e : PathEnd) : Bool := e.state != 0

/-- Instant of the first valid frame under a receive SA: of the later path of a pair, a path out of service left
out (R277). -/
def firstValid (d : Dev) (x : SaRec) : Option Nat :=
  let later := fun (a b : Option Nat) => match a, b with
    | some p, some q => some (max p q)
    | _, _ => none
  if objKind x.obj = 3 then
    match twinLane d (objNum x.obj) with
    | none => x.t1
    | some l =>
      if !(lmLane d l).sync then x.t1
      else match activeSa d (objKey 3 l) with
        | some j => match saOf d j with
          | some y => if y.an = x.an then later x.t1 y.t1 else none
          | none => x.t1
        | none => x.t1
  else
    let line := match tget d.fm.scs (objNum x.obj) with
      | some sc => (tget d.fm.secys sc.secy).map (·.line)
      | none => none
    match d.pth.pairs.find? (fun p => !p.2.line && some p.2.a.carrier == line) with
    | none => x.t1
    | some (_, p) =>
      if pathServes p.a && pathServes p.b then later x.t1 x.t1b
      else if pathServes p.b then x.t1b else x.t1

/-- Retire instants of the RETIRING SAs of a receive object (R277). -/
def setRetire (k : Nat) (d : Dev) : Dev :=
  match activeSa d k with
  | none => d
  | some a => match saOf d a with
    | none => d
    | some x =>
      let sw := x.switched
      let w := (sw.map (·.2.2.1)).getD (overlap d) * tickU
      let at' := (firstValid d x).map (fun t1 => match sw with
        | some (id, t, _, _) => if id = 0xFFF then t1 + w else max (t + w) (t1 + w)
        | none => t1 + w)
      let last := match sw with
        | some (id, t, _, m) => if id = 0xFFF then none else some (t + m * tickU)
        | none => none
      let old := (sasOf d k).filter (fun y => y.2.state == 3)
      old.foldl (fun d y => setSa y.1 { y.2 with retireAt := at', retireMax := last } d) d

/-- Of a line-mode receive stream in a 1+1 pair: the retire instants of the other path's stream (R277).
DEDUCED (log 34). -/
def retireTwin (k : Nat) (d : Dev) : Dev :=
  if objKind k ≠ 3 then d
  else match twinLane d (objNum k) with
    | some l => setRetire (objKey 3 l) d
    | none => d

/-- A receive SA becomes ACTIVE, the ACTIVE one RETIRING. -/
def activateRx (j : Nat) (sw : Option (Nat × Nat × Nat × Nat)) (d : Dev) : Dev :=
  match saOf d j with
  | none => d
  | some y =>
    let d := match activeSa d y.obj with
      | some i => if i = j then d else match saOf d i with | some x => setSa i { x with state := 3 } d | none => d
      | none => d
    let d := setSa j { y with state := 2, switched := sw } d
    setRetire y.obj (if y.chain then chainAdvance y.obj y.gen d else d)

/-- A frame under a receive SA passes its ICV at an instant; `viaB` on path B of a pair (R277, R278). -/
def validFrame (i at' : Nat) (viaB : Bool) (d : Dev) : Dev :=
  match saOf d i with
  | none => d
  | some x =>
    let first := x.t1.isNone && x.t1b.isNone
    let y := if viaB then { x with t1b := x.t1b.or (some at') } else { x with t1 := x.t1.or (some at') }
    if y = x then d
    else
      let d := setSa i y d
      let s := if x.state = 1 then schedOf d i else none
      let d := match s with
        | some (id, s) => if first && !reachedAt (at' + s.w * tickU) s.t then
            mismatchEvent true id x (setSa i { y with told := true } d) else d
        | none => d
      if x.state = 1 then
        let older := match (activeSa d x.obj).bind (saOf d) with | some a => !newerSa x a | none => false
        if older then d
        else retireTwin x.obj (inbandEvent 1 i y (activateRx i (s.map (fun p => (p.1, p.2.t, p.2.w, p.2.rmax))) d))
      else retireTwin x.obj (setRetire x.obj d)

/-! Chains (R282 to R286). -/

def suiteByte (x : SaRec) : Nat := x.suite

/-- One derivation of R285 under a KEK: 48 bytes, key, salt and SSCI. -/
def sakOf (kek : Bytes) (c : Chain) (gen suite : Nat) : Bytes :=
  let data := beBytes 4 c.id ++ beBytes 4 gen ++ beBytes 1 c.dir ++ beBytes 1 suite
  kdf kek (fixedInput "BALSEVY SAK" data 384) 384

/-- The key of a slot, empty where it holds none. -/
def slotKey (d : Dev) (n : Nat) : Bytes := match slotRec d n with | some s => s.key | none => []

/-- Key length of a suite. -/
def suiteKeyLen (suite : Nat) : Nat := if suite = 1 || suite = 3 then 16 else 32

/-- Suite of a chain's object. -/
def chainSuite (d : Dev) (k : Nat) (c : Chain) : Nat :=
  if objKind k < 2 then
    match tget d.fm.scs (objNum k) with
    | some sc => match tget d.fm.secys sc.secy with | some y => fld y.policy 3 0 | none => 4
    | none => 4
  else if c.bv16 then 0x11 else 0x10

/-- SA indices kept for the chains that are still being created, two for each (R303). -/
def reservedSas (d : Dev) : Nat := 2 * (d.kc.chains.filter (fun c => c.2.creating.isSome)).length

/-- The lowest FREE SA index, where one is not kept for a chain. -/
def freeSa (o : Otp) (d : Dev) : Option Nat :=
  let rec go : List (Nat × SaRec) → Nat → Nat
    | [], n => n
    | (i, _) :: t, n => if i = n then go t (n + 1) else n
  let n := go d.kc.sas 0
  if d.kc.sas.length + reservedSas d < saMax o then some n else none

/-- An SA record with nothing set. -/
def blankSa : SaRec where
  state := 1
  obj := 0
  an := 0
  owner := 0
  attrs := 4
  key := []
  ka := []
  salt := []
  ssci := 0
  suite := 0
  pn := 0
  gen := 0
  order := 0
  chain := false
  exhausted := false
  warned := none
  t1 := none
  t1b := none
  switched := none
  told := false
  retireAt := none
  retireMax := none
  ctr := [0, 0, 0, 0]

/-- Install a new SA record at an index, as INSTALLED or ACTIVE, on its AN; its context is written into the SA
context store (R294, R318) and pinned where a hint asks for it (R319). -/
def putSa (i : Nat) (x : SaRec) (d : Dev) : Dev :=
  let k := kobjOf d x.obj
  let d := writeContext i (setSa i { x with order := d.kc.order } d)
  let d := { d with kc := { d.kc with order := d.kc.order + 1 } }
  pinNew i (setKobj x.obj { k with an := tset k.an x.an i } d)

/-- The SA of generation g of a chain is derived and installed on AN g mod 4; what stands there is destroyed first
when RETIRING (R283). Its context joins that of the chain's other SA in the cache (R319, R325). The index, none where
no index or no AN is free. -/
def deriveGen (k g state : Nat) (o : Otp) (d : Dev) : Option Nat × Dev :=
  match tget d.kc.chains k with
  | none => (none, d)
  | some c =>
    let an := g % 4
    let d := match saOn d k an with
      | some i => match saOf d i with | some x => if x.state = 3 then destroySa i d else d | none => d
      | none => d
    match saOn d k an, freeSa o d with
    | none, some i =>
      let suite := chainSuite d k c
      let kek := slotKey d c.kekSlot
      let b := sakOf kek c g suite
      let salt := (b.drop 32).take (if objKind k < 2 then 12 else 4)
      let x := { blankSa with
        state := state, obj := k, an := an, owner := c.owner, key := b.take (suiteKeyLen suite), salt := salt }
      let x := { x with
        ka := if suite = 0x11 then (sakOf kek c g 0x12).take 32 else [], ssci := beAt b 44 4, suite := suite
        pn := if objKind k < 2 then 1 else 0, gen := g, chain := true }
      let d := putSa i x d
      let near := match companion d i with | some c => d.dsp.cache.contains c | none => false
      (some i, if near then prefetch i d else d)
    | _, _ => (none, d)

/-- A limit of R137 or R170 makes the next generation the encoding SA, where the chain holds it (R283): whether
it did. -/
def limitSwitch (k : Nat) (d : Dev) : Bool × Dev :=
  match tget d.kc.chains k with
  | none => (false, d)
  | some c =>
    let an := (c.gen + 1) % 4
    match saOn d k an with
    | some j => match saOf d j with
      | some y =>
        if y.state = 1 && y.gen == (c.gen + 1) % 2 ^ 32 then
          (true, inbandEvent 2 j y (switchTx k an 0xFFF (timeNow d) (overlap d) d))
        else (false, d)
      | none => (false, d)
    | none => (false, d)

end Sys2Proof.Machine
end

