-- ==== Sys2Proof/Machine/Points.lean ====
section
/-!
DEFINITION. The Points (chapter 11): local health of a path, effective claims, path states, the selection. Paths
are judged again after every happening that can change them.
-/
namespace Sys2Proof.Machine

/-! Profiles (R398). -/

def pointsProfile (d : Dev) (n : Nat) : Word × Word := tgetD d.pth.profiles n (0x1000000A#32, 0x8C010A30#32)

def pfHyst (d : Dev) (p : PathPair) : Nat := fld (pointsProfile d p.profile).1 31 16
def pfHoldoff (d : Dev) (p : PathPair) : Nat := fld (pointsProfile d p.profile).1 15 8
def pfGuard (d : Dev) (p : PathPair) : Nat := fld (pointsProfile d p.profile).1 7 0
def pfFloor (d : Dev) (p : PathPair) : Nat := fld (pointsProfile d p.profile).2 31 24
def pfPeriod (d : Dev) (p : PathPair) : Nat := fld (pointsProfile d p.profile).2 15 8
def pfMiss (d : Dev) (p : PathPair) : Nat := fld (pointsProfile d p.profile).2 7 4
def pfSd (d : Dev) (p : PathPair) : Nat := fld (pointsProfile d p.profile).2 23 16

def setPair (i : Nat) (p : PathPair) (d : Dev) : Dev := { d with pth := { d.pth with pairs := tset d.pth.pairs i p } }

/-- The two ends of a pair by path number. -/
def PathPair.pathEnd (p : PathPair) (b : Bool) : PathEnd := if b then p.b else p.a
def PathPair.withEnd (p : PathPair) (b : Bool) (e : PathEnd) : PathPair := if b then { p with b := e } else { p with a := e }

/-- The line lanes of a path. -/
def pathLanes (d : Dev) (p : PathPair) (e : PathEnd) : List Nat :=
  if p.line then (match tget d.lm.sheaves e.carrier with | some s => s.members | none => [])
  else match portOf d (lk 0 e.carrier) with | some q => portLanes e.carrier q | none => []

/-- The offset of a path counts one more unit, `ns` behind the earliest copy: the mean of each block of 1,024 (R393; how
the filter works is the model's choice). DEDUCED (log 39). -/
def countOffset (ns : Nat) (e : PathEnd) : PathEnd :=
  if e.count + 1 = 1024 then { e with offset := (e.sum + ns) / 1024, sum := 0, count := 0 }
  else { e with sum := e.sum + ns, count := e.count + 1 }

/-- The second copy of a unit has come, on path B or A, `ns` behind the first. -/
def countCopies (ns : Nat) (b : Bool) (p : PathPair) : PathPair :=
  (p.withEnd b (countOffset ns (p.pathEnd b))).withEnd (!b) (countOffset 0 (p.pathEnd (!b)))

/-! Local health (R384). -/

/-- The worst class that a lane of the path gives. -/
def laneClass (d : Dev) (p : PathPair) (m : Nat) : Nat :=
  if p.line then
    let l := lmLane d m
    let c := match primary (l.declared % 256) with | 0 => 15 | n + 1 => n
    if l.sync then c else min c 2
  else
    let l := laneOf d m
    if !l.signal then 0 else if !l.lock then 1 else 15

def localClass (d : Dev) (p : PathPair) (e : PathEnd) : Nat :=
  let c := (pathLanes d p e).foldl (fun c m => min c (laneClass d p m)) 15
  let c := if e.lockout then 0 else c
  let c := if p.hitless && decide (p.dp * 1000 < e.offset) then min c 4 else c
  let c := if !p.line && e.missed then min c 2 else c
  let c := if !p.line && e.auth then min c 7 else c
  if e.degraded then min c 10 else c

/-- The effective claim as the Points sees it (R381, R385). -/
def claimOf (e : PathEnd) : Nat := e.health * 4096 + e.margin * 16 + e.prio

/-- An end judged again: the accepted claim falls at class 3 and below (R383), HEALTH follows at once, MARGIN is 0 at
HEALTH 4 and below (R385). DEDUCED (log 38). -/
def judgeEnd (d : Dev) (p : PathPair) (e : PathEnd) : PathEnd :=
  let c := localClass d p e
  let e := if c ≤ 3 then { e with accepted := 0, cand := 0, candRun := 0, prio := 0 } else e
  let h := min c (e.accepted / 4096)
  { e with health := h, margin := if h ≤ 4 then 0 else e.margin }

/-- The trigger of R388. -/
def endFit (d : Dev) (p : PathPair) (e : PathEnd) : Bool :=
  decide (5 ≤ localClass d p e) && decide (5 ≤ e.accepted / 4096) && !e.lockout

/-- The state that an end takes, given whether the other is READY (R388). -/
def nextPathState (d : Dev) (p : PathPair) (e : PathEnd) (otherReady : Bool) : PathEnd :=
  if e.health ≤ 4 || e.lockout then { e with state := 0 }
  else if e.state = 2 then e
  else if !endFit d p e then { e with state := 0 }
  else if !otherReady then { e with state := 2 }
  else if e.state = 1 then e
  else { e with state := 1, since := d.sys.ticks }

/-- EVT_PATH_STATE of an end that changed (R406). -/
def pathStateEvent (i : Nat) (p : PathPair) (b : Bool) (old : Nat) (d : Dev) : Dev :=
  let e := p.pathEnd b
  if e.state = old then d
  else tickEvent ⟨0, 0x0881, 2 * i + b1 b,
    wd (e.state * 2 ^ 18 + e.health * 2 ^ 12 + flag b 8 + i), wd (min e.offset 0xFFFFFFFF)⟩ d

/-- The first row of R389 that holds: the new path and the cause. While HOLDOFF runs the selected path counts with the
HEALTH it had, and as READY where that HEALTH allowed it. DEDUCED (log 38). -/
def pointsRow (d : Dev) (p : PathPair) : Option (Nat × Nat) :=
  let s := p.pathEnd (p.selected == 1)
  let e := p.pathEnd (p.selected == 0)
  let other := 1 - p.selected
  let seen := match p.holdoff with | some (h, _) => { s with health := h, state := if 5 ≤ h then 2 else s.state } | none => s
  if s.lockout && !e.lockout then some (other, 5)
  else if p.force = some other && !e.lockout then some (other, 3)
  else if p.force = some p.selected then none
  else if seen.state ≠ 2 && e.state = 2 then some (other, 2)
  else if e.state = 2 && decide (claimOf seen + pfHyst d p ≤ claimOf e) then some (other, 1)
  else none

/-- The Points selects a path: EVT_PATH_SWITCHED (R389, R406). -/
def switchPath (i new cause : Nat) (d : Dev) : Dev :=
  match tget d.pth.pairs i with
  | none => d
  | some p =>
    let w3 := claimOf (p.pathEnd (new == 1)) * 2 ^ 16 + claimOf (p.pathEnd (p.selected == 1))
    emit 0 0x0880 (wd (cause * 2 ^ 28 + new * 2 ^ 24 + i)) (wd w3)
      (setPair i { p with selected := new, switches := satInc 16 p.switches, holdoff := none } d)

/-- A fall of the selected path's HEALTH starts HOLDOFF, its return ends it (R389). -/
def holdoffOf (d : Dev) (old p : PathPair) : PathPair :=
  let was := (old.pathEnd (old.selected == 1)).health
  let is := (p.pathEnd (p.selected == 1)).health
  match p.holdoff with
  | some (h, _) => if h ≤ is then { p with holdoff := none } else p
  | none => if is < was && pfHoldoff d p ≠ 0 then { p with holdoff := some (was, rawNow d) } else p

/-- One pair judged again. -/
def pairRefresh (d : Dev) (i : Nat) : Dev :=
  match tget d.pth.pairs i with
  | none => d
  | some old =>
    let p := { old with a := judgeEnd d old old.a, b := judgeEnd d old old.b }
    let down := fun (e : PathEnd) => if e.health ≤ 4 || e.lockout then { e with state := 0 } else e
    let p := { p with a := down p.a, b := down p.b }
    let p := { p with a := nextPathState d p p.a (p.b.state == 2) }
    let p := { p with b := nextPathState d p p.b (p.a.state == 2) }
    let p := holdoffOf d old p
    let p := { p with sched := if p.a.state = 2 || p.b.state = 2 then p.sched else none }
    let d := pathStateEvent i p true old.b.state (pathStateEvent i p false old.a.state (setPair i p d))
    match pointsRow d p with
    | some (new, cause) => switchPath i new cause d
    | none => d

/-- Every pair judged again; the consequent actions follow the selected paths (R222). -/
def pathsRefresh (d : Dev) : Dev :=
  if d.pth.pairs.isEmpty then d else withDefects (fun d => (d.pth.pairs.map (·.1)).foldl pairRefresh d) d

/-- Defects change, and the paths with them. -/
def defectsAndPaths (f : Dev → Dev) (d : Dev) : Dev := pathsRefresh (withDefects f d)

/-- At a tick boundary MARGIN and PRIO reach the Points, and classes 0xA and 7 of frame mode are judged (R384,
R385). -/
def tickEnd (d : Dev) (p : PathPair) (e : PathEnd) : PathEnd :=
  let ls := pathLanes d p e
  let fom := ls.foldl (fun a m => min a (laneOf d m).fom) 1023
  { e with
    degraded := ls.any (fun m => decide (pfSd d p ≤ (laneOf d m).uncorrectable))
    auth := decide (16 ≤ e.icvFails), icvFails := 0
    margin := if e.health ≤ 4 || ls.isEmpty then 0 else min (fom - pfFloor d p) 255, prio := e.accepted % 16 }

def pathsTick (d : Dev) : Dev :=
  let d := { d with pth := { d.pth with
    profiles := d.pth.profilesNext.foldl (fun t x => tset t x.1 x.2) d.pth.profiles, profilesNext := [] } }
  let one := fun (p : PathPair) => { p with a := tickEnd d p p.a, b := tickEnd d p p.b }
  pathsRefresh { d with pth := { d.pth with pairs := d.pth.pairs.map (fun p => (p.1, one p.2)) } }

end Sys2Proof.Machine
end

