-- ==== Sys2Proof/Machine/FrameMode.lean ====
section
/-!
DEFINITION. The frame-mode data path (chapter 04): classification, PN assignment, reception and its checks,
reorder and release, rule swaps.
-/
namespace Sys2Proof.Machine

/-! Counters (R143). -/

def bumpAt (c : Counters) (i n : Nat) : Counters := c.set i (c.getD i 0 + BitVec.ofNat 64 n)

def bumpSecy (y i n : Nat) (d : Dev) : Dev :=
  { d with fm := { d.fm with secys := tmod d.fm.secys y (fun x => { x with ctr := bumpAt x.ctr i n }) } }
def bumpSc (c i n : Nat) (d : Dev) : Dev :=
  { d with fm := { d.fm with scs := tmod d.fm.scs c (fun x => { x with ctr := bumpAt x.ctr i n }) } }
def bumpSa (a i n : Nat) (d : Dev) : Dev :=
  { d with kc := { d.kc with sas := tmod d.kc.sas a (fun x => { x with ctr := bumpAt x.ctr i n }) } }

/-! Policy fields (R122). -/

def polSuite (p : Word) : Nat := fld p 3 0
def polOffset (p : Word) : Nat := match fld p 9 8 with | 0 => 0 | 1 => 30 | _ => 50
def polValidate (p : Word) : Nat := fld p 14 13
def polProtect (p : Word) : Bool := bit p 12
def polSci (p : Word) : Bool := bit p 16
def polReplay (p : Word) : Bool := bit p 19
def polHold (p : Word) : Bool := bit p 20
def polConf (p : Word) : Bool := bit p 24

/-! Classification (R124 to R126). -/

/-- The first `len` bits of an address agree. -/
def prefixEq (a b len : Nat) : Bool := a / 2 ^ (48 - min len 48) == b / 2 ^ (48 - min len 48)

/-- A rule matches a frame by its tags, EtherType and addresses. -/
def ruleFields (r : List Word) (f : Bytes) : Bool :=
  let w := fun i => r.getD i 0
  let n := tagCount f
  let tags := match fld (w 3) 31 30 with | 1 => n == 0 | 2 => decide (1 ≤ n) | _ => true
  let et := etherType f &&& fld (w 1) 15 0 == fld (w 1) 31 16 &&& fld (w 1) 15 0
  let pcp := !bit (w 2) 31 || (decide (1 ≤ n) && outerTag f / 8192 == fld (w 2) 30 28)
  let vid := fld (w 2) 11 0 == 0 || (decide (1 ≤ n) && outerTag f &&& fld (w 2) 11 0 == fld (w 2) 27 16 &&& fld (w 2) 11 0)
  let ivid := fld (w 3) 11 0 == 0 || (n == 2 && innerTag f &&& fld (w 3) 11 0 == fld (w 3) 27 16 &&& fld (w 3) 11 0)
  let da := prefixEq (beAt f 0 6) ((w 4).toNat * 65536 + fld (w 5) 31 16) (fld (w 5) 5 0)
  let sa := prefixEq (beAt f 6 6) ((w 6).toNat * 65536 + fld (w 7) 31 16) (fld (w 7) 5 0)
  tags && et && pcp && vid && ivid && da && sa

/-- A rule matches a frame that entered by a port: side 0 client, 1 line. -/
def ruleMatches (r : List Word) (side port : Nat) (f : Bytes) : Bool :=
  let w := r.getD 0 0
  bit w 31 && b1 (bit w 23) == side && (bit w 22 || fld w 21 16 == port) && ruleFields r f

/-- What classification decides. -/
inductive Decision4 where
  | dropIt
  | protectIt (secy : Nat)
  | passIt
  | terminateIt
deriving DecidableEq, Repr

def rulesOf (d : Dev) (s : Nat) : Rules := tgetD d.fm.rules s Rules.init
def setRules (s : Nat) (x : Rules) (d : Dev) : Dev := { d with fm := { d.fm with rules := tset d.fm.rules s x } }

/-- A matching rule's action; a PROTECT rule whose SecY is gone acts as DROP, also when its ID has been given out again
(R126). -/
def ruleAction (d : Dev) (gone : Bool) (r : List Word) : Decision4 :=
  match fld (r.getD 0 0) 30 28 with
  | 1 =>
    if (tget d.fm.secys (fld (r.getD 0 0) 13 0)).isSome && !gone then .protectIt (fld (r.getD 0 0) 13 0) else .dropIt
  | 2 => .passIt
  | 3 => .terminateIt
  | _ => .dropIt

/-- Steps 4 and 5 of R124. -/
def classify (d : Dev) (side port : Nat) (pass : Bool) (f : Bytes) : Decision4 :=
  let x := rulesOf d (sectorOf port)
  match x.active.find? (fun r => ruleMatches r.2 side port f) with
  | some r => ruleAction d (x.dead.contains r.1) r.2
  | none => if pass then .passIt else .dropIt

/-- The queue of a frame by its tag (R410). -/
def pcpQueue (d : Dev) (line : Nat) (f : Bytes) : Nat :=
  let p := if tagCount f = 0 then 0 else outerTag f / 8192
  fld (tgetD d.sch.pcp line 0x66543210#32) (4 * p + 2) (4 * p)

/-- A frame as it waits in a queue. -/
def plainFrame (d : Dev) (ingress : Nat) (ptp : Option Nat) (b : Bytes) : QFrame where
  id := 0
  bytes := b
  buffered := false
  entered := rawNow d
  arrival := rawNow d
  ingress := ingress
  ptp := ptp
  reseal := none
  unchecked := false
  bad := false
  sc := none
  secy := none
  glean := none

/-- A PTP frame that crosses without correction is counted (R138, R143). -/
def countPtp (c : Nat) (ptp : Option Nat) (f : Bytes) (d : Dev) : Dev :=
  if isPtp f && ptp.isNone then countPair c 4 d else d

/-! Transmission (R129 to R131, R136, R137). -/

/-- Frames of an SA wait in the miss store: later ones of the SA wait behind them (R31, R320). -/
def behindMissing (rx : Bool) (sa : Nat) (d : Dev) : Bool :=
  d.fm.flights.any (fun g => g.stage == .missing && g.rx == rx && g.sa == sa)

/-- The miss store of a sector holds 512 frames (R320). -/
def missFull (d : Dev) (s : Nat) : Bool :=
  let here := fun (g : Flight) => g.stage == .missing && (match tget d.fm.secys g.secy with | some y => sectorOf y.line == s | none => false)
  decide (512 ≤ (d.fm.flights.filter here).length + (d.lm.missing.filter (fun m => sectorOf m.lane == s)).length)

/-- A frame waits in the miss store of its SecY's sector for its SA's context (R320), or is dropped before it has
a PN. -/
def missStore (f : Flight) (line : Nat) (d : Dev) : Dev :=
  if missFull d (sectorOf line) then
    let d := { d with dsp := { d.dsp with missDrops := d.dsp.missDrops + 1 } }
    gleanFinish true f.glean (bumpSecy f.secy 10 1 d)
  else
    let f := { f with id := d.fm.nextFlight, stage := .missing, glean := f.glean.map (fun g => { g with missed := true }) }
    { d with fm := { d.fm with flights := d.fm.flights ++ [f], nextFlight := d.fm.nextFlight + 1 } }

/-- Hand a frame to its slice. -/
def dispatch (o : Otp) (f : Flight) (n : Nat) (d : Dev) : Dev :=
  let f := { f with slice := n, stage := .loading }
  sliceRun o n { d with fm := { d.fm with flights := d.fm.flights ++ [f] } }

/-- Whether the group of an object can take one more frame (R312). -/
def accepting (d : Dev) (k : Nat) : Bool := match objGroup d k with | some gid => withinShare d gid | none => false

/-- Threshold of an SA's PN (R136). -/
def pnThreshold (y : Secy) (suite : Nat) : Nat := if isXpn suite then y.thrX * 2 ^ 32 else y.thr
def lastPn (suite : Nat) : Nat := if isXpn suite then 2 ^ 64 - 1 else 2 ^ 32 - 1

/-- The PN threshold, which stands at `at'`, is reached (R137): the next generation encodes, or the host is told. -/
def thresholdReached (at' i : Nat) (x : SaRec) (d : Dev) : Dev :=
  let r := limitSwitch x.obj (setSa i { x with warned := some at' } d)
  emitOn (pagesOf x.owner) 0x0380 (wd (x.an * 2 ^ 30 + flag r.1 29 + i)) (wd (objNum x.obj)) r.2

/-- The last PN has been assigned (R137). -/
def exhaust (i : Nat) (d : Dev) : Dev :=
  match saOf d i with
  | some x =>
    if encodingSa d x.obj = some i then
      emitOn (pagesOf x.owner) 0x0381 (wd (x.an * 2 ^ 30 + i)) (wd (objNum x.obj)) (setSa i { x with exhausted := true } d)
    else d
  | none => d

/-- After a PN was assigned: threshold and exhaustion. -/
def afterPn (y : Secy) (i pn : Nat) (d : Dev) : Dev :=
  match saOf d i with
  | none => d
  | some x =>
    let t := pnThreshold y x.suite
    let d := if pn = t && x.warned != some t then thresholdReached t i x d else d
    if pn = lastPn x.suite then exhaust i d else d

/-- The frame in SecTAG and clear: what goes into the slice, with its additional data (R129, R242). -/
def tagFrame (p : Word) (sci an pn : Nat) (f : Bytes) : Bytes × Nat :=
  let data := f.drop 12
  let sl := if data.length < 48 then data.length else 0
  let tag := secTag (tciAn (bit p 17) (polSci p) (bit p 18) (polConf p) an) sl pn (if polSci p then some sci else none)
  let inp := f.take 12 ++ tag ++ data
  (inp, if polConf p then min inp.length (12 + tag.length + polOffset p) else inp.length)

/-- A frame gets its PN and goes to its slice, or waits for its context, or is dropped (R131, R320). The matching octet
count takes the SecTAG and the data behind it. DESIGN CHOICE (log 68). -/
def assign (o : Otp) (f : Flight) (d : Dev) : Dev :=
  match tget d.fm.secys f.secy, tget d.fm.scs f.sc with
  | some y, some sc =>
    let k := objKey 0 f.sc
    match (encodingSa d k).bind (fun i => (saOf d i).map (fun x => (i, x))) with
    | none => gleanFinish true f.glean (bumpSecy f.secy 2 1 d)
    | some (i, x) =>
      if x.exhausted then gleanFinish true f.glean (bumpSc f.sc 2 1 d)
      else if !accepting d k then gleanFinish true f.glean (dropAt f.queue 5 d)
      else
        let f := { f with sa := i, gen := x.gen, owner := y.owner, glean := f.glean.map (fun g => { g with sa := i }) }
        let waits := behindMissing false i d
        let hit := cacheLookup i d
        if waits || !hit.1 then missStore f y.line hit.2
        else
          let t := tagFrame f.policy sc.sci x.an x.pn f.inp
          let conf := polConf f.policy
          let cyc := ghashCycles t.2 (t.1.length - t.2)
          let f := { f with
            pn := x.pn, inp := t.1, aad := t.2, conf := conf, cycles := cyc, glean := gleanStage 3 d f.glean, id := d.fm.nextFlight }
          let d := { hit.2 with fm := { hit.2.fm with nextFlight := d.fm.nextFlight + 1 } }
          let d := setSa i { x with pn := x.pn + 1 } d
          let c := if conf then 1 else 0
          let d := bumpSa i c 1 (bumpSc f.sc c 1 (bumpSecy f.secy (3 + c) (t.1.length - 12) d))
          let d := afterPn y i x.pn d
          match nextSlice k t.1.length d with
          | (some n, d) => dispatch o f n d
          | (none, d) => d
  | _, _ => d

/-- A flight that begins. -/
def newFlight (d : Dev) (rx : Bool) (secy sc : Nat) (p : Word) (f : Bytes) (ingress egress queue : Nat) (g : Option Glean) :
    Flight where
  id := d.fm.nextFlight
  rx := rx
  sa := 0
  sc := sc
  secy := secy
  pn := 0
  slice := 0
  stage := .done
  void := false
  inp := f
  aad := 0
  outp := []
  conf := false
  check := rx
  verdict := false
  icvOk := false
  hold := false
  released := false
  ingress := ingress
  egress := egress
  queue := queue
  arrival := rawNow d
  gen := 0
  owner := 0
  policy := p
  cycles := 0
  ptp := none
  reseal := none
  glean := g

/-- A frame is lost at a sector's full ingress store (R596): counted with its kind, bit 0 frame mode, 1 line mode. -/
def countLoss (s kind : Nat) (d : Dev) : Dev :=
  let x := powerOf d s
  let d := setPower s { x with loss := satInc 32 x.loss, lossTick := x.lossTick + 1, lossKind := x.lossKind ||| kind } d
  withHw (fun d => { d with pwr := { d.pwr with event := d.pwr.event ||| BitVec.ofNat 10 (2 ^ s) } }) d

/-- Whether the ingress store of a sector may be full for a frame. -/
def storeFull (d : Dev) (s n : Nat) : Bool := decide (4194304000 < (powerOf d s).store + n * 1000)

/-! PTP capture (R444). -/

/-- A frame that capture on a port takes: Ethernet PTP to one of the addresses. -/
def captures (d : Dev) (pk : Nat) (f : Bytes) : Bool :=
  match tget d.tu.capture pk with
  | none => false
  | some extra =>
    let da := beAt f 0 6
    etherType f == 0x88F7 && (da == 0x011B19000000 || da == 0x0180C200000E || extra == some da)

/-- The frame and its arrival stamp go into the receive ring; a frame over 512 bytes or one that finds the ring
full is dropped and marked. One that enters the empty ring gives EVT_PTP_RX (R464). -/
def capture (side port : Nat) (f : Bytes) (d : Dev) : Dev :=
  if 512 < f.length || 64 ≤ d.tu.ring.length then { d with tu := { d.tu with ringDropped := true } }
  else
    let c : Captured := ⟨side, port, d.tu.epoch, stampNow d side 0 port, f⟩
    let d' := { d with tu := { d.tu with ring := d.tu.ring ++ [c] } }
    if d.tu.ring.isEmpty then tickEvent ⟨0, 0x0A84, 0, 1, 0⟩ d' else d'

/-- Traffic flows (R12). -/
def trafficOn (d : Dev) : Bool := d.sys.mode == .secure || d.sys.mode == .service

/-- A frame arrives whole on a client port (R124, R131); `full` says that it meets a full ingress store.
DEDUCED (log 23). DESIGN CHOICE (log 57). -/
def clientFrame (c : Nat) (f : Bytes) (full : Bool) (dt : Nat) (o : Otp) (d : Dev) : Dev :=
  let d := passTime dt d
  match tget d.fm.pairs c with
  | none => d
  | some p =>
    let inPk := lk 1 c
    let d := measurePath 1 0 c f d
    if f.length < 60 || !runModes.contains d.sys.mode then d
    else if captures d inPk f then capture 1 c f d
    else if !trafficOn d then d
    else if full && storeFull d (sectorOf c) (f.length + 4) then countLoss (sectorOf c) 1 d
    else if etherType f = 0x8808 then countPair c 2 d
    else
      let ptp := ptpCorrects p.ptp f
      let q := lineQueue p.line
      let pass := fun (queue : Nat) (d : Dev) =>
        countPtp c ptp f (countPair c 1 (enqueue o (q queue) (plainFrame d inPk ptp f) d))
      if etherType f = d.fm.etype then countPair c 0 d
      else if etherType f = 0x888E then (if d.fm.eapolDrop then countPair c 0 d else pass (pcpQueue d p.line f) d)
      else if p.ptp.bypass && isPtp f then pass (pcpQueue d p.line f) d
      else match classify d 0 c p.defaultPass f with
        | .dropIt | .terminateIt => countPair c 0 d
        | .passIt => pass (pcpQueue d p.line f) d
        | .protectIt y => match tget d.fm.secys y with
          | none => countPair c 0 d
          | some s =>
            let queue := tgetD d.sch.secyQueue y 0
            if !polProtect s.policy then
              countPtp c ptp f (bumpSecy y 0 1 (enqueue o (q queue) { plainFrame d inPk ptp f with secy := some y } d))
            else if 15996 < f.length then bumpSecy y 1 1 d
            else
              let g := gleanStart s.line (f.length + 4) (stampNow d 1 0 c) d
              let fl := newFlight d false y s.txSc s.policy f inPk s.line (q queue) (gleanStage 1 d g.1)
              assign o { fl with ptp := ptp } (countPtp c ptp f g.2)

def execClientFrameReceive (port : Nat) (frame : Bytes) (full : Bool) (dt : Nat) (s : State) : Host.Outcome State Fault Refusal :=
  run (clientFrame port frame full dt) s

/-! Reception (R133 to R135). -/

/-- The path pair that a line port belongs to, and whether the port is its path B. -/
def pairOfLine (d : Dev) (l : Nat) : Option (Nat × PathPair × Bool) :=
  match d.pth.pairs.find? (fun p => !p.2.line && (p.2.a.carrier == l || p.2.b.carrier == l)) with
  | some (i, p) => some (i, p, p.b.carrier == l)
  | none => none

/-- The port under whose SecYs and rules a line port receives (R378). -/
def mainPort (d : Dev) (l : Nat) : Nat := match pairOfLine d l with | some (_, p, _) => p.a.carrier | none => l

/-- SecYs of a line port; receive SCs of a SecY. -/
def secysOf (d : Dev) (l : Nat) : List (Nat × Secy) := d.fm.secys.filter (fun y => y.2.line == l)
def rxScs (d : Dev) (y : Nat) : List (Nat × Sc) := d.fm.scs.filter (fun c => c.2.secy == y && !c.2.tx)

/-- The SecY of a frame that names no SC of the port: by rule, or the only one; of several without a rule the first one
decides and counts. DESIGN CHOICE (log 68). -/
def secyFor (d : Dev) (l : Nat) (f : Bytes) : Option Nat :=
  match classify d 1 l false f with
  | .protectIt y => some y
  | _ => ((secysOf d l).head?).map (·.1)

/-- Fields of a received SecTAG. -/
def rxTci (f : Bytes) : Nat := beAt f 14 1
def rxSl (f : Bytes) : Nat := beAt f 15 1
def rxPn32 (f : Bytes) : Nat := beAt f 16 4

/-- The SCI a frame names: explicit, or of an end station; none: implicit. -/
def rxSci (f : Bytes) : Option Nat :=
  if (rxTci f).testBit 5 then some (beAt f 20 8)
  else if (rxTci f).testBit 6 then some (beAt f 6 6 * 65536 + 1) else none

/-- The SecTAG is malformed (the first row of R133); an SL that is not 0 must give the frame's length, and a 0
needs 48 bytes of secure data or more. -/
def malformed (xpn : Bool) (f : Bytes) : Bool :=
  let t := rxTci f
  let n := f.length - (12 + tagLen f + 16)
  t.testBit 7 || (t.testBit 6 && t.testBit 5) || (t.testBit 4 && t.testBit 5) || t.testBit 3 != t.testBit 2
    || decide (48 ≤ rxSl f) || decide (f.length < 12 + tagLen f + 16)
    || (if rxSl f = 0 then decide (n < 48) else n != rxSl f) || (!xpn && rxPn32 f == 0)

/-- The receive SC of a frame on a port. -/
def rxScFor (d : Dev) (l : Nat) (f : Bytes) : Option (Nat × Sc) :=
  let all := (secysOf d l).flatMap (fun y => rxScs d y.1)
  match rxSci f with
  | some sci => all.find? (fun c => c.2.sci == sci)
  | none => match secyFor d l f with
    | some y => match rxScs d y with | [c] => some c | _ => none
    | none => none

/-- The lowest acceptable PN of a receive SA (R134). -/
def lowestPn (y : Secy) (x : SaRec) : Nat := max 1 (x.pn - y.window)

/-- A frame goes to its client port without waiting for anything. -/
def toClient (o : Otp) (c l : Nat) (p : PtpSet) (b : Bytes) (d : Dev) : Dev :=
  let ptp := ptpCorrects p b
  countPtp c ptp b (enqueue o (clientQueue c) (plainFrame d (lk 0 l) ptp b) d)

/-- A frame that has no place at a slice is lost. -/
def rxOverrun (f : Flight) (d : Dev) : Dev := gleanFinish true f.glean (bumpSecy f.secy 10 1 d)

/-- An SA-bearing frame is handed to its slice, or waits for its context, or is lost beyond the share of its group;
one that is not to be checked goes past the slices, in its order (R31, R133, R312). -/
def rxDispatch (o : Otp) (f : Flight) (l : Nat) (d : Dev) : Dev :=
  if !f.check then
    let f := { f with id := d.fm.nextFlight, stage := .done, verdict := true, icvOk := true, outp := stripFrame f.inp }
    { d with fm := { d.fm with flights := d.fm.flights ++ [f], nextFlight := d.fm.nextFlight + 1 } }
  else if !accepting d (objKey 1 f.sc) then rxOverrun f d
  else
    let waits := behindMissing true f.sa d
    let hit := cacheLookup f.sa d
    if waits || !hit.1 then missStore f l hit.2
    else
      let f := { f with id := d.fm.nextFlight, glean := gleanStage 3 d f.glean }
      let d := { hit.2 with fm := { hit.2.fm with nextFlight := d.fm.nextFlight + 1 } }
      match nextSlice (objKey 1 f.sc) f.inp.length d with
      | (some n, d) => dispatch o f n d
      | (none, d) => rxOverrun f d

/-- A received frame of the miss store goes on to its slice; its place in the order of release stays. -/
def rxGo (o : Otp) (f : Flight) (d : Dev) : Dev :=
  let f := { f with glean := gleanStage 3 d f.glean }
  match nextSlice (objKey 1 f.sc) f.inp.length d with
  | (some n, d) => sliceRun o n (setFlight { f with slice := n, stage := .loading } d)
  | (none, d) => rxOverrun f { d with fm := { d.fm with flights := d.fm.flights.filter (fun g => g.id != f.id) } }

/-- A protected frame with an SA (the rows of R133 from the replay check on). -/
def rxWithSa (o : Otp) (c l : Nat) (viaPair : Bool) (y : Nat) (s : Secy) (cs : Nat × Sc) (i : Nat) (x : SaRec) (f : Bytes) (d : Dev) : Dev :=
  let conf := (rxTci f).testBit 2
  let low := lowestPn s x
  let pn := if isXpn x.suite then recoverPn low (rxPn32 f) else rxPn32 f
  if polReplay s.policy && decide (pn < low) && !viaPair then bumpSc cs.1 7 1 d
  else
    let body := f.length - 16
    let aad := if conf then min body (12 + tagLen f + polOffset s.policy) else body
    let off := polValidate s.policy == 0 && !conf
    let g := gleanStart (64 + s.line) (f.length + 4) (stampNow d 0 0 l) d
    let d := g.2
    let fl := newFlight d true y cs.1 s.policy f (lk 0 l) c (clientQueue c) (gleanStage 1 d (g.1.map (fun g => { g with sa := i })))
    let fl := { fl with sa := i, pn := pn, aad := aad, conf := conf, gen := x.gen, owner := s.owner, hold := polHold s.policy }
    let fl := { fl with check := !off, cycles := ghashCycles aad (body - aad) }
    rxDispatch o fl s.line d

/-- A frame with EtherType 0x88E5 (R133). -/
def rxSecured (o : Otp) (c l : Nat) (p : Pair) (viaPair : Bool) (f : Bytes) (d : Dev) : Dev :=
  let main := p.line
  let sc := rxScFor d main f
  let yid := match sc with | some s => some s.2.secy | none => secyFor d main f
  match yid with
  | none => d
  | some y => match tget d.fm.secys y with
    | none => d
    | some s =>
      let lax := polValidate s.policy != 2 && !(rxTci f).testBit 2
      if malformed (isXpn (polSuite s.policy)) f then bumpSecy y 7 1 d
      else if (rxSci f).isNone && sc.isNone then bumpSecy y 9 1 d
      else match sc with
        | none => bumpSecy y 8 1 (if lax then toClient o c l p.ptp (stripFrame f) d else d)
        | some cs =>
          match (saOn d (objKey 1 cs.1) (rxTci f % 4)).bind (fun i => (saOf d i).map (fun x => (i, x))) with
          | none =>
            if lax then bumpSc cs.1 4 1 (toClient o c l p.ptp (stripFrame f) d) else bumpSc cs.1 3 1 d
          | some (i, x) => rxWithSa o c l viaPair y s cs i x f d

/-- One key-channel fragment (R293): when all are there, the message is whole. DEDUCED (log 36). -/
def keyFragment (l : Nat) (f : Bytes) (d : Dev) : Dev :=
  let seq := beAt f 16 1
  let idx := beAt f 17 1
  let count := beAt f 18 1
  let len := beAt f 20 2
  if beAt f 15 1 ≠ 1 || count = 0 || 16 < count || count ≤ idx || len = 0 || 1024 < len || f.length < 22 + len then d
  else
    let old := match tget d.kc.msgIn l with
      | some (s, t) => if s = seq then t else []
      | none => []
    let parts := tset old idx (slice f 22 len)
    if parts.length = count then
      let msg := parts.flatMap (·.2)
      { d with kc := { d.kc with msgIn := tdel d.kc.msgIn l, inbox := d.kc.inbox ++ [(l, msg)] } }
    else { d with kc := { d.kc with msgIn := tset d.kc.msgIn l (seq, parts) } }

/-- A frame arrives whole on a line port (R124, R133). Claim frames have their own command. A frame whose EtherType
0x88E5 stands behind VLAN tags goes to the policy rules. DESIGN CHOICE (log 68). DESIGN CHOICE (log 57). -/
def lineFrame (l : Nat) (f : Bytes) (full : Bool) (dt : Nat) (o : Otp) (d : Dev) : Dev :=
  let d := passTime dt d
  let pp := pairOfLine d l
  let main := mainPort d l
  match clientOfLine d main with
  | none => d
  | some c => match tget d.fm.pairs c with
    | none => d
    | some p =>
      let d := measurePath 0 0 l f d
      if f.length < 60 || !runModes.contains d.sys.mode then d
      else if captures d (lk 0 l) f then capture 0 l f d
      else if etherType f = d.fm.etype then
        if beAt f (etherOff f + 2) 1 = 1 then countPair c 5 (keyFragment l f d) else d
      else if !trafficOn d then d
      else if full && storeFull d (sectorOf l) (f.length + 4) then
        let d := countLoss (sectorOf l) 1 d
        match secyFor d main f with | some y => bumpSecy y 10 1 d | none => d
      else if etherType f = 0x8808 then countPair c 2 d
      else
        let chosen := match pp with | some (_, q, viaB) => b1 viaB == q.selected | none => true
        let pass := fun (d : Dev) => if chosen then countPair c 1 (toClient o c l p.ptp f d) else d
        if etherType f = 0x888E then (if d.fm.eapolDrop then countPair c 0 d else pass d)
        else if p.ptp.bypass && isPtp f then pass d
        else if tagCount f = 0 && etherType f = 0x88E5 then rxSecured o c l p pp.isSome f d
        else match classify d 1 main p.defaultPass f with
          | .dropIt => countPair c 0 d
          | .terminateIt => d
          | .passIt => pass d
          | .protectIt y => match tget d.fm.secys y with
            | none => countPair c 0 d
            | some s =>
              if polValidate s.policy = 2 then bumpSecy y 6 1 d
              else if chosen then bumpSecy y 5 1 (toClient o c l p.ptp f d) else d

def execLineFrameReceive (port : Nat) (frame : Bytes) (full : Bool) (dt : Nat) (s : State) : Host.Outcome State Fault Refusal :=
  run (lineFrame port frame full dt) s

/-! Verdict and release (R134, R135, R394, R395). -/

/-- Network time at a raw TU count of the recent past. -/
def timeAt (d : Dev) (raw : Nat) : Nat := timeNow d - span d.tu (rawNow d - raw)

/-- An ICV failure counts for the burst event and for the pair's path (R158, R384). -/
def icvFailure (f : Flight) (d : Dev) : Dev :=
  let d := { d with fm := { d.fm with scs := tmod d.fm.scs f.sc (fun x => { x with icvFails := x.icvFails + 1 }) } }
  match pairOfLine d (f.ingress % 64) with
  | some (i, p, viaB) =>
    let p := if viaB then { p with b := { p.b with icvFails := p.b.icvFails + 1 } } else { p with a := { p.a with icvFails := p.a.icvFails + 1 } }
    { d with pth := { d.pth with pairs := tset d.pth.pairs i p } }
  | none => d

/-- A delivered frame whose ICV passed: counters and the next expected PN (R133, R134). The matching octet count takes
the data without SecTAG and ICV. DESIGN CHOICE (log 68). -/
def acceptPn (f : Flight) (d : Dev) : Dev :=
  match saOf d f.sa, tget d.fm.secys f.secy with
  | some x, some y =>
    let oct := f.inp.length - 16 - 12 - tagLen f.inp
    let d := bumpSecy f.secy (if f.conf then 12 else 11) oct d
    if f.pn < lowestPn y x && !polReplay f.policy then bumpSc f.sc 6 1 d
    else bumpSa f.sa 0 1 (bumpSc f.sc 0 1 (setSa f.sa { x with pn := max x.pn (f.pn + 1) } d))
  | _, _ => d

/-- A frame that fails its ICV is handed on all the same: Check or Disabled with C = 0 (R133). -/
def failDelivers (f : Flight) : Bool := polValidate f.policy != 2 && !f.conf

/-- Counters of a frame whose ICV failed. -/
def countBad (f : Flight) (d : Dev) : Dev :=
  let i := if failDelivers f then 1 else 2
  bumpSa f.sa i 1 (bumpSc f.sc i 1 d)

/-- Put an opened frame into its client queue. -/
def toQueue (o : Otp) (f : Flight) (unchecked : Bool) (d : Dev) : Dev :=
  let pair := tget d.fm.pairs f.egress
  let ptp := match pair with | some p => ptpCorrects p.ptp f.outp | none => none
  let q := plainFrame d f.ingress ptp f.outp
  let q := { q with id := f.id, arrival := f.arrival, unchecked := unchecked, glean := gleanStage 6 d f.glean }
  let q := { q with bad := !f.icvOk && !failDelivers f, sc := some (objKey 1 f.sc, f.pn) }
  countPtp f.egress ptp f.outp (enqueue o f.queue q (measurePath 0 0 (f.ingress % 64) f.outp d))

/-- A unit arrives in the Marshalling yard (R393, R394): its first copy is stored, a later one is noted.
DEDUCED (log 38). -/
def yardTake (id : Nat) (viaB : Bool) (f : Flight) (o : Otp) (d : Dev) : Dev :=
  match tget d.pth.pairs id with
  | none => d
  | some p =>
    let e := if viaB then p.b else p.a
    if e.state ≠ 2 then gleanFinish true f.glean d
    else
      let due := f.arrival + (p.dp * 1000 - e.offset) * 7 / 4
      let put := setPair id
      if f.pn ≤ tgetD p.delivered f.sc 0 then gleanFinish true f.glean (put { p with late := satInc 32 p.late } d)
      else match p.units.find? (fun u => u.sc == f.sc && u.num == f.pn) with
        | some u =>
          let late := f.arrival - u.first
          let us := p.units.map (fun v => if v == u then { u with fromA := u.fromA || !viaB, fromB := u.fromB || viaB } else v)
          gleanFinish true f.glean (pathsRefresh (put (countCopies (late * 4 / 7) viaB { p with units := us }) d))
        | none =>
          let f := { f with glean := f.glean.map (fun g => { g with granary := true }) }
          let u : YardUnit := ⟨f.sc, f.pn, f.arrival, due, !viaB, viaB, viaB, some f, []⟩
          match yardStore o id viaB f.outp d with
          | some d => put { p with units := p.units ++ [u] } d
          | none => gleanFinish true f.glean d

/-- The counters of a delivered frame: one that was not to be checked, one whose ICV passed, one whose ICV failed
(R133). -/
def countDelivered (f : Flight) (d : Dev) : Dev :=
  if !f.check then bumpSc f.sc 5 1 d else if f.icvOk then acceptPn f d else countBad f d

/-- The replay check of R134 fails on a frame, against the next expected PN as it stands. -/
def replayLate (d : Dev) (f : Flight) : Bool :=
  match saOf d f.sa, tget d.fm.secys f.secy with
  | some x, some y => polReplay f.policy && decide (f.pn < lowestPn y x)
  | _, _ => false

/-- A received frame leaves the reorder stage with its verdict known; one whose SecY has been deleted since completes
(R149). -/
def rxRelease (o : Otp) (f : Flight) (d : Dev) : Dev :=
  if f.check && !f.icvOk && !failDelivers f then gleanFinish true f.glean (countBad f d)
  else match pairOfLine d (f.ingress % 64) with
    | some (id, p, viaB) =>
      if f.check && !f.icvOk then gleanFinish true f.glean (countBad f d)
      else if p.hitless then yardTake id viaB f o d
      else if b1 viaB ≠ p.selected || f.pn ≤ tgetD p.delivered f.sc 0 then gleanFinish true f.glean d
      else if replayLate d f then gleanFinish true f.glean (bumpSc f.sc 7 1 d)
      else
        let p := { p with delivered := tset p.delivered f.sc f.pn, hold := none }
        countDelivered f (toQueue o f false { d with pth := { d.pth with pairs := tset d.pth.pairs id p } })
    | none =>
      if replayLate d f then gleanFinish true f.glean (bumpSc f.sc 7 1 d)
      else countDelivered f (toQueue o f false d)

/-- Remove a flight. -/
def dropFlight (id : Nat) (d : Dev) : Dev := { d with fm := { d.fm with flights := d.fm.flights.filter (fun f => f.id != id) } }

/-- Two flights belong to one order: that of their secure channel, across its SAs (R132, R281). -/
def sameOrder (f g : Flight) : Bool := f.rx == g.rx && f.sc == g.sc

/-- One frame at the head of its order leaves the reorder stage, where it can. -/
def releaseOne (o : Otp) (f : Flight) (d : Dev) : Option Dev :=
  if f.stage ≠ .done then none
  else if f.void then some (gleanFinish true f.glean (dropFlight f.id d))
  else if !f.rx then
    let q := plainFrame d f.ingress f.ptp f.outp
    let q := { q with
      id := f.id, arrival := f.arrival, reseal := f.reseal, sc := some (objKey 0 f.sc, f.pn), secy := some f.secy,
      glean := gleanStage 6 d f.glean }
    some (enqueue o f.queue q (dropFlight f.id d))
  else if f.verdict then some (rxRelease o f (dropFlight f.id d))
  else if f.hold || (pairOfLine d (f.ingress % 64)).isSome then none
  else
    if replayLate d f then some (gleanFinish true f.glean (bumpSc f.sc 7 1 (dropFlight f.id d)))
    else some (toQueue o f true (setFlight { f with released := true } d))

/-- Frames in order are released as far as they can be (R31, R315). The fuel is the number of flights. -/
def releaseLoop (o : Otp) (like : Flight) : Nat → Dev → Dev
  | 0, d => d
  | n + 1, d =>
    match d.fm.flights.find? (fun f => sameOrder f like && !(f.stage == .missing && !f.rx) && !f.released) with
    | none => d
    | some f => match releaseOne o f d with
      | some d => releaseLoop o like n d
      | none => d

def releaseFrom (o : Otp) (f : Flight) (d : Dev) : Dev := releaseLoop o f d.fm.flights.length d

/-- A slice's result or a void token reaches the reorder stage (R31, R315). DESIGN CHOICE (log 57). -/
def reorder (id : Nat) (o : Otp) (d : Dev) : Dev :=
  match flightOf d id with
  | none => d
  | some f =>
    let d := if f.stage = .sliced then setFlight { f with stage := .done, glean := gleanStage 5 d f.glean } d else d
    if f.stage = .sliced || f.stage = .done then sliceRun o f.slice (releaseFrom o f d) else d

def execReorderRelease (id : Nat) (s : State) : Host.Outcome State Fault Refusal := run (reorder id) s

/-- The verdict on a received frame (R133, R135). A frame that has gone on unchecked is removed from its queue
or, on the wire, ends with its FCS inverted. DESIGN CHOICE (log 57). -/
def icvVerdict (id : Nat) (o : Otp) (d : Dev) : Dev :=
  match flightOf d id with
  | none => d
  | some f =>
    if !f.rx || f.verdict || !(f.stage = .sliced || f.stage = .done) then d
    else
      let viaB := match pairOfLine d (f.ingress % 64) with | some (_, _, b) => b | none => false
      let d := if f.icvOk then validFrame f.sa (timeAt d f.arrival) viaB d else icvFailure f d
      let f := { f with verdict := true }
      if !f.released then releaseFrom o f (setFlight f d)
      else
        let d := dropFlight id d
        let started := d.sch.onWire.any (fun w => w.1 == id)
        let d := { d with sch := { d.sch with onWire := d.sch.onWire.filter (fun w => w.1 != id) } }
        let place := (queueOf d f.queue).frames.findIdx? (fun q => q.id == id && q.unchecked)
        if f.icvOk || failDelivers f then
          let x := queueOf d f.queue
          let d := setQueue f.queue { x with frames := x.frames.map (fun q => if q.id == id then { q with unchecked := false } else q) } d
          if f.icvOk then acceptPn f d else countBad f d
        else
          let d := countBad f d
          if started then bumpSecy f.secy 13 1 d
          else match place with
            | some i =>
              let g := ((queueOf d f.queue).frames[i]?).bind (·.glean)
              gleanFinish true g (takeFrame f.queue i d)
            | none => d

def execRxIcvVerdict (id : Nat) (s : State) : Host.Outcome State Fault Refusal := run (icvVerdict id) s

/-! Rule tables (R127, R128). -/

/-- The shadow of a sector becomes active at a tick boundary (R127). -/
def ruleSwap (s : Nat) (_ : Otp) (d : Dev) : Dev :=
  let x := rulesOf d s
  if !x.armed || d.sys.ticks ≤ x.armedAt then d
  else
    let x := { x with
      active := x.shadow, dead := x.deadShadow, armed := false, uncommitted := false, generation := x.generation + 1 }
    emit 0 0x0382 (wd s) x.generation (setRules s x d)

def execRuleSwap (sector : Nat) (s : State) : Host.Outcome State Fault Refusal := run (ruleSwap sector) s

end Sys2Proof.Machine
end

