-- ==== Sys2Proof/Machine/KeyChange.lean ====
section
/-!
DEFINITION. Key associations and hitless key change (chapter 08): SA commands, schedules and their instants,
chains, the re-key of every chain.
-/
namespace Sys2Proof.Machine

/-- A KC_CHAIN_CREATE runs on an object of a kind (R72). -/
def chainRuns (d : Dev) (p : Nat → Bool) : Bool := d.kc.chains.any (fun c => p c.1 && c.2.creating.isSome)

/-! SA_INSTALL, SA_DESTROY, SA_SET_ENCODING, SA_STATUS (R299 to R301). -/

/-- Suite of a new SA on an object: that of its SecY, or the line-mode one. -/
def newSuite (d : Dev) (k : Nat) (bv16 : Bool) : Nat :=
  if objKind k < 2 then
    match tget d.fm.scs (objNum k) with
    | some sc => match tget d.fm.secys sc.secy with | some y => polSuite y.policy | none => 0
    | none => 0
  else if bv16 then 0x11 else 0x10

/-- A slot that holds a symmetric key of a length. -/
def symKey (d : Dev) (n len : Nat) : Bool :=
  match slotRec d n with
  | some s => !publicType s.typ && typeLen s.typ == some len
  | none => false

/-- Why a page may not load a slot's key into slices (R496): the range 0x05xx is served by the secure world. -/
def loadForbids (o : Otp) (d : Dev) (page n : Nat) : Option Nat :=
  match slotRec d n with | some s => slotUse o page attrSlice worldS s | none => none

/-- Line-mode request with the BV16 suite. -/
def wantsBv16 (r : NcsReq) : Bool := bit (rw r 0) 31 && bit (rw r 0) 24

/-- Salt of SA_INSTALL. -/
def installSalt (suite : Nat) (r : NcsReq) : Bytes :=
  if 0x10 ≤ suite then payloadBytes r 2 4 else if isXpn suite then payloadBytes r 2 12 else []

def installPn (r : NcsReq) : Nat := (rw r 6).toNat + 2 ^ 32 * (rw r 7).toNat

/-- The attributes of the slot a request names, of both slots with the BV16 suite. -/
def installAttrs (d : Dev) (r : NcsReq) (suite : Nat) : Nat :=
  let of := fun (n : Nat) => ((slotRec d n).map (·.attrs)).getD 0
  if suite = 0x11 then of (rf r 1 12 0) &&& of (rf r 1 28 16) else of (rf r 1 12 0)

/-- The SA that a request would install, without its index. -/
def installRec (d : Dev) (r : NcsReq) : SaRec :=
  let k := ow (rw r 0)
  let suite := newSuite d k (wantsBv16 r)
  { blankSa with
    obj := k, an := owAn (rw r 0), owner := objOwner d k, attrs := installAttrs d r suite, key := slotKey d (rf r 1 12 0), suite := suite
    ka := if suite = 0x11 then slotKey d (rf r 1 28 16) else [], salt := installSalt suite r
    ssci := (rw r 5).toNat, pn := installPn r }

/-- R272: another transmit SA that still holds a key has the same key and salt, and SSCI. -/
def keyReused (d : Dev) (x : SaRec) : Bool :=
  isTx x.obj && (isXpn x.suite || decide (0x10 ≤ x.suite)) && d.kc.sas.any (fun p =>
    let y := p.2
    isTx y.obj && y.state != 4 && decide (objKind y.obj = objKind x.obj) && y.key == x.key && y.salt == x.salt
      && (objKind x.obj == 2 || y.ssci == x.ssci))

def saInstall (o : Otp) (d : Dev) (r : NcsReq) : Dev × Nat × List Word :=
  let x := installRec d r
  match freeSa o d with
  | none => (d, stNoResource, [])
  | some i =>
    if keyReused d x then (d, 0x8500, [])
    else
      let n := (tgetD d.kc.installs i 0 + 1) % 2 ^ 32
      let d := { d with kc := { d.kc with installs := tset d.kc.installs i n } }
      let d := putSa i { x with gen := n } d
      let d := if bit (rw r 0) 25 then { d with kc := { d.kc with encNext := d.kc.encNext ++ [(x.obj, x.an)] } } else d
      let d := match tget d.fm.scs (objNum x.obj) with
        | some sc => match tget d.fm.secys sc.secy with
          | some y => if objKind x.obj = 0 && decide (pnThreshold y x.suite ≤ x.pn) then
              match saOf d i with | some x => thresholdReached (pnThreshold y x.suite) i x d | none => d
            else d
          | none => d
        | none => d
      (d, stOk, [wd i])

def cmdSaInstall : Cmd where
  code := 0x0500
  tenants := true
  modes := runModes
  blank := false
  lenOk := lenIs 8
  forbids := fun o d r =>
    ((objForbids d r.page (ow (rw r 0))).or (loadForbids o d r.page (rf r 1 12 0))).or
      (if wantsBv16 r then loadForbids o d r.page (rf r 1 28 16) else none)
  bad := fun o d r =>
    let w := rw r 0
    let k := ow w
    let suite := newSuite d k (wantsBv16 r)
    let line := decide (2 ≤ objKind k)
    let len := suiteKeyLen suite
    let pn := installPn r
    firstBad
      [(0, fld w 29 28 == 0 && fld w 23 18 == 0 && (!line || fld w 17 6 == 0) && objExists d k
          && (tget d.kc.chains k).isNone && (isTx k || !bit w 25) && (!bit w 24 || (line && o.variant == .bv128))),
       (1, rf r 1 31 29 == 0 && rf r 1 15 13 == 0 && symKey d (rf r 1 12 0) len
          && (if wantsBv16 r then symKey d (rf r 1 28 16) 32 else rf r 1 28 16 == 0)),
       (2, line || isXpn suite || rw r 2 == 0), (3, (!line && isXpn suite) || rw r 3 == 0),
       (4, (!line && isXpn suite) || rw r 4 == 0), (5, (!line && isXpn suite) || rw r 5 == 0),
       (6, if line then rw r 6 == 0 else pn != 0), (7, if line || !isXpn suite then rw r 7 == 0 else true)]
  busy := fun _ d r => (saOn d (ow (rw r 0)) (owAn (rw r 0))).isSome
  full := fun o d _ => (freeSa o d).isNone
  act := saInstall

def execSaInstall (r : NcsReq) (s : State) : Host.Outcome State Fault Refusal := run (command cmdSaInstall r) s

/-- R121 for an SA index. -/
def saForbids (d : Dev) (page i : Nat) : Option Nat :=
  match saOf d i with
  | some x => if page ≠ 0 && x.owner ≠ page then some 1 else none
  | none => none

def cmdSaDestroy : Cmd where
  code := 0x0501
  tenants := true
  blank := false
  lenOk := lenIs 1
  forbids := fun _ d r => saForbids d r.page (rf r 0 19 0)
  bad := fun _ d r => firstBad [(0, rf r 0 31 20 == 0
    && (match saOf d (rf r 0 19 0) with | some x => x.state != 4 | none => false))]
  act := fun _ d r => (destroySa (rf r 0 19 0) d, stOk, [])

def execSaDestroy (r : NcsReq) (s : State) : Host.Outcome State Fault Refusal := run (command cmdSaDestroy r) s

/-- The SA on the AN that an object word names. -/
def namedSa (d : Dev) (w : Word) : Option SaRec := (saOn d (ow w) (owAn w)).bind (saOf d)

def cmdSaSetEncoding : Cmd where
  code := 0x0502
  tenants := true
  modes := runModes
  blank := false
  lenOk := lenIs 1
  forbids := fun _ d r => objForbids d r.page (ow (rw r 0))
  bad := fun _ d r => firstBad [(0, owClean (rw r 0) && isTx (ow (rw r 0)) && objExists d (ow (rw r 0))
    && (match namedSa d (rw r 0) with | some x => x.state == 1 || x.state == 2 | none => false))]
  act := fun _ d r =>
    match namedSa d (rw r 0) with
    | some x =>
      if x.state = 1 then
        ({ d with kc := { d.kc with encNext := d.kc.encNext ++ [(ow (rw r 0), owAn (rw r 0))] } }, stOk, [])
      else (d, stOk, [])
    | none => (d, stOk, [])

def execSaSetEncoding (r : NcsReq) (s : State) : Host.Outcome State Fault Refusal := run (command cmdSaSetEncoding r) s

/-- The switches that encode-now and SA_SET_ENCODING asked for, at the tick boundary (R299, R300). -/
def encodeNow (d : Dev) : Dev :=
  d.kc.encNext.foldl (fun d e => switchTx e.1 e.2 0xFFF (timeNow d) (overlap d) d)
    { d with kc := { d.kc with encNext := [] } }

/-- Ticks, rounded up, until an instant. -/
def ticksUntil (d : Dev) (t : Nat) : Nat := (t - timeNow d + tickU - 1) / tickU

/-- The instant at which a RETIRING SA is destroyed. -/
def retireInstant (x : SaRec) : Option Nat := x.retireAt.or x.retireMax

/-- The eight words of R301; a FREE index shows state 0. -/
def saWords (d : Dev) (i : Nat) : List Word :=
  match saOf d i with
  | none => [0, 0, 0, 0, 0, 0, 0, 0xFFF]
  | some x =>
    let chain := if x.chain then (match tget d.kc.chains x.obj with | some c => c.id | none => 0) else 0
    let left := match retireInstant x with | some t => if x.state = 3 then ticksUntil d t else 0 | none => 0
    [wd (x.state * 2 ^ 28 + objKind x.obj * 2 ^ 26 + x.an * 2 ^ 24 + x.owner * 2 ^ 16 + flag x.chain 0),
     wd (objNum x.obj), wd x.gen, wd chain, lo32 x.pn, hi32 x.pn, wd left,
     wd (match schedOf d i with | some (id, _) => id | none => 0xFFF)]

def cmdSaStatus : Cmd where
  code := 0x0503
  tenants := true
  lenOk := lenIs 1
  forbids := fun _ d r => saForbids d r.page (rf r 0 19 0)
  bad := fun o _ r => firstBad [(0, rf r 0 31 20 == 0 && decide (rf r 0 19 0 < saMax o))]
  act := fun _ d r => (d, stOk, saWords d (rf r 0 19 0))

def execSaStatus (r : NcsReq) (s : State) : Host.Outcome State Fault Refusal := run (command cmdSaStatus r) s

/-- SA_INDEX_FREE (R273). -/
def execSaIndexFree (sa : Nat) (s : State) : Host.Outcome State Fault Refusal := run (fun _ d => freeIndex sa d) s

/-! Schedules (R276 to R280, R302). -/

/-- The slices that serve an object. -/
def servingSlices (d : Dev) (k : Nat) : List Nat :=
  match (objGroup d k).bind (tget d.dsp.groups) with
  | some g => stripeSlices g (spreadOf d k).s (spreadOf d k).b
  | none => []

/-- The context of an SA goes into the cache and into the slices that serve its object (R279). -/
def preloadSa (i : Nat) (x : SaRec) (d : Dev) : Dev :=
  (servingSlices d x.obj).foldl (fun d n => if slicePowered d n && loadable d i then startLoad n i d else d) (prefetch i d)

/-- The contexts of a schedule's new SAs are preloaded. -/
def preload (id : Nat) (s : Sched) (d : Dev) : Dev :=
  let d := (schedObjs d s).foldl (fun d e => match targetSa d e with | some (i, x) => preloadSa i x d | none => d) d
  { d with kc := { d.kc with scheds := tmod d.kc.scheds id (fun s => { s with preloaded := true }) } }

def preloadDue (d : Dev) (s : Sched) : Bool := !s.preloaded && reachedAt (timeNow d + s.lead * tickU) s.t

/-- KC_PRELOAD (R279). -/
def kcPreload (id dt : Nat) (_ : Otp) (d : Dev) : Dev :=
  let d := passTime dt d
  match tget d.kc.scheds id with
  | some s => if preloadDue d s then preload id s d else d
  | none => d

def execKcPreload (id dt : Nat) (s : State) : Host.Outcome State Fault Refusal := run (kcPreload id dt) s

/-- The lowest schedule ID not in use; 0xFFE and 0xFFF name no schedule. -/
def freeSched (d : Dev) : Option Nat := firstNat 0 0xFFE (fun i => (tget d.kc.scheds i).isNone)

/-- Targets that wait in all schedules. -/
def pendingTargets (d : Dev) : Nat := (d.kc.scheds.map (fun s => s.2.objs.length)).sum

/-- T of a schedule request, words 0 to 2. -/
def schedT (r : NcsReq) : Nat := instant (rf r 0 15 0 * 2 ^ 32 + (rw r 1).toNat) (rw r 2).toNat

def tooSoon (d : Dev) (t : Nat) : Bool := !reachedAt t (timeNow d + 2 * tickU)

/-- W of a schedule request. -/
def schedW (d : Dev) (r : NcsReq) : Nat := if rf r 3 9 0 = 0 then overlap d else rf r 3 9 0

/-- Object words of KC_SCHEDULE. -/
def schedWords (r : NcsReq) : List (Nat × Word) := (List.range (rf r 3 23 16)).map (fun i => (4 + i, rw r (4 + i)))

/-- Make a schedule; its preload starts at once where T is near. -/
def makeSched (id : Nat) (s : Sched) (d : Dev) : Dev :=
  let d := { d with kc := { d.kc with scheds := tset d.kc.scheds id s } }
  if preloadDue d s then preload id s d else d

def newSched (d : Dev) (r : NcsReq) (objs : List (Nat × Nat)) (all : Bool) : Sched :=
  ⟨r.page, d.tu.epoch, schedT r, schedW d r, fld d.kc.prm0 25 16, retireMax d, objs, false, false, all⟩

def kcSchedule (d : Dev) (r : NcsReq) (objs : List (Nat × Nat)) (all : Bool) : Dev × Nat × List Word :=
  if tooSoon d (schedT r) then (d, 0x8501, [])
  else match freeSched d with
    | none => (d, stNoResource, [])
    | some id =>
      let d := makeSched id (newSched d r objs all) d
      let d := if all then { d with kc := { d.kc with rekeyAll := some (id, schedT r) } } else d
      (d, stOk, [wd id])

def cmdKcSchedule : Cmd where
  code := 0x0504
  tenants := true
  modes := runModes
  blank := false
  lenOk := fun r => decide (4 ≤ r.len) && r.len == 4 + rf r 3 23 16
  forbids := fun _ d r => (schedWords r).findSome? (fun e => objForbids d r.page (ow e.2))
  bad := fun _ d r => firstBad
    ([(0, rf r 0 31 16 == d.tu.epoch % 65536), (2, decide ((rw r 2).toNat < 1000000000)),
      (3, rf r 3 31 24 == 0 && rf r 3 15 10 == 0 && decide (1 ≤ rf r 3 23 16) && decide (rf r 3 23 16 ≤ 240))]
      ++ (schedWords r).map (fun e =>
        (e.1, owClean e.2 && objExists d (ow e.2) && (targetSa d (ow e.2, owAn e.2)).isSome)))
  full := fun _ d r => decide (4096 < pendingTargets d + rf r 3 23 16) || (freeSched d).isNone
  act := fun _ d r => kcSchedule d r ((schedWords r).map (fun e => (ow e.2, owAn e.2))) false

def execKcSchedule (r : NcsReq) (s : State) : Host.Outcome State Fault Refusal := run (command cmdKcSchedule r) s

/-- A schedule is taken back: its SAs stay INSTALLED; one that a valid frame has made ACTIVE retires the old one
without it (R277, R295). -/
def dropSched (id : Nat) (d : Dev) : Dev :=
  let t := (tget d.kc.scheds id).map (·.t)
  let named := fun (x : SaRec) => x.state == 2 && !isTx x.obj
    && (match x.switched with | some (j, u, _, _) => j == id && some u == t | none => false)
  let mine := d.kc.sas.filter (fun p => named p.2)
  let d := { d with kc := { d.kc with
    scheds := tdel d.kc.scheds id
    sas := d.kc.sas.map (fun p => (p.1, if named p.2 then { p.2 with switched := none } else p.2))
    rekeyAll := match d.kc.rekeyAll with | some (j, t) => if j = id then none else some (j, t) | none => none } }
  mine.foldl (fun d p => setRetire p.2.obj d) d

def cmdKcCancel : Cmd where
  code := 0x0505
  tenants := true
  modes := runModes
  blank := false
  lenOk := lenIs 1
  bad := fun _ d r => firstBad [(0, rf r 0 31 12 == 0 && (match tget d.kc.scheds (rf r 0 11 0) with
    | some s => s.page == r.page && !reachedAt (timeNow d) s.t
    | none => false))]
  act := fun _ d r => (dropSched (rf r 0 11 0) d, stOk, [])

def execKcCancel (r : NcsReq) (s : State) : Host.Outcome State Fault Refusal := run (command cmdKcCancel r) s

/-- One object switches at T (R276, R277); an object whose new SA is no longer INSTALLED is reported late, but a
receive object that went over in band before T (R295). Whether a transmit object switched. -/
def switchOne (id : Nat) (s : Sched) (acc : Nat × Dev) (e : Nat × Nat) : Nat × Dev :=
  let d := acc.2
  match targetSa d e with
  | some (i, x) =>
    if isTx e.1 then (acc.1 + 1, switchTx e.1 x.an id s.t s.w d)
    else (acc.1, activateRx i (some (id, s.t, s.w, s.rmax)) d)
  | none =>
    let named := d.kc.sas.any (fun p => p.2.obj == e.1 && p.2.state == 2
      && (match p.2.switched with | some (j, t, _, _) => j == id && t == s.t | none => false))
    if named then acc
    else match (sasOf d e.1).head? with
      | some (_, x) => (acc.1, mismatchEvent false id x d)
      | none => acc

/-- Pages of a schedule's events. -/
def schedPages (s : Sched) : List Nat := pagesOf s.page

/-- KC_SWITCH: the schedule's instant (R276, R277). DEDUCED (log 34). -/
def kcSwitch (id dt : Nat) (_ : Otp) (d : Dev) : Dev :=
  let d := passTime dt d
  match tget d.kc.scheds id with
  | none => d
  | some s =>
    if !reachedAt (timeNow d) s.t then d
    else
      let objs := schedObjs d s
      let x := objs.foldl (switchOne id s) (0, { d with kc := { d.kc with scheds := tdel d.kc.scheds id } })
      emitOn (schedPages s) 0x0580 (wd id) (wd x.1) x.2

def execKcSwitch (id dt : Nat) (s : State) : Host.Outcome State Fault Refusal := run (kcSwitch id dt) s

/-- SA_RETIRE_TX: T + W (R276). -/
def saRetireTx (sa dt : Nat) (_ : Otp) (d : Dev) : Dev :=
  let d := passTime dt d
  match saOf d sa with
  | some x => match x.retireAt with
    | some t => if isTx x.obj && x.state = 3 && reachedAt (timeNow d) t then destroySa sa d else d
    | none => d
  | none => d

def execSaRetireTx (sa dt : Nat) (s : State) : Host.Outcome State Fault Refusal := run (saRetireTx sa dt) s

/-- SA_RETIRE_RX: the retire instant, or T + RETIRE_MAX without a valid frame (R277). -/
def saRetireRx (sa dt : Nat) (_ : Otp) (d : Dev) : Dev :=
  let d := passTime dt d
  let d := match saOf d sa with | some x => if isTx x.obj then d else setRetire x.obj d | none => d
  match saOf d sa with
  | some x => match retireInstant x with
    | some t => if !isTx x.obj && x.state = 3 && reachedAt (timeNow d) t then destroySa sa d else d
    | none => d
  | none => d

def execSaRetireRx (sa dt : Nat) (s : State) : Host.Outcome State Fault Refusal := run (saRetireRx sa dt) s

/-- KC_SCHED_LATE: T + W has passed without a valid frame (R278). -/
def schedLate (sa dt : Nat) (_ : Otp) (d : Dev) : Dev :=
  let d := passTime dt d
  match saOf d sa with
  | some x => match x.switched with
    | some (id, t, w, _) =>
      if id ≠ 0xFFF && !isTx x.obj && x.state = 2 && x.t1.isNone && x.t1b.isNone && !x.told
          && reachedAt (timeNow d) (t + w * tickU) then
        mismatchEvent false (if id = 0xFFE then 0xFFF else id) x (setSa sa { x with told := true } d)
      else d
    | none => d
  | none => d

def execKcSchedLate (sa dt : Nat) (s : State) : Host.Outcome State Fault Refusal := run (schedLate sa dt) s

/-! Chains (R282 to R286, R303). -/

/-- The direction bit of a chain under a KEK slot: 0 when the initiator of its agreement transmits. A KEK that no
agreement has brought leaves it free. DEDUCED (log 35). -/
def chainDir (d : Dev) (k slot : Nat) : Nat × Dev :=
  match d.kc.peers.find? (fun p => p.2.kekSlot == slot && p.2.estab) with
  | some (_, p) => (if p.estabInit == isTx k then 0 else 1, d)
  | none => let x := draw 1 d; (x.1.toNat, x.2)

/-- Seconds of the next multiple of P. -/
def nextPeriod (d : Dev) (p : Nat) : Nat := (secOf (timeNow d) / p + 1) * p

def periodTooSoon (d : Dev) (p : Nat) : Bool := p != 0 && tooSoon d (instant (nextPeriod d p) 0)

/-- The chain is set up; its first two generations are derived afterwards. -/
def chainCreate (r : NcsReq) (d : Dev) : Dev :=
  let k := ow (rw r 0)
  let slot := rf r 1 12 0
  let x := chainDir d k slot
  let d := x.2
  let c : Chain := ⟨objOwner d k, slot, sha384 (slotKey d slot), x.1, (rw r 2).toNat, rf r 3 31 16, bit (rw r 3) 0, 0, false, 0,
    some (r.page, r.tag), secOf (timeNow d)⟩
  if periodTooSoon d c.period then finish r.page r.tag 0x0506 0x8501 0 d
  else { d with kc := { d.kc with chains := tset d.kc.chains k c } }

/-- Two SA indices are free. -/
def twoFree (o : Otp) (d : Dev) : Bool := decide (d.kc.sas.length + reservedSas d + 2 ≤ saMax o)

def cmdKcChainCreate : Cmd where
  code := 0x0506
  tenants := true
  modes := runModes
  blank := false
  event := true
  lenOk := lenIs 4
  forbids := fun o d r => (objForbids d r.page (ow (rw r 0))).or (match slotRec d (rf r 1 12 0) with
    | some s => slotUse o r.page attrKdu worldS s
    | none => none)
  bad := fun o d r =>
    let k := ow (rw r 0)
    firstBad
      [(0, owClean (wd ((rw r 0).toNat - owAn (rw r 0) * 2 ^ 26)) && objExists d k && (tget d.kc.chains k).isNone
          && (sasOf d k).isEmpty),
       (1, rf r 1 31 13 == 0 && (match slotRec d (rf r 1 12 0) with | some s => s.typ == 3 | none => false)),
       (2, !d.kc.chains.any (fun c => c.2.kekSlot == rf r 1 12 0 && c.2.id == (rw r 2).toNat)),
       (3, rf r 3 15 1 == 0 && (!bit (rw r 3) 0 || (decide (2 ≤ objKind k) && o.variant == .bv128)))]
  full := fun o d _ => !twoFree o d
  act := fun _ d _ => (d, stAccepted, [])
  after := fun _ r _ d => chainCreate r d

def execKcChainCreate (r : NcsReq) (s : State) : Host.Outcome State Fault Refusal := run (command cmdKcChainCreate r) s

/-- Before a derivation a chain takes up the KEK that its slot holds now: under another one its count of generations
and its direction bit start anew (R270, R282, R290). -/
def chainKek (k : Nat) (d : Dev) : Dev :=
  match tget d.kc.chains k with
  | none => d
  | some c =>
    let hash := sha384 (slotKey d c.kekSlot)
    if hash == c.kekHash then d
    else
      let x := chainDir d k c.kekSlot
      { x.2 with kc := { x.2.kc with chains := tset x.2.kc.chains k { c with kekHash := hash, derived := 0, dir := x.1 } } }

/-- One generation derived, with EVT_KC_GEN_LIMIT when 65,536 remain (R286). -/
def countDerived (k n : Nat) (d : Dev) : Dev :=
  match tget d.kc.chains k with
  | none => d
  | some c =>
    let d := { d with kc := { d.kc with chains := tset d.kc.chains k { c with derived := c.derived + n } } }
    if c.derived < 2 ^ 31 - 65536 && 2 ^ 31 - 65536 ≤ c.derived + n then
      emitOn (pagesOf c.owner) 0x0584 (wd c.id) (wd (2 ^ 31 - (c.derived + n))) d
    else d

/-- The first two generations of a chain on the two indices kept for them: 0 ACTIVE at once, 1 INSTALLED. -/
def chainFirst (k : Nat) (page tag : Nat) (o : Otp) (d : Dev) : Dev :=
  let d := { d with kc := { d.kc with
    chains := tmod d.kc.chains k (fun c => { c with creating := none, nextReady := true, gen := 0 }) } }
  let a := deriveGen k 0 2 o d
  let d := if isTx k then setKobj k { kobjOf a.2 k with enc := some 0 } a.2 else a.2
  let b := deriveGen k 1 1 o d
  finish page tag 0x0506 stOk (wd (a.1.getD 0)) (countDerived k 2 b.2)

/-- CHAIN_DERIVE_DONE: the generations that a chain lacks are derived (R283). Derivations wait while the Signal
box is down (R295), and while the KEK slot is empty (R291); a chain whose KEK is gone before its first derivation is not
created. DESIGN CHOICE (log 69). -/
def chainDerive (k : Nat) (o : Otp) (d : Dev) : Dev :=
  match tget d.kc.chains k with
  | none => d
  | some c =>
    if !d.sb.up then d
    else match c.creating with
      | some (page, tag) =>
        if (slotRec d c.kekSlot).isSome then chainFirst k page tag o (deviceJob (chainKek k d))
        else finish page tag 0x0506 stNoResource 0 { d with kc := { d.kc with chains := tdel d.kc.chains k } }
      | none =>
        if c.nextReady || (slotRec d c.kekSlot).isNone then d
        else
          let d := chainKek k d
          let done := match tget d.kc.chains k with | some c => c.derived | none => 0
          if 2 ^ 31 ≤ done then d
          else
            let x := deriveGen k ((c.gen + 1) % 2 ^ 32) 1 o d
            if x.1.isNone then x.2
            else
              let d := countDerived k 1 x.2
              { d with kc := { d.kc with chains := tmod d.kc.chains k (fun c => { c with nextReady := true }) } }

def execChainDeriveDone (obj : Nat) (s : State) : Host.Outcome State Fault Refusal := run (chainDerive obj) s

def cmdKcChainDelete : Cmd where
  code := 0x0507
  tenants := true
  modes := runModes
  blank := false
  lenOk := lenIs 1
  forbids := fun _ d r => objForbids d r.page (ow (rw r 0))
  bad := fun _ d r => firstBad [(0, owClean (wd ((rw r 0).toNat - owAn (rw r 0) * 2 ^ 26))
    && (tget d.kc.chains (ow (rw r 0))).isSome)]
  busy := fun _ d r => match tget d.kc.chains (ow (rw r 0)) with | some c => c.creating.isSome | none => false
  act := fun _ d r =>
    let d := (destroyObj (ow (rw r 0)) d).2
    ({ d with kc := { d.kc with chains := tdel d.kc.chains (ow (rw r 0)) } }, stOk, [])

def execKcChainDelete (r : NcsReq) (s : State) : Host.Outcome State Fault Refusal := run (command cmdKcChainDelete r) s

/-- CHAIN_PERIOD_SWITCH (R284): the chain goes to g + 1 at a multiple of P seconds, where it holds it.
DEDUCED (log 35). -/
def chainPeriod (k dt : Nat) (_ : Otp) (d : Dev) : Dev :=
  let d := passTime dt d
  match tget d.kc.chains k with
  | none => d
  | some c =>
    let sec := secOf (timeNow d) / max 1 c.period * c.period
    if c.period = 0 || sec ≤ c.lastPeriod then d
    else
      let t := instant sec 0
      let d := { d with kc := { d.kc with chains := tset d.kc.chains k { c with lastPeriod := sec } } }
      match targetSa d (k, 0) with
      | none => d
      | some (i, x) =>
        let d := if isTx k then switchTx k x.an 0xFFE t (overlap d) d
          else activateRx i (some (0xFFE, t, overlap d, retireMax d)) d
        emitOn (pagesOf c.owner) 0x0580 0xFFE (wd (b1 (isTx k))) d

/-- A chain's next switch of its period comes within PRELOAD: the Dispatcher preloads its next generation (R279,
R325). -/
def chainPreload (d : Dev) : Dev :=
  d.kc.chains.foldl (fun d e =>
    let due := e.2.period != 0
      && reachedAt (timeNow d + fld d.kc.prm0 25 16 * tickU) (instant ((secOf (timeNow d) / max 1 e.2.period + 1) * e.2.period) 0)
    match if due then targetSa d (e.1, 0) else none with
    | some (i, x) => preloadSa i x d
    | none => d) d

def execChainPeriodSwitch (obj dt : Nat) (s : State) : Host.Outcome State Fault Refusal := run (chainPeriod obj dt) s

/-! KC_REKEY_ALL and the parameter record (R280, R294, R306). -/

def cmdKcRekeyAll : Cmd where
  code := 0x0512
  expert := true
  modes := runModes
  blank := false
  lenOk := lenIs 4
  bad := fun _ d r => firstBad
    [(0, rf r 0 31 16 == d.tu.epoch % 65536), (2, decide ((rw r 2).toNat < 1000000000)),
     (3, rf r 3 31 10 == 0)]
  busy := fun _ d _ => d.kc.rekeyAll.isSome
  full := fun _ d _ => (freeSched d).isNone
  act := fun _ d r => kcSchedule d r [] true

def execKcRekeyAll (r : NcsReq) (s : State) : Host.Outcome State Fault Refusal := run (command cmdKcRekeyAll r) s

/-- REKEY_ALL_NEXT_READY: after the switch every chain holds its next generation again (R294). -/
def rekeyReady (_ : Otp) (d : Dev) : Dev :=
  match d.kc.rekeyAll with
  | none => d
  | some (id, t) =>
    if (tget d.kc.scheds id).isSome || !d.kc.chains.all (fun c => c.2.nextReady) then d
    else emit 0 0x0585 (wd d.kc.chains.length) (wd ((timeNow d - t) / tickU))
      { d with kc := { d.kc with rekeyAll := none } }

def execRekeyAllNextReady (s : State) : Host.Outcome State Fault Refusal := run rekeyReady s

/-- DEDUCED (log 34). -/
def cmdKcParamWrite : Cmd where
  code := 0x0510
  expert := true
  modes := runModes
  lenOk := lenIs 2
  bad := fun _ _ r => firstBad
    [(0, rf r 0 31 26 == 0 && rf r 0 15 10 == 0 && decide (1 ≤ rf r 0 25 16) && decide (rf r 0 25 16 ≤ 1000)
        && decide (1 ≤ rf r 0 9 0) && decide (rf r 0 9 0 ≤ 1000)),
     (1, rf r 1 31 16 == 0 && decide (rf r 0 9 0 ≤ rf r 1 15 0) && decide (rf r 1 15 0 ≤ 60000))]
  act := fun _ d r => ({ d with kc := { d.kc with prm0 := rw r 0, prm1 := rw r 1 } }, stOk, [])

def execKcParamWrite (r : NcsReq) (s : State) : Host.Outcome State Fault Refusal := run (command cmdKcParamWrite r) s

def cmdKcParamRead : Cmd where
  code := 0x0511
  expert := true
  lenOk := lenIs 0
  act := fun _ d _ => (d, stOk, [d.kc.prm0, d.kc.prm1])

def execKcParamRead (r : NcsReq) (s : State) : Host.Outcome State Fault Refusal := run (command cmdKcParamRead r) s

end Sys2Proof.Machine
end

