-- ==== Sys2Proof/Machine/FmCmd.lean ====
section
/-!
DEFINITION. The frame-mode commands (chapter 04): port pairs, SecYs, secure channels, counters, PTP and bypass
settings, PN thresholds, the expert rule region.
-/
namespace Sys2Proof.Machine

/-! Port pairs (R117, R145, R146). -/

/-- Both ports are configured, neither is bound, the line port is not in line mode and is fast enough. -/
def bindable (d : Dev) (c l : Nat) : Bool :=
  match portOf d (lk 1 c), portOf d (lk 0 l) with
  | some p, some q => !clientBound d c && !lineBound d l && !inLineMode d l && decide (portGbps p ≤ portGbps q)
  | _, _ => false

def newPair (l : Nat) (pass : Bool) : Pair := ⟨l, pass, PtpSet.init, none, List.replicate 6 0⟩

/-- The groups of a bound line port: client to line, line to client (R309). -/
def bindPair (c l : Nat) (pass : Bool) (o : Otp) (d : Dev) : Dev :=
  let d := { d with fm := { d.fm with pairs := tset d.fm.pairs c (newPair l pass) } }
  placeGroup (64 + l) o (placeGroup l o d)

def cmdFmPortBind : Cmd where
  code := 0x0300
  modes := runModes
  lenOk := lenIs 2
  bad := fun _ d r => firstBad
    [(0, rf r 0 31 30 == 0 && rf r 0 23 22 == 0 && rf r 0 15 0 == 0 && bindable d (rf r 0 29 24) (rf r 0 21 16)),
     (1, decide ((rw r 1).toNat ≤ 1))]
  act := fun o d r => (bindPair (rf r 0 29 24) (rf r 0 21 16) (bit (rw r 1) 0) o d, stOk, [])

def execFmPortBind (r : NcsReq) (s : State) : Host.Outcome State Fault Refusal := run (command cmdFmPortBind r) s

/-- Unbind: the groups go, the port's queues are flushed (R413 cause 6). -/
def unbindPair (c : Nat) (d : Dev) : Dev :=
  match tget d.fm.pairs c with
  | none => d
  | some p =>
    let d := (List.range 8).foldl (fun d q => flushQueue (lineQueue p.line q) d) (flushQueue (clientQueue c) d)
    dropGroup (64 + p.line) (dropGroup p.line { d with fm := { d.fm with pairs := tdel d.fm.pairs c } })

/-- A SecY lives on the line port bound to a client port. -/
def pairInUse (d : Dev) (c : Nat) : Bool :=
  match tget d.fm.pairs c with
  | some p => !(secysOf d p.line).isEmpty
  | none => false

def cmdFmPortUnbind : Cmd where
  code := 0x0301
  modes := runModes
  lenOk := lenIs 1
  bad := fun _ d r => firstBad [(0, rf r 0 31 30 == 0 && rf r 0 23 0 == 0 && clientBound d (rf r 0 29 24))]
  busy := fun _ d r => pairInUse d (rf r 0 29 24)
  act := fun _ d r => (unbindPair (rf r 0 29 24) d, stOk, [])

def execFmPortUnbind (r : NcsReq) (s : State) : Host.Outcome State Fault Refusal := run (command cmdFmPortUnbind r) s

/-! SecYs (R119 to R123, R147 to R149). -/

/-- A non-XPN suite on a line port of 100G or faster (R116). -/
def suiteTooSlow (d : Dev) (line : Nat) (p : Word) : Bool :=
  (polSuite p == 1 || polSuite p == 2) && (match portOf d (lk 0 line) with | some q => decide (100 ≤ portGbps q) | none => false)

/-- A policy word by itself (R122, R123). -/
def policyOk (d : Dev) (line : Nat) (p : Word) : Bool :=
  p &&& 0xFEE08CF0 == 0 && decide (1 ≤ polSuite p) && decide (polSuite p ≤ 4) && polValidate p != 3 && fld p 9 8 != 3
    && !(polSci p && (bit p 17 || bit p 18)) && !suiteTooSlow d line p

/-- Where a SecY's rule goes in the basic region of its client port's sector (R128). -/
def ruleIndex (d : Dev) (s : Nat) (vlan : Bool) : Option Nat :=
  let free := fun i => match tget (rulesOf d s).shadow i with | some r => !bit (r.getD 0 0) 31 | none => true
  if vlan then firstNat 8192 16384 free else (firstNat 0 8192 (fun i => free (16383 - i))).map (16383 - ·)

/-- The client-side rule of a SecY (R125). DEDUCED (log 23). -/
def secyRule (c y : Nat) (vlan : Option Nat) : List Word :=
  let w2 := match vlan with | some v => v * 2 ^ 16 + 0xFFF | none => 0
  [wd (2 ^ 31 + 2 ^ 28 + c * 2 ^ 16 + y), 0, wd w2, 0, 0, 0, 0, 0]

/-- Lowest free SecY and SC ID of a sector. -/
def freeSecy (d : Dev) (s : Nat) : Option Nat := firstNat (s * 4096) (s * 4096 + 4096) (fun i => (tget d.fm.secys i).isNone)
def freeSc (d : Dev) (s : Nat) : Option Nat :=
  let rec go : List (Nat × Sc) → Nat → Nat
    | [], n => n
    | (i, _) :: t, n => if i < n then go t n else if i = n then go t (n + 1) else n
  let n := go d.fm.scs (s * 65536)
  if n < s * 65536 + 65536 then some n else none

def reqSci (r : NcsReq) (i : Nat) : Nat := (rw r i).toNat * 2 ^ 32 + (rw r (i + 1)).toNat

/-- VLAN match of word 5. -/
def reqVlan (r : NcsReq) : Option Nat := if bit (rw r 5) 31 then some (rf r 5 11 0) else none

def shadowDirty (d : Dev) (s : Nat) : Bool := (rulesOf d s).uncommitted && !(rulesOf d s).armed

/-- Put a rule into, or take it out of, the shadow of a sector. -/
def shadowPut (s i : Nat) (r : Option (List Word)) (d : Dev) : Dev :=
  let x := rulesOf d s
  setRules s { x with
    shadow := match r with | some w => tset x.shadow i w | none => tdel x.shadow i
    deadShadow := x.deadShadow.filter (· != i) } d
def armSwap (s : Nat) (d : Dev) : Dev := setRules s { rulesOf d s with armed := true, armedAt := d.sys.ticks } d

def secyCreate (o : Otp) (d : Dev) (r : NcsReq) : Dev × Nat × List Word :=
  let l := rf r 0 21 16
  let _ := o
  match clientOfLine d l with
  | none => (d, stNoResource, [])
  | some c => match freeSecy d (sectorOf l), freeSc d (sectorOf l), ruleIndex d (sectorOf c) (reqVlan r).isSome with
    | some y, some sc, some i =>
      let rec' : Secy := ⟨l, c, rf r 0 7 0, rw r 1, (rw r 2).toNat, sc, 0xFF000000, 0xFFFFFFFF, reqVlan r, i, List.replicate 14 0⟩
      let tx : Sc := ⟨y, true, reqSci r 3, List.replicate 3 0, 0, none⟩
      let d := { d with fm := { d.fm with secys := tset d.fm.secys y rec', scs := tset d.fm.scs sc tx } }
      let d := armSwap (sectorOf c) (shadowPut (sectorOf c) i (some (secyRule c y (reqVlan r))) d)
      (d, stOk, [wd y, wd sc])
    | _, _, _ => (d, stNoResource, [])

/-- The sector in which a SecY of a line port has its rule. -/
def ruleSector (d : Dev) (l : Nat) : Nat := sectorOf ((clientOfLine d l).getD 0)

def cmdFmSecyCreate : Cmd where
  code := 0x0302
  modes := runModes
  blank := false
  lenOk := lenIs 6
  bad := fun _ d r =>
    let l := rf r 0 21 16
    let more := !(secysOf d l).isEmpty
    firstBad
      [(0, rf r 0 31 22 == 0 && rf r 0 15 8 == 0 && decide (rf r 0 7 0 ≤ 64) && lineBound d l
          && (!polSci (rw r 1) || (secysOf d l).all (fun y => polSci y.2.policy))),
       (1, policyOk d l (rw r 1) && (!more || polSci (rw r 1))), (2, decide ((rw r 2).toNat ≤ 2 ^ 30)),
       (5, rf r 5 30 12 == 0 && (!bit (rw r 5) 31 || (decide (1 ≤ rf r 5 11 0) && decide (rf r 5 11 0 ≤ 4094)))
          && (secysOf d l).all (fun y => y.2.vlan != reqVlan r))]
  busy := fun _ d r => shadowDirty d (ruleSector d (rf r 0 21 16))
  full := fun _ d r =>
    let l := rf r 0 21 16
    decide (64 ≤ (secysOf d l).length) || (freeSecy d (sectorOf l)).isNone || (freeSc d (sectorOf l)).isNone
      || (ruleIndex d (ruleSector d l) (reqVlan r).isSome).isNone
  act := secyCreate

def execFmSecyCreate (r : NcsReq) (s : State) : Host.Outcome State Fault Refusal := run (command cmdFmSecyCreate r) s

/-- R121 for a SecY, an SC. -/
def secyForbids (d : Dev) (page y : Nat) : Option Nat :=
  match tget d.fm.secys y with | some x => if page ≠ 0 && x.owner ≠ page then some 1 else none | none => none
def scForbids (d : Dev) (page c : Nat) : Option Nat :=
  match tget d.fm.scs c with | some x => secyForbids d page x.secy | none => none

/-- Some SA of a SecY's SCs is installed. -/
def secyHasSa (d : Dev) (y : Nat) : Bool :=
  d.kc.sas.any (fun x => x.2.state != 4 && decide (objKind x.2.obj < 2)
    && (match tget d.fm.scs (objNum x.2.obj) with | some sc => sc.secy == y | none => false))

def secyOk (d : Dev) (r : NcsReq) : Bool := rf r 0 31 14 == 0 && (tget d.fm.secys (rf r 0 13 0)).isSome

def cmdFmSecySet : Cmd where
  code := 0x0303
  tenants := true
  modes := runModes
  blank := false
  lenOk := lenIs 3
  forbids := fun _ d r => secyForbids d r.page (rf r 0 13 0)
  bad := fun _ d r => firstBad
    [(0, secyOk d r),
     (1, match tget d.fm.secys (rf r 0 13 0) with
       | some y => policyOk d y.line (rw r 1) && (polSci (rw r 1) || decide ((secysOf d y.line).length ≤ 1))
       | none => true),
     (2, decide ((rw r 2).toNat ≤ 2 ^ 30))]
  busy := fun _ d r => match tget d.fm.secys (rf r 0 13 0) with
    | some y => (polSuite y.policy != polSuite (rw r 1) || fld y.policy 9 8 != rf r 1 9 8) && secyHasSa d (rf r 0 13 0)
    | none => false
  act := fun _ d r =>
    ({ d with fm := { d.fm with
      secys := tmod d.fm.secys (rf r 0 13 0) (fun y => { y with policy := rw r 1, window := (rw r 2).toNat }) } }, stOk, [])

def execFmSecySet (r : NcsReq) (s : State) : Host.Outcome State Fault Refusal := run (command cmdFmSecySet r) s

/-- Frames of an SC that hold a PN complete when the SC goes: the slice finishes them before its context is
overwritten (R149). -/
def completeFlights (c : Nat) (d : Dev) : Dev :=
  let done := fun (f : Flight) =>
    if f.sc == c && f.stage == .loading && !f.void then
      match saOf d f.sa with
      | some x => { sliceResult x ((sliceOf d f.slice).newCtx f.sa x true).1 (sciOf d f) f with stage := .sliced }
      | none => f
    else f
  { d with fm := { d.fm with flights := d.fm.flights.map done } }

/-- An SC goes, with its SAs and what was made for it. -/
def dropSc (c : Nat) (d : Dev) : Nat × Dev :=
  let d := completeFlights c d
  let k := objKey (match tget d.fm.scs c with | some x => if x.tx then 0 else 1 | none => 0) c
  let x := destroyObj k d
  (x.1, { x.2 with
    fm := { x.2.fm with scs := tdel x.2.fm.scs c }, kc := { x.2.kc with chains := tdel x.2.kc.chains k },
    dsp := { x.2.dsp with spreads := tdel x.2.dsp.spreads k, pins := x.2.dsp.pins.filter (· != k) } })

/-- Every PROTECT rule that names a SecY acts as DROP from now on (R126). -/
def killRules (y : Nat) (d : Dev) : Dev :=
  let names := fun (t : Table (List Word)) =>
    (t.filter (fun r => fld (r.2.getD 0 0) 30 28 == 1 && fld (r.2.getD 0 0) 13 0 == y)).map (·.1)
  let kill := fun (x : Rules) => { x with dead := x.dead ++ names x.active, deadShadow := x.deadShadow ++ names x.shadow }
  { d with fm := { d.fm with rules := d.fm.rules.map (fun p => (p.1, kill p.2)) } }

/-- SecY deletion (R149): SCs and SAs at once, the rule by the next swap. DEDUCED (log 23). -/
def secyDelete (y : Nat) (d : Dev) : Nat × Dev :=
  match tget d.fm.secys y with
  | none => (0, d)
  | some s =>
    let cs := d.fm.scs.filter (fun c => c.2.secy == y)
    let x := cs.foldl (fun a c => let b := dropSc c.1 a.2; (a.1 + b.1, b.2)) (0, d)
    let sec := sectorOf s.client
    let dirty := shadowDirty x.2 sec
    let d := shadowPut sec s.rule none (killRules y x.2)
    let d := { d with fm := { d.fm with secys := tdel d.fm.secys y }, sch := { d.sch with secyQueue := tdel d.sch.secyQueue y } }
    (x.1, if dirty then d else armSwap sec d)

def cmdFmSecyDelete : Cmd where
  code := 0x0304
  modes := runModes
  blank := false
  event := true
  lenOk := lenIs 1
  bad := fun _ d r => firstBad [(0, secyOk d r)]
  busy := fun _ d r => chainRuns d (fun k => objKind k < 2
    && (match tget d.fm.scs (objNum k) with | some x => x.secy == rf r 0 13 0 | none => false))
  act := fun _ d r =>
    let x := secyDelete (rf r 0 13 0) d
    ({ x.2 with fm := { x.2.fm with deletes := x.2.fm.deletes ++ [(r.page, r.tag, x.1)] } }, stAccepted, [])

def execFmSecyDelete (r : NcsReq) (s : State) : Host.Outcome State Fault Refusal := run (command cmdFmSecyDelete r) s

/-- Deletions that ran end at the tick boundary. DEDUCED (log 23). -/
def finishDeletes (d : Dev) : Dev :=
  d.fm.deletes.foldl (fun d x => finish x.1 x.2.1 0x0304 stOk (wd x.2.2) d) { d with fm := { d.fm with deletes := [] } }

/-! SCs (R150). -/

/-- Every receive SC of a line port. -/
def portRxScs (d : Dev) (l : Nat) : List (Nat × Sc) := (secysOf d l).flatMap (fun y => rxScs d y.1)

def cmdFmScCreate : Cmd where
  code := 0x0305
  tenants := true
  modes := runModes
  blank := false
  lenOk := lenIs 3
  forbids := fun _ d r => secyForbids d r.page (rf r 0 13 0)
  bad := fun _ d r => firstBad
    [(0, secyOk d r),
     (1, match tget d.fm.secys (rf r 0 13 0) with
       | some y => (portRxScs d y.line).all (fun c => c.2.sci != reqSci r 1)
       | none => true)]
  full := fun _ d r => (freeSc d (rf r 0 13 0 / 4096)).isNone
  act := fun _ d r =>
    match freeSc d (rf r 0 13 0 / 4096) with
    | some c =>
      let x : Sc := ⟨rf r 0 13 0, false, reqSci r 1, List.replicate 8 0, 0, none⟩
      ({ d with fm := { d.fm with scs := tset d.fm.scs c x } }, stOk, [wd c])
    | none => (d, stNoResource, [])

def execFmScCreate (r : NcsReq) (s : State) : Host.Outcome State Fault Refusal := run (command cmdFmScCreate r) s

def cmdFmScDelete : Cmd where
  code := 0x0306
  tenants := true
  modes := runModes
  blank := false
  lenOk := lenIs 1
  forbids := fun _ d r => scForbids d r.page (rf r 0 17 0)
  bad := fun _ d r => firstBad [(0, rf r 0 31 18 == 0
    && (match tget d.fm.scs (rf r 0 17 0) with | some x => !x.tx | none => false))]
  busy := fun _ d r => chainRuns d (fun k => objKind k < 2 && objNum k == rf r 0 17 0)
  act := fun _ d r => ((dropSc (rf r 0 17 0) d).2, stOk, [])

def execFmScDelete (r : NcsReq) (s : State) : Host.Outcome State Fault Refusal := run (command cmdFmScDelete r) s

/-! Counters (R143, R151). -/

def statsKind (r : NcsReq) : Nat := rf r 0 31 28
def statsNum (r : NcsReq) : Nat := rf r 0 19 0

/-- The frame-mode SA of an index that holds a record. -/
def statsSa (d : Dev) (i : Nat) : Option SaRec :=
  match saOf d i with | some x => if objKind x.obj < 2 then some x else none | none => none

/-- The counters of R143 of an object: kind 0 port pair, 1 SecY, 2 SC, 3 SA. -/
def statsAt (d : Dev) (kind n : Nat) : Option Counters :=
  match kind with
  | 0 => (tget d.fm.pairs n).map (·.ctr)
  | 1 => (tget d.fm.secys n).map (·.ctr)
  | 2 => (tget d.fm.scs n).map (·.ctr)
  | 3 => (statsSa d n).map (fun x =>
      (if isTx x.obj then [x.ctr.getD 0 0, x.ctr.getD 1 0, 0, 0] else x.ctr) ++ [BitVec.ofNat 64 x.pn])
  | _ => none

/-- The counters of the object a request names. -/
def statsOf (d : Dev) (r : NcsReq) : Option Counters := statsAt d (statsKind r) (statsNum r)

def cmdFmStatsGet : Cmd where
  code := 0x0307
  tenants := true
  lenOk := lenIs 1
  forbids := fun _ d r => match statsKind r with
    | 0 => if r.page ≠ 0 then some 1 else none
    | 1 => secyForbids d r.page (statsNum r)
    | 2 => scForbids d r.page (statsNum r)
    | 3 => saForbids d r.page (statsNum r)
    | _ => none
  bad := fun _ d r => firstBad [(0, rf r 0 27 20 == 0 && (statsOf d r).isSome)]
  act := fun _ d r => (d, stOk, ((statsOf d r).getD []).flatMap two)

def execFmStatsGet (r : NcsReq) (s : State) : Host.Outcome State Fault Refusal := run (command cmdFmStatsGet r) s

/-! PTP, bypass, thresholds (R152 to R154). -/

def ptpOf (r : NcsReq) : PtpSet where
  bypass := rf r 0 5 4 == 1
  ipv6 := bit (rw r 0) 3
  ipv4 := bit (rw r 0) 2
  eth := bit (rw r 0) 1
  enable := bit (rw r 0) 0
  anyDomain := bit (rw r 1) 8
  domain := rf r 1 7 0

def cmdFmPtpSet : Cmd where
  code := 0x0308
  modes := runModes
  blank := false
  lenOk := lenIs 2
  bad := fun _ d r => firstBad
    [(0, rf r 0 31 22 == 0 && rf r 0 15 6 == 0 && decide (rf r 0 5 4 ≤ 1) && lineBound d (rf r 0 21 16)),
     (1, rf r 1 31 9 == 0)]
  act := fun _ d r =>
    ({ d with fm := { d.fm with
      pairs := tmod d.fm.pairs ((clientOfLine d (rf r 0 21 16)).getD 64) (fun p => { p with ptpNext := some (ptpOf r) }) } }, stOk, [])

def execFmPtpSet (r : NcsReq) (s : State) : Host.Outcome State Fault Refusal := run (command cmdFmPtpSet r) s

/-- EtherTypes that cannot be the Zorral EtherType (R153). -/
def takenTypes : List Nat := [0x0800, 0x0806, 0x8100, 0x86DD, 0x8808, 0x888E, 0x88A8, 0x88E5, 0x88F7]

def cmdFmBypassSet : Cmd where
  code := 0x0309
  modes := runModes
  blank := false
  lenOk := lenIs 1
  bad := fun _ _ r => firstBad [(0, rf r 0 31 17 == 0 && decide (0x0600 ≤ rf r 0 15 0) && !takenTypes.contains (rf r 0 15 0))]
  act := fun _ d r => ({ d with fm := { d.fm with bypassNext := some (rf r 0 15 0, bit (rw r 0) 16) } }, stOk, [])

def execFmBypassSet (r : NcsReq) (s : State) : Host.Outcome State Fault Refusal := run (command cmdFmBypassSet r) s

/-- Settings that apply from a tick boundary on (R152, R153). -/
def fmTick (d : Dev) : Dev :=
  let b := d.fm.bypassNext.getD (d.fm.etype, d.fm.eapolDrop)
  let pairs := d.fm.pairs.map (fun p => (p.1, { p.2 with ptp := p.2.ptpNext.getD p.2.ptp, ptpNext := none }))
  finishDeletes { d with fm := { d.fm with etype := b.1, eapolDrop := b.2, bypassNext := none, pairs := pairs } }

/-- Transmit SAs of a SecY whose next PN is at or past a threshold at which they have not been reported (R154). -/
def pastThreshold (d : Dev) (y : Secy) : List (Nat × SaRec) :=
  (sasOf d (objKey 0 y.txSc)).filter (fun x =>
    let t := pnThreshold y x.2.suite
    x.2.warned != some t && x.2.state != 3 && decide (t ≤ x.2.pn))

def thresholdSet (r : NcsReq) (d : Dev) : Dev :=
  let id := rf r 0 13 0
  let d := { d with fm := { d.fm with
    secys := tmod d.fm.secys id (fun y => { y with thr := (rw r 1).toNat, thrX := (rw r 2).toNat }) } }
  match tget d.fm.secys id with
  | some y => (pastThreshold d y).foldl (fun d x => thresholdReached (pnThreshold y x.2.suite) x.1 x.2 d) d
  | none => d

def cmdFmPnThresholdSet : Cmd where
  code := 0x030A
  expert := true
  tenants := true
  modes := runModes
  blank := false
  lenOk := lenIs 3
  forbids := fun _ d r => secyForbids d r.page (rf r 0 13 0)
  bad := fun _ d r => firstBad
    [(0, secyOk d r), (1, decide (2 ^ 31 ≤ (rw r 1).toNat) && decide ((rw r 1).toNat ≤ 2 ^ 32 - 2)),
     (2, decide (1 ≤ (rw r 2).toNat))]
  act := fun _ d r => (thresholdSet r d, stOk, [])

def execFmPnThresholdSet (r : NcsReq) (s : State) : Host.Outcome State Fault Refusal :=
  run (command cmdFmPnThresholdSet r) s

/-! The expert rule region (R125 to R127, R155 to R157). -/

/-- Word 0 of a rule record is valid (R2, R125, R126): the action, the side, the port, the SecY and the reserved bits. -/
def ruleHeadOk (o : Otp) (d : Dev) (w : Word) : Bool :=
  let act := fld w 30 28
  let protect := act != 1 || (!bit w 22 && !bit w 23
    && (match tget d.fm.secys (fld w 13 0) with | some y => y.client == fld w 21 16 | none => false))
  fld w 27 24 == 0 && fld w 15 14 == 0 && decide (act ≤ 3) && protect && !(act == 3 && !bit w 23)
    && (act == 1 || fld w 13 0 == 0) && (bit w 22 || decide (fld w 21 16 < lanes o))

/-- The checks of the rule record whose first word is payload word k (R125, R126), each with the word it judges. -/
def ruleChecks (o : Otp) (d : Dev) (r : List Word) (k : Nat) : List (Nat × Bool) :=
  let w := fun i => r.getD i 0
  [(k, ruleHeadOk o d (w 0)),
   (k + 2, fld (w 2) 15 12 == 0),
   (k + 3, fld (w 3) 31 30 != 3 && fld (w 3) 29 28 == 0 && fld (w 3) 15 12 == 0),
   (k + 5, fld (w 5) 15 6 == 0 && decide (fld (w 5) 5 0 ≤ 48)),
   (k + 7, fld (w 7) 15 6 == 0 && decide (fld (w 7) 5 0 ≤ 48))]

/-- Rule i of an FM_RULE_WRITE. -/
def reqRule (r : NcsReq) (i : Nat) : List Word := (List.range 8).map (fun j => rw r (2 + 8 * i + j))

def ruleWrite (r : NcsReq) (d : Dev) : Dev :=
  let s := rf r 0 17 16
  let d := (List.range (rw r 1).toNat).foldl (fun d i => shadowPut s (rf r 0 13 0 + i) (some (reqRule r i)) d) d
  setRules s { rulesOf d s with uncommitted := true } d

/-- DEDUCED (log 13). -/
def cmdFmRuleWrite : Cmd where
  code := 0x0310
  expert := true
  modes := runModes
  blank := false
  lenOk := fun r => decide (2 ≤ r.len) && r.len == 2 + 8 * (rw r 1).toNat
  bad := fun o d r => firstBad
    ([(0, rf r 0 31 18 == 0 && rf r 0 15 14 == 0 && decide (rf r 0 17 16 < sectors o) && decide (rf r 0 13 0 ≤ 8191)),
      (1, decide (1 ≤ (rw r 1).toNat) && decide ((rw r 1).toNat ≤ 31) && decide (rf r 0 13 0 + (rw r 1).toNat ≤ 8192))]
      ++ (List.range (min 31 (rw r 1).toNat)).flatMap (fun i => ruleChecks o d (reqRule r i) (2 + 8 * i)))
  act := fun _ d r => (ruleWrite r d, stOk, [])

def execFmRuleWrite (r : NcsReq) (s : State) : Host.Outcome State Fault Refusal := run (command cmdFmRuleWrite r) s

def cmdFmRuleRead : Cmd where
  code := 0x0311
  expert := true
  blank := false
  lenOk := lenIs 2
  bad := fun o _ r => firstBad
    [(0, rf r 0 30 18 == 0 && rf r 0 15 14 == 0 && decide (rf r 0 17 16 < sectors o)),
     (1, decide (1 ≤ (rw r 1).toNat) && decide ((rw r 1).toNat ≤ 31) && decide (rf r 0 13 0 + (rw r 1).toNat ≤ 16384))]
  act := fun _ d r =>
    let x := rulesOf d (rf r 0 17 16)
    let t := if bit (rw r 0) 31 then x.shadow else x.active
    (d, stOk, (List.range (rw r 1).toNat).flatMap (fun i => tgetD t (rf r 0 13 0 + i) (List.replicate 8 0)))

def execFmRuleRead (r : NcsReq) (s : State) : Host.Outcome State Fault Refusal := run (command cmdFmRuleRead r) s

def cmdFmRuleCommit : Cmd where
  code := 0x0312
  expert := true
  modes := runModes
  blank := false
  lenOk := lenIs 1
  bad := fun o _ r => firstBad [(0, rf r 0 31 2 == 0 && decide (rf r 0 1 0 < sectors o))]
  act := fun _ d r => (armSwap (rf r 0 1 0) d, stOk, [(rulesOf d (rf r 0 1 0)).generation + 1])

def execFmRuleCommit (r : NcsReq) (s : State) : Host.Outcome State Fault Refusal := run (command cmdFmRuleCommit r) s

end Sys2Proof.Machine
end

