-- ==== Sys2Proof/Machine/Pke.lean ====
section
/-!
DEFINITION. The public-key engine (chapter 16): host jobs, their input checks, results and early ends.
-/
namespace Sys2Proof.Machine

/-! Operations and inputs (R528, R529, R531). -/

/-- What an input of an operation is. -/
inductive PkeIn where
  | unused | modulus | residue | exponent | digest | scalar | point | rs | x32 | edKey | edSig | msg | ek | dk | ct | pk
  | sk | mu | sigma
deriving DecidableEq, Repr

/-- Inputs of an operation. -/
def pkeIns : Nat → List PkeIn
  | 0x01 => [.modulus, .residue, .residue]
  | 0x02 => [.modulus, .residue, .exponent]
  | 0x10 => [.point, .digest, .rs]
  | 0x11 => [.scalar, .digest]
  | 0x12 => [.scalar, .point]
  | 0x13 => [.point]
  | 0x20 => [.x32, .x32]
  | 0x21 => [.x32]
  | 0x22 => [.edKey, .msg, .edSig]
  | 0x23 => [.x32, .msg]
  | 0x30 => [.ek]
  | 0x31 => [.dk, .ct]
  | 0x38 => [.pk, .mu, .sigma]
  | 0x39 => [.sk, .mu]
  | _ => []

/-- The sets an operation takes. -/
def pkeSets : Nat → List Nat
  | 0x01 | 0x02 => [0]
  | 0x10 | 0x11 | 0x12 | 0x13 => [1, 2, 3]
  | 0x20 | 0x21 | 0x22 | 0x23 => [4]
  | 0x30 | 0x31 => [5, 6]
  | 0x38 | 0x39 => [7, 8]
  | _ => []

/-- Field and order length of the NIST curves of sets 1 to 3. -/
def ecLen (set : Nat) : Nat := [0, 32, 48, 66].getD set 0

/-- Lengths of FIPS 203 (sets 5, 6) and FIPS 204 (sets 7, 8). PRESUMED (log 46). -/
def ekLen (set : Nat) : Nat := if set = 5 then 1184 else 1568
/-- PRESUMED (log 46). -/
def dkLen (set : Nat) : Nat := if set = 5 then 2400 else 3168
/-- PRESUMED (log 46). -/
def ctLen (set : Nat) : Nat := if set = 5 then 1088 else 1568
/-- PRESUMED (log 46). -/
def pkLen (set : Nat) : Nat := if set = 7 then 1952 else 2592
/-- PRESUMED (log 46). -/
def skLen (set : Nat) : Nat := if set = 7 then 4032 else 4896
/-- PRESUMED (log 46). -/
def sigmaLen (set : Nat) : Nat := if set = 7 then 3309 else 4627

/-- Length of an operation's public result, 0 where it has none. -/
def pkePubLen (op set n : Nat) : Nat :=
  match op with
  | 0x01 | 0x02 => 8 * n
  | 0x11 => 2 * ecLen set
  | 0x13 => 1 + 2 * ecLen set
  | 0x21 => 32
  | 0x23 => 64
  | 0x30 => ctLen set
  | 0x39 => sigmaLen set
  | _ => 0

/-- Length of an operation's secret result, 0 where it has none. -/
def pkeSecLen (op set : Nat) : Nat :=
  match op with
  | 0x12 | 0x13 => ecLen set
  | 0x20 | 0x21 | 0x30 | 0x31 => 32
  | _ => 0

def pkeVerifies (op : Nat) : Bool := op == 0x10 || op == 0x22 || op == 0x38
def pkeSigns (op : Nat) : Bool := op == 0x11 || op == 0x23 || op == 0x39

/-- The status of one input's checks in the order format, zero, range, point (R531). A zero modulus fails the format
check first, its top word being 0. DEDUCED (log 48). -/
def inputCheck (set n m : Nat) (kind : PkeIn) (b : Bytes) : Option Nat :=
  let f := ecLen set
  let v := beNat b
  let ord := Config.curveOrder set
  match kind with
  | .unused | .msg => none
  | .modulus => if b.length ≠ 8 * n || beAt b 0 8 = 0 || v % 2 = 0 then some stBadField
      else if v = 0 then some stInputZero else none
  | .residue => if b.length ≠ 8 * n then some stBadField else if m ≤ v then some stInputRange else none
  | .exponent => if 8 * n < b.length || b.length % 8 ≠ 0 then some stBadField else none
  | .digest => if b.length < 32 || 64 < b.length then some stBadField else none
  | .scalar => if b.length ≠ f then some stBadField else if v = 0 then some stInputZero
      else if ord ≤ v then some stInputRange else none
  | .point => if b.length ≠ 1 + 2 * f then some stBadField
      else if Config.curvePrime set ≤ beAt b 1 f || Config.curvePrime set ≤ beAt b (1 + f) f then some stInputRange
      else if beAt b 0 1 ≠ 4 || !Config.onCurve set b then some stPointInvalid else none
  | .rs => if b.length ≠ 2 * f then some stBadField else if beAt b 0 f = 0 || beAt b f f = 0 then some stInputZero
      else if ord ≤ beAt b 0 f || ord ≤ beAt b f f then some stInputRange else none
  | .x32 => if b.length ≠ 32 then some stBadField else none
  | .edKey => if b.length ≠ 32 then some stBadField else if !Config.edDecodes b then some stPointInvalid else none
  | .edSig => if b.length ≠ 64 then some stBadField else if Config.edOrder ≤ leAt b 32 32 then some stInputRange
      else if !Config.edDecodes (b.take 32) then some stPointInvalid else none
  | .ek => if b.length ≠ ekLen set then some stBadField else if !Config.kemModulusOk set b then some stInputRange else none
  | .dk => if b.length ≠ dkLen set || !Config.kemHashOk set b then some stBadField else none
  | .ct => if b.length ≠ ctLen set then some stBadField else none
  | .pk => if b.length ≠ pkLen set then some stBadField else none
  | .sk => if b.length ≠ skLen set then some stBadField else none
  | .mu => if b.length ≠ 64 then some stBadField else none
  | .sigma => if b.length ≠ sigmaLen set then some stBadField else none

/-! The words of a job (R537). -/

def jw (j : PkeJob) (i : Nat) : Word := j.words.getD i 0
def jobOp (j : PkeJob) : Nat := fld (jw j 0) 31 24
def jobSet (j : PkeJob) : Nat := fld (jw j 0) 19 16
def jobN (j : PkeJob) : Nat := fld (jw j 0) 7 0
def jobSlot (j : PkeJob) : Nat := fld (jw j 1) 28 16
def jobType (j : PkeJob) : Nat := fld (jw j 1) 7 0

/-- Source of input i, and the length of its host buffer. -/
def inSource (j : PkeJob) (i : Nat) : Nat := fld (jw j (3 + 4 * i)) 31 30
def inHostLen (j : PkeJob) (i : Nat) : Nat := if inSource j i = 1 then (jw j (6 + 4 * i)).toNat else 0

/-- What the host buffer of input i holds: the buffers stand in `buf` in the order of the inputs. -/
def inHost (j : PkeJob) (i : Nat) : Bytes := slice j.buf ((List.range i).map (inHostLen j)).sum (inHostLen j i)

/-- Load input i: the register it leaves, and the status of a load that failed (R524, R532). -/
def loadInput (o : Otp) (d : Dev) (j : PkeJob) (i : Nat) : Option PkeReg × Option Nat :=
  match inSource j i with
  | 0 => (none, none)
  | 1 =>
    if 8192 < inHostLen j i then (none, some stBadField) else (some ⟨inHost j i, bit (jw j (3 + 4 * i)) 29⟩, none)
  | 2 =>
    match slotRec d (fld (jw j (3 + 4 * i)) 12 0) with
    | none => (none, some stBadField)
    | some s => match slotUse o j.page attrPke worldS s with
      | some _ => (none, some stNotPermitted)
      | none => (some ⟨s.key, !publicType s.typ⟩, none)
  | _ => match tget d.pke.regs i with
    | some r => (some r, none)
    | none => (none, some stBadField)

/-- A job starts: a change of owner zeroes the operand memory, the registers are loaded, the inputs are checked
(R525, R531, R532). -/
def jobStart (j : PkeJob) (o : Otp) (d : Dev) : Dev :=
  let d := { d with pke := { d.pke with
    regs := if d.pke.owner = some j.page then d.pke.regs else [], owner := some j.page, idle := 0 } }
  let loads := (List.range 4).map (loadInput o d j)
  let regs := (List.range 4).foldl (fun t i => match loads.getD i (none, none) with
    | (some r, _) => tset t i r
    | _ => t) d.pke.regs
  let ins := (List.range 4).map (fun i => ((loads.getD i (none, none)).1.map (·.bytes)).getD [])
  let kinds := pkeIns (jobOp j)
  let m := beNat (ins.getD 0 [])
  let one := fun i => match (loads.getD i (none, none)).2 with
    | some st => some (st, i)
    | none => (inputCheck (jobSet j) (jobN j) m (kinds.getD i .unused) (ins.getD i [])).map (fun st => (st, i))
  let fail := (List.range 4).findSome? one
  { d with pke := { d.pke with
    regs := regs, running := some { j with ins := ins, fail := fail, startAt := rawNow d }, waiting := d.pke.waiting.drop 1 } }

/-- PKE_JOB_START: the next host job starts when the engine is powered and free (R526). -/
def pkeNext (o : Otp) (d : Dev) : Dev :=
  match d.pke.waiting with
  | [] => d
  | j :: _ => if d.pke.powered && d.pke.running.isNone then jobStart j o d else d

def execPkeJobStart (s : State) : Host.Outcome State Fault Refusal := run pkeNext s

/-! The end of a job. -/

/-- Zero what an abort zeroes: the registers whose secret flag is set (R535). DEDUCED (log 48). -/
def pkeScrub (d : Dev) : Dev := { d with pke := { d.pke with regs := d.pke.regs.filter (fun r => !r.2.secret) } }

/-- The running job leaves with a status and word 3; a device job that waits has the engine next (R526).
DEDUCED (log 48). -/
def jobEnd (j : PkeJob) (st : Nat) (w3 : Word) (d : Dev) : Dev :=
  let d := { d with pke := { d.pke with running := none, idle := 0 } }
  finish j.page j.tag 0x0C00 st w3 (if d.pke.device then deviceJob d else d)

/-- Time of an operation behind the input check in cc, for a bytes of M and the attempts of ML-DSA signing (R530).
DEDUCED (log 48). -/
def opTime (op set n msg attempts : Nat) : Nat :=
  let us := fun (l : List Nat) => usCycles (l.getD (set - 1) 0)
  let mul := (n * n + 15) / 16 + 24
  match op with
  | 0x01 => mul
  | 0x02 => 128 * n * mul
  | 0x10 => us [240, 560, 1200]
  | 0x11 => us [650, 1450, 3100]
  | 0x12 => us [180, 420, 900]
  | 0x13 => us [360, 840, 1800]
  | 0x20 => usCycles 120
  | 0x21 => usCycles 240
  | 0x22 => usCycles 180 + 120 * ((msg + 127) / 128)
  | 0x23 => usCycles 480 + 120 * ((msg + 127) / 128)
  | 0x30 => usCycles (if set = 5 then 18 else 26)
  | 0x31 => usCycles (if set = 5 then 22 else 31)
  | 0x38 => usCycles (if set = 7 then 45 else 70)
  | 0x39 => usCycles (if set = 7 then 85 + 55 * attempts else 130 + 80 * attempts)
  | _ => 0

/-- Time of a job from its start to its end: the check of 2,048 cc, and the operation where every input passes. -/
def jobTime (j : PkeJob) (attempts : Nat) : Nat :=
  2048 + if j.fail.isSome then 0 else opTime (jobOp j) (jobSet j) (jobN j) (j.ins.getD 1 []).length attempts

/-- a^e mod m by squaring over the bits of e; fuel 8,192 bits. -/
def modExp (m : Nat) : Nat → Nat → Nat → Nat
  | 0, _, _ => 1 % m
  | k + 1, a, e =>
    let h := modExp m k (a * a % m) (e / 2)
    if e % 2 = 1 then a * h % m else h

/-- Public and secret result of a job. -/
def jobResult (j : PkeJob) (rand : Bytes) : Bytes × Bytes :=
  let v := fun i => beNat (j.ins.getD i [])
  let len := pkePubLen (jobOp j) (jobSet j) (jobN j)
  match jobOp j with
  | 0x01 => (beBytes len (v 1 * v 2 % v 0), [])
  | 0x02 => (beBytes len (modExp (v 0) (64 * jobN j) (v 1) (v 2)), [])
  | op => ((Config.pkePublic op (jobSet j) j.ins rand).take len,
      (Config.pkeSecret op (jobSet j) j.ins rand).take (pkeSecLen op (jobSet j)))

/-- Deliver a job's results (R534). -/
def jobDeliver (j : PkeJob) (w3 : Word) (res : Bytes × Bytes) (d : Dev) : Dev :=
  let host := (jw j 21).toNat
  let addr := (jw j 19).toNat + 2 ^ 32 * (jw j 20).toNat
  let d := { d with pke := { d.pke with completed := satInc 32 d.pke.completed } }
  if bit (jw j 1) 31 && (slotRec d (jobSlot j)).isSome then jobEnd j stBusy w3 d
  else
    let d := if bit (jw j 1) 31 then
        let s := newSlot (jobType j) j.page (fld (jw j 2) 15 0) 2 (res.2.take ((typeLen (jobType j)).getD 0)) d
        slotEvent 3 j.page (jobSlot j) 0 (putSlot (jobSlot j) s.1 s.2)
      else d
    let d := if host ≠ 0 && !res.1.isEmpty then out (.hostWrite addr res.1) d else d
    jobEnd j stOk w3 d

/-- PKE_JOB_DONE: a job ends after its time; `busOk` says whether its host buffer accesses held, `good` whether the
release verification passed, `attempts` how many ML-DSA signing took (R530, R531, R534, R535). -/
def jobDone (busOk good : Bool) (attempts dt : Nat) (_ : Otp) (d : Dev) : Dev :=
  let d := passTime dt d
  match d.pke.running with
  | none => d
  | some j =>
    let a := if jobOp j = 0x39 then max 1 (attempts % 2 ^ 16) else 0
    if !busOk then jobEnd j 0x8C01 0xF (pkeScrub d)
    else if rawNow d < j.startAt + jobTime j a then d
    else match j.fail with
      | some (st, i) =>
        jobEnd j st (wd i) { d with pke := { d.pke with rejects := satInc 32 d.pke.rejects } }
      | none =>
        let w3 := wd (a * 2 ^ 16 + 0xF)
        let x := keyBytes 64 d
        let res := jobResult j x.1
        let count := fun (d : Dev) => { d with pke := { d.pke with completed := satInc 32 d.pke.completed } }
        if pkeVerifies (jobOp j) then
          jobEnd j (if Config.pkeVerdict (jobOp j) (jobSet j) j.ins then stOk else stAuthFail) w3 (count d)
        else if pkeSigns (jobOp j) && !good then
          let d := jobEnd j stAuthFail w3 { x.2 with pke := { x.2.pke with faults := satInc 32 x.2.pke.faults } }
          emit 0 0x0C80 (wd (jobOp j * 2 ^ 24 + jobSet j * 2 ^ 16 + j.page)) 0 d
        else if (jobOp j = 0x20 || jobOp j = 0x21) && res.2.all (· == 0#8) then jobEnd j stPointInvalid w3 (count x.2)
        else jobDeliver j w3 res x.2

def execPkeJobDone (busOk good : Bool) (attempts : Timed) (s : State) : Host.Outcome State Fault Refusal :=
  run (jobDone busOk good attempts.val attempts.dt) s

/-- Entry to LOCKED, or a tamper source that locks: the operand memory is zeroed, every host job ends (R535).
DEDUCED (log 48). -/
def pkeLock (d : Dev) : Dev :=
  let js := d.pke.running.toList ++ d.pke.waiting
  let d := { d with pke := { d.pke with regs := [], running := none, waiting := [], device := false } }
  js.foldl (fun d j => finish j.page j.tag 0x0C00 stLocked 0xF d) d

/-- Entry to HALTED: everything stops without an event. DEDUCED (log 48). -/
def pkeHalt (d : Dev) : Dev := { d with pke := { d.pke with regs := [], running := none, waiting := [], device := false } }

/-! Commands (R536 to R538). -/

/-- The first word of descriptor i and its buffer reference are well formed. -/
def inWordOk (w : Word) : Bool :=
  fld w 28 13 == 0 && (fld w 31 30 == 1 || !bit w 29) && (fld w 31 30 == 2 || fld w 12 0 == 0) && decide (fld w 12 0 < 4352)

def inRefBad (r : NcsReq) (i : Nat) : List (Nat × Bool) :=
  let b := 3 + 4 * i
  (b, inWordOk (rw r b)) :: (if rf r b 31 30 = 1 then bufBad r (b + 1)
    else [(b + 1, rw r (b + 1) == 0), (b + 2, rw r (b + 2) == 0), (b + 3, rw r (b + 3) == 0)])

/-- Words 0 to 2: operation, set, size, result slot. -/
def pkeWordsBad (d : Dev) (r : NcsReq) : List (Nat × Bool) :=
  let op := rf r 0 31 24
  let set := rf r 0 19 16
  let store := bit (rw r 1) 31
  let slot := rf r 1 28 16
  let sec := pkeSecLen op set
  [(0, (pkeSets op).contains set && rf r 0 23 20 == 0 && rf r 0 15 8 == 0
      && (if set = 0 then decide (1 ≤ rf r 0 7 0) && decide (rf r 0 7 0 ≤ 128) else rf r 0 7 0 == 0)),
   (1, rf r 1 30 29 == 0 && rf r 1 15 8 == 0 && (store || rw r 1 == 0) && (store == decide (sec ≠ 0))
      && (!store || (decide (256 ≤ slot) && decide (slot < 4352)
        && (match typeLen (rf r 1 7 0) with | some n => decide (n ≤ sec) | none => false)
        && (match slotRec d slot with | some s => s.owner == r.page | none => true)))),
   (2, rf r 2 31 16 == 0 && (if store then secretAttrsOk (rw r 2) else rw r 2 == 0))]

def cmdPkeRun : Cmd where
  code := 0x0C00
  tenants := true
  modes := runModes
  blank := false
  event := true
  lenOk := lenIs 22
  bad := fun _ d r => firstBad (pkeWordsBad d r ++ (List.range 4).flatMap (inRefBad r)
    ++ (if rw r 19 == 0 && rw r 20 == 0 && rw r 21 == 0 then [] else bufBad r 19
      ++ [(21, decide (pkePubLen (rf r 0 31 24) (rf r 0 19 16) (rf r 0 7 0) ≤ bufLen r 19))]))
  busy := fun _ d r => decide (32 ≤ d.pke.waiting.length)
    || (bit (rw r 1) 31 && ((slotRec d (rf r 1 28 16)).isSome || sealNames d (rf r 1 28 16)))
  act := fun _ d r =>
    let j : PkeJob := ⟨r.page, r.tag, (List.range 22).map (rw r), r.buf, [], none, 0⟩
    ({ d with pke := { d.pke with waiting := d.pke.waiting ++ [j] } }, stAccepted, [])

def execPkeRun (r : NcsReq) (s : State) : Host.Outcome State Fault Refusal := run (command cmdPkeRun r) s

/-- A job is the page's with the tag. -/
def isJob (r : NcsReq) (tag : Nat) (j : PkeJob) : Bool := j.page == r.page && j.tag == tag

def pkeAbort (r : NcsReq) (d : Dev) : Dev :=
  let tag := rf r 0 7 0
  match d.pke.running with
  | some j =>
    if isJob r tag j then jobEnd j 0x8C00 0xF (pkeScrub d)
    else
      let d := { d with pke := { d.pke with waiting := d.pke.waiting.filter (fun x => !isJob r tag x) } }
      finish r.page tag 0x0C00 0x8C00 0xF d
  | none =>
    let d := { d with pke := { d.pke with waiting := d.pke.waiting.filter (fun x => !isJob r tag x) } }
    finish r.page tag 0x0C00 0x8C00 0xF d

def cmdPkeAbort : Cmd where
  code := 0x0C01
  tenants := true
  lenOk := lenIs 1
  bad := fun _ d r => firstBad [(0, rf r 0 31 8 == 0
    && (d.pke.running.toList ++ d.pke.waiting).any (isJob r (rf r 0 7 0)))]
  act := fun _ d r => (pkeAbort r d, stOk, [])

def execPkeAbort (r : NcsReq) (s : State) : Host.Outcome State Fault Refusal := run (command cmdPkeAbort r) s

/-- The owner field of PKE_STATUS: on a tenant page another owner shows as 0xFF; with no owner it reads 0xFF.
DEDUCED (log 48). -/
def ownerField (d : Dev) (page : Nat) : Nat :=
  match d.pke.owner with
  | some w => if page = 0 || w = page then w else 0xFF
  | none => 0xFF

def cmdPkeStatus : Cmd where
  code := 0x0C02
  tenants := true
  lenOk := lenIs 0
  act := fun _ d r => (d, stOk,
    [wd (flag d.pke.running.isSome 31 + ownerField d r.page * 2 ^ 16 + d.pke.waiting.length), wd d.pke.completed,
     wd d.pke.faults, wd d.pke.rejects])

def execPkeStatus (r : NcsReq) (s : State) : Host.Outcome State Fault Refusal := run (command cmdPkeStatus r) s

def cmdPkeWipe : Cmd where
  code := 0x0C03
  tenants := true
  lenOk := lenIs 0
  busy := fun _ d r => match d.pke.running with | some j => j.page == r.page | none => false
  act := fun _ d r =>
    (if d.pke.owner = some r.page then { d with pke := { d.pke with regs := [] } } else d, stOk, [])

def execPkeWipe (r : NcsReq) (s : State) : Host.Outcome State Fault Refusal := run (command cmdPkeWipe r) s

/-- PKE_POWER_DOWN: after 100 ticks without a job the domain powers down, and its memory with it (R526, R585). -/
def pkePowerDown (_ : Otp) (d : Dev) : Dev :=
  if d.pke.powered && d.pke.running.isNone && d.pke.waiting.isEmpty && decide (100 ≤ d.pke.idle) then
    { d with pke := { d.pke with powered := false, regs := [], idle := 0 } }
  else d

def execPkePowerDown (s : State) : Host.Outcome State Fault Refusal := run pkePowerDown s

end Sys2Proof.Machine
end

