-- ==== Sys2Proof/Machine/KeyAgree.lean ====
section
/-!
DEFINITION. Hybrid key agreement (chapter 08): peers, the key channel's sending side, the five messages.
-/
namespace Sys2Proof.Machine

/-! The key channel (R292, R293). -/

/-- The 64-byte cells of a message (R292). DEDUCED (log 36). -/
def cellsOf (seq : Nat) (msg : Bytes) : List Bytes :=
  let n := (msg.length + 55) / 56
  (List.range n).map (fun i =>
    let typ := if n = 1 then 4 else if i = 0 then 1 else if i + 1 = n then 3 else 2
    let part := slice msg (56 * i) 56
    let head := beBytes 1 typ ++ beBytes 1 seq ++ beBytes 2 i ++ part ++ zeros (56 - part.length)
    head ++ beBytes 4 (crc32 head))

/-- Pieces of at most 1,024 bytes. DEDUCED (log 36). -/
def fragments (msg : Bytes) : List Bytes := (List.range ((msg.length + 1023) / 1024)).map (fun i => slice msg (1024 * i) 1024)

/-- Addresses of a peer; zero stands for the defaults of R293. -/
def peerDst (p : Peer) : Nat := if p.dst = 0 then 0x035A524B4300 else p.dst
def peerSrc (p : Peer) : Nat := if p.src = 0 then 0x025A52000000 + p.port else p.src

/-- The frames of a message, without FCS (R293). DEDUCED (log 36). -/
def kchFrames (etype seq : Nat) (p : Peer) (msg : Bytes) : List Bytes :=
  let fs := fragments msg
  (List.range fs.length).map (fun i =>
    let part := fs.getD i []
    let f := beBytes 6 (peerDst p) ++ beBytes 6 (peerSrc p) ++ beBytes 2 etype ++ beBytes 1 1 ++ beBytes 1 1
      ++ beBytes 1 seq ++ beBytes 1 i ++ beBytes 1 fs.length ++ [0#8] ++ beBytes 2 part.length ++ part
    f ++ zeros (60 - f.length))

/-- Send a message on a peer's line port. DEDUCED (log 36). -/
def kaSend (p : Peer) (msg : Bytes) (o : Otp) (d : Dev) : Dev :=
  let seq := tgetD d.kc.seqs p.port 0
  let d := { d with kc := { d.kc with seqs := tset d.kc.seqs p.port ((seq + 1) % 256) } }
  if inLineMode d p.port then
    { d with kc := { d.kc with cells := tset d.kc.cells p.port (tgetD d.kc.cells p.port [] ++ cellsOf seq msg) } }
  else
    (kchFrames d.fm.etype seq p msg).foldl (fun d f => enqueue o (lineQueue p.port 7) (plainFrame d 0x80 none f) d) d

/-! Peers. -/

def setPeer (i : Nat) (p : Peer) (d : Dev) : Dev := { d with kc := { d.kc with peers := tset d.kc.peers i p } }

/-- Signature length of a method (R289). PRESUMED (log 46). -/
def kaSigLen : Nat → Nat
  | 1 => 4627
  | 2 => 96
  | _ => 48

/-- Credential IDs: SHA-384 of the signer's public key, or of the PSK (R289). -/
def ownCred (d : Dev) (p : Peer) : Bytes :=
  let k := slotKey d p.ownSlot
  sha384 (match p.method with | 1 => Config.mldsaPublic k | 2 => Config.ecPublic k | _ => k)
def peerCred (d : Dev) (p : Peer) : Bytes := sha384 (slotKey d (if p.method = 3 then p.ownSlot else p.peerSlot))

/-- Common header (R289). -/
def kaHeader (typ method len assoc : Nat) : Bytes := beBytes 1 typ ++ beBytes 1 method ++ beBytes 2 len ++ beBytes 4 assoc

/-- DEDUCED (log 35). -/
def kaAbort (reason : Nat) (p : Peer) : Bytes := kaHeader 0x0F p.method 12 p.assoc ++ beBytes 4 reason

/-- Sign, or check a signature, under a peer's method (R288). -/
def kaSign (d : Dev) (p : Peer) (m rand : Bytes) : Bytes :=
  let k := slotKey d p.ownSlot
  match p.method with
  | 1 => Config.mldsaSign k m rand
  | 2 => Config.ecdsaSign k m rand
  | _ => hmac384 k m
def kaVerify (d : Dev) (p : Peer) (m sig : Bytes) : Bool :=
  match p.method with
  | 1 => Config.mldsaVerify (slotKey d p.peerSlot) m sig
  | 2 => Config.ecdsaVerify (slotKey d p.peerSlot) m sig
  | _ => hmac384 (slotKey d p.ownSlot) m == sig

/-- KEK and KCK of Z and TH1 (R288). -/
def kaKeys (d : Dev) (p : Peer) (z th1 : Bytes) : Bytes × Bytes :=
  let z := if p.method = 3 then z ++ slotKey d p.ownSlot else z
  let k := kdf z (fixedInput "BALSEVY KEK" th1 640) 640
  (k.take 32, k.drop 32)

/-- EVT_KA_PEER on page 0 and the owner page. -/
def peerEvent (outcome i : Nat) (p : Peer) (d : Dev) : Dev :=
  emitOn (pagesOf p.owner) 0x0583 (wd (outcome * 2 ^ 16 + flag p.byPeer 8 + i)) (wd p.assoc) d

/-- Status of KA_START by outcome (R305). -/
def kaStatusOf : Nat → Nat
  | 1 => stOk
  | 2 => 0x8503
  | 3 => 0x8502
  | 4 => 0x8504
  | _ => stAuthFail

/-- A peer without an agreement: established where a KEK of an earlier one stands (R290, R305). -/
def restState (p : Peer) : Nat := if p.estab then 2 else 0

/-- An agreement ends without a KEK. -/
def kaEnd (outcome i : Nat) (p : Peer) (d : Dev) : Dev :=
  let q := { p with
    state := restState p, outcome := outcome, sent := [], eph := [], mInit := [], mResp := [], mFin := [], kek := [], kck := []
    cmd := none }
  let d := peerEvent outcome i p (setPeer i q d)
  match p.cmd with
  | some (page, tag) => finish page tag 0x0509 (kaStatusOf outcome) (wd outcome) d
  | none => d

/-- A failed check is answered with KA_ABORT and ends the agreement (R290). -/
def kaFail (reason outcome i : Nat) (p : Peer) (o : Otp) (d : Dev) : Dev :=
  kaEnd outcome i p (kaSend p (kaAbort reason p) o d)

/-- The KEK is installed in its slot and the agreement is established (R290). DEDUCED (log 35). -/
def kaEstablish (i : Nat) (p : Peer) (d : Dev) : Dev :=
  let s := newSlot 3 p.owner 0xF310 3 (p.kek ++ p.kck) d
  let d := slotEvent 4 p.owner p.kekSlot 0 (putSlot p.kekSlot s.1 s.2)
  let q := { p with
    state := 2, outcome := 1, completed := satInc 32 p.completed, ticks := 0, sent := [], eph := [], kek := [], kck := []
    estab := true, estabInit := p.initiator, cmd := none }
  let d := peerEvent 1 i p (setPeer i q d)
  match p.cmd with
  | some (page, tag) => finish page tag 0x0509 stOk 1 d
  | none => d

/-- KA_INIT of a peer with fresh ephemeral keys (R287, R289). -/
def kaBegin (i : Nat) (p : Peer) (o : Otp) (d : Dev) : Dev :=
  let n := keyBytes 32 d
  let e := keyBytes 120 n.2
  let kem := e.1.take 64
  let ec := Config.ecKey (e.1.drop 64)
  let msg := kaHeader 1 p.method 1757 p.assoc ++ [1#8, 0, 0, 0] ++ n.1 ++ ownCred d p ++ Config.kemPublic kem ++ Config.ecPublic ec
  let q := { p with
    state := 1, initiator := true, mInit := msg, mResp := [], mFin := [], eph := kem ++ ec, sent := msg, sends := 1, waited := 0 }
  kaSend q msg o (setPeer i q (deviceJob e.2))

/-! Commands (R304, R305). -/

/-- A slot that is empty or belongs to a page. -/
def slotFits (d : Dev) (page n : Nat) : Bool := match slotRec d n with | some s => s.owner == page | none => true

def peerOf (r : NcsReq) : Peer where
  answers := bit (rw r 0) 31
  method := rf r 0 27 26
  port := rf r 0 21 16
  assoc := (rw r 1).toNat
  owner := rf r 2 22 16
  ownSlot := rf r 2 12 0
  peerSlot := rf r 3 12 0
  kekSlot := rf r 4 12 0
  dst := (rw r 5).toNat * 65536 + rf r 6 31 16
  src := rf r 6 15 0 * 2 ^ 32 + (rw r 7).toNat
  state := 0
  initiator := false
  byPeer := false
  outcome := 0
  completed := 0
  ticks := 0
  sent := []
  sends := 0
  waited := 0
  mInit := []
  mResp := []
  mFin := []
  eph := []
  kek := []
  kck := []
  estab := false
  estabInit := false
  cmd := none

def cmdKaPeerSet : Cmd where
  code := 0x0508
  modes := runModes
  lenOk := lenIs 8
  forbids := fun _ d r =>
    let p := rf r 2 22 16
    if slotFits d p (rf r 2 12 0) && (rf r 0 27 26 == 3 || slotFits d p (rf r 3 12 0)) && slotFits d p (rf r 4 12 0) then none
    else some 1
  bad := fun o _ r =>
    let m := rf r 0 27 26
    firstBad
      [(0, rf r 0 30 28 == 0 && rf r 0 25 22 == 0 && rf r 0 15 6 == 0 && decide (1 ≤ m) && decide (rf r 0 21 16 < lanes o)),
       (2, rf r 2 31 23 == 0 && rf r 2 15 13 == 0 && decide (rf r 2 22 16 ≤ 64)),
       (3, rf r 3 31 13 == 0 && (m != 3 || rw r 3 == 0)),
       (4, rf r 4 31 13 == 0 && decide (256 ≤ rf r 4 12 0) && decide (rf r 4 12 0 < 4352))]
  busy := fun _ d r => match tget d.kc.peers (rf r 0 5 0) with | some p => p.state == 1 | none => false
  act := fun _ d r => (setPeer (rf r 0 5 0) (peerOf r) d, stOk, [])

def execKaPeerSet (r : NcsReq) (s : State) : Host.Outcome State Fault Refusal := run (command cmdKaPeerSet r) s

def kaStart (r : NcsReq) (o : Otp) (d : Dev) : Dev :=
  match tget d.kc.peers (rf r 0 5 0) with
  | some p => kaBegin (rf r 0 5 0) { p with byPeer := false, cmd := some (r.page, r.tag) } o d
  | none => d

def cmdKaStart : Cmd where
  code := 0x0509
  modes := runModes
  blank := false
  event := true
  lenOk := lenIs 1
  bad := fun _ d r => firstBad [(0, rf r 0 31 6 == 0 && (tget d.kc.peers (rf r 0 5 0)).isSome)]
  busy := fun _ d r => match tget d.kc.peers (rf r 0 5 0) with | some p => p.state == 1 | none => false
  act := fun _ d _ => (d, stAccepted, [])
  after := fun o r _ d => kaStart r o d

def execKaStart (r : NcsReq) (s : State) : Host.Outcome State Fault Refusal := run (command cmdKaStart r) s

def cmdKaStatus : Cmd where
  code := 0x050A
  lenOk := lenIs 1
  bad := fun _ d r => firstBad [(0, rf r 0 31 6 == 0 && (tget d.kc.peers (rf r 0 5 0)).isSome)]
  act := fun _ d r => match tget d.kc.peers (rf r 0 5 0) with
    | some p => (d, stOk, [wd (p.state * 2 ^ 28 + flag p.initiator 24 + p.outcome), wd p.assoc, wd p.completed,
        wd (if p.estab then p.ticks else 0)])
    | none => (d, stOk, [])

def execKaStatus (r : NcsReq) (s : State) : Host.Outcome State Fault Refusal := run (command cmdKaStatus r) s

/-! Messages (R289 to R291). -/

/-- A message is taken up by the Signal box: its peer, with its index. A message for no peer is counted.
DEDUCED (log 35). -/
def takeUp (port : Nat) (msg : Bytes) (d : Dev) : Option (Nat × Peer) × Dev :=
  let d := { d with kc := { d.kc with inbox := d.kc.inbox.erase (port, msg) } }
  if !d.sb.up || !runModes.contains d.sys.mode then (none, d)
  else match d.kc.peers.find? (fun p => p.2.assoc == beAt msg 4 4) with
    | some x => (some x, d)
    | none => (none, { d with kc := { d.kc with discarded := d.kc.discarded + 1 } })

/-- A message has the type, method and length it should have. DEDUCED (log 35). -/
def kaForm (typ len : Nat) (p : Peer) (msg : Bytes) : Bool :=
  beAt msg 0 1 == typ && beAt msg 1 1 == p.method && beAt msg 2 2 == len && msg.length == len

/-- The responder's answer to a KA_INIT. DEDUCED (log 35). -/
def kaAnswer (i : Nat) (p : Peer) (msg : Bytes) (o : Otp) (d : Dev) : Dev :=
  let x := keyBytes 184 d
  let ec := Config.ecKey ((x.1.drop 32).take 56)
  let kem := Config.kemEncaps (slice msg 92 1568) ((x.1.drop 88).take 32)
  let d := deviceJob x.2
  let p := { p with byPeer := p.byPeer || p.state != 1 || p.cmd.isNone }
  match (if Config.kemModulusOk 6 (slice msg 92 1568) then Config.ecShared ec (slice msg 1660 97) else none) with
  | none => kaFail 2 5 i p o d
  | some sx =>
    let len := 1801 + kaSigLen p.method
    let head := kaHeader 2 p.method len p.assoc ++ x.1.take 32 ++ ownCred d p ++ kem.1 ++ Config.ecPublic ec
    let th1 := sha384 (msg ++ head)
    let k := kaKeys d p (kem.2 ++ sx) th1
    let sig := kaSign d p (ascii "BALSEVY KA RESP" ++ th1) (x.1.drop 120)
    let resp := head ++ sig ++ hmac384 k.2 (ascii "RESP" ++ th1)
    let q := { p with
      state := 1, initiator := false, mInit := msg, mResp := resp, mFin := [], eph := [], kek := k.1, kck := k.2, sent := resp }
    let q := { q with sends := 1, waited := 0 }
    kaSend q resp o (setPeer i q d)

/-- A KA_INIT that stands is checked and answered (R290, R533). -/
def kaChecked (i : Nat) (p : Peer) (msg : Bytes) (o : Otp) (d : Dev) : Dev :=
  let q := { p with byPeer := p.byPeer || p.state != 1 }
  if beAt msg 1 1 ≠ p.method then (if p.state = 1 then kaFail 3 5 i q o d else kaSend p (kaAbort 3 p) o d)
  else if !kaForm 1 1757 p msg || beAt msg 8 4 ≠ 0x01000000 then kaFail 2 5 i q o d
  else if slice msg 44 48 ≠ peerCred d p then kaFail 1 4 i q o d
  else kaAnswer i p msg o d

/-- KA_INIT arrives (R287, R289, R290). -/
def kaInit (port : Nat) (msg : Bytes) (o : Otp) (d : Dev) : Dev :=
  match takeUp port msg d with
  | (none, d) => d
  | (some (i, p), d) =>
    if beAt msg 0 1 ≠ 1 then d
    else if p.state = 1 && p.initiator && p.mResp.isEmpty then
      let own := beAt p.mInit 12 32
      let other := beAt msg 12 32
      if other < own then d
      else if own = other then kaBegin i p o d
      else kaChecked i p msg o d
    else if p.state = 1 && !p.initiator && p.mInit == msg then kaSend p p.mResp o d
    else if !p.answers then d
    else kaChecked i p msg o d

def execKaInitReceive (port : Nat) (msg : Bytes) (s : State) : Host.Outcome State Fault Refusal := run (kaInit port msg) s

/-- KA_RESP arrives: the initiator checks it, derives KEK and KCK and sends KA_FIN (R288, R290). -/
def kaResp (port : Nat) (msg : Bytes) (o : Otp) (d : Dev) : Dev :=
  match takeUp port msg d with
  | (none, d) => d
  | (some (i, p), d) =>
    let s := kaSigLen p.method
    if p.state ≠ 1 || !p.initiator || beAt msg 0 1 ≠ 2 then d
    else if !p.mResp.isEmpty then (if p.mResp == msg then kaSend p p.sent o d else d)
    else if !kaForm 2 (1801 + s) p msg then kaFail 2 5 i p o d
    else if slice msg 40 48 ≠ peerCred d p then kaFail 1 4 i p o d
    else match Config.ecShared (p.eph.drop 64) (slice msg 1656 97) with
      | none => kaFail 2 5 i p o d
      | some sx =>
        let d := deviceJob d
        let th1 := sha384 (p.mInit ++ msg.take 1753)
        let k := kaKeys d p (Config.kemDecaps (p.eph.take 64) (slice msg 88 1568) ++ sx) th1
        if !kaVerify d p (ascii "BALSEVY KA RESP" ++ th1) (slice msg 1753 s)
            || hmac384 k.2 (ascii "RESP" ++ th1) ≠ slice msg (1753 + s) 48 then kaFail 2 5 i p o d
        else
          let x := keyBytes 32 d
          let th2 := sha384 (p.mInit ++ msg)
          let sig := kaSign x.2 p (ascii "BALSEVY KA FIN" ++ th2) x.1
          let fin := kaHeader 3 p.method (56 + s) p.assoc ++ sig ++ hmac384 k.2 (ascii "FIN" ++ th2)
          let q := { p with mResp := msg, mFin := fin, kek := k.1, kck := k.2, sent := fin, sends := 1, waited := 0 }
          kaSend q fin o (setPeer i q x.2)

def execKaRespReceive (port : Nat) (msg : Bytes) (s : State) : Host.Outcome State Fault Refusal := run (kaResp port msg) s

/-- The KCK: of the agreement that runs, or of the volatile slot. -/
def peerKck (d : Dev) (p : Peer) : Bytes :=
  if p.state = 1 then p.kck else match slotRec d p.kekSlot with | some s => s.kck | none => []

/-- KA_DONE of a transcript. -/
def kaDoneMsg (d : Dev) (p : Peer) : Bytes :=
  kaHeader 4 p.method 56 p.assoc ++ hmac384 (peerKck d p) (ascii "DONE" ++ sha384 (p.mInit ++ p.mResp ++ p.mFin))

/-- KA_FIN arrives: the responder checks it, sends KA_DONE and installs the KEK (R290). -/
def kaFin (port : Nat) (msg : Bytes) (o : Otp) (d : Dev) : Dev :=
  match takeUp port msg d with
  | (none, d) => d
  | (some (i, p), d) =>
    let s := kaSigLen p.method
    if p.initiator || beAt msg 0 1 ≠ 3 then d
    else if p.state = 2 then (if p.mFin == msg then kaSend p (kaDoneMsg d p) o d else d)
    else if p.state ≠ 1 then d
    else
      let d := deviceJob d
      let th2 := sha384 (p.mInit ++ p.mResp)
      if !kaForm 3 (56 + s) p msg || !kaVerify d p (ascii "BALSEVY KA FIN" ++ th2) (slice msg 8 s)
          || hmac384 p.kck (ascii "FIN" ++ th2) ≠ slice msg (8 + s) 48 then kaFail 2 5 i p o d
      else
        let q := { p with mFin := msg }
        kaEstablish i q (kaSend q (kaDoneMsg d q) o d)

def execKaFinReceive (port : Nat) (msg : Bytes) (s : State) : Host.Outcome State Fault Refusal := run (kaFin port msg) s

/-- KA_DONE arrives: the initiator installs the KEK (R290). -/
def kaDone (port : Nat) (msg : Bytes) (o : Otp) (d : Dev) : Dev :=
  match takeUp port msg d with
  | (none, d) => d
  | (some (i, p), d) =>
    if p.state ≠ 1 || !p.initiator || p.mFin.isEmpty || beAt msg 0 1 ≠ 4 then d
    else if msg == kaDoneMsg d p then kaEstablish i p d
    else kaFail 2 5 i p o d

def execKaDoneReceive (port : Nat) (msg : Bytes) (s : State) : Host.Outcome State Fault Refusal := run (kaDone port msg) s

/-- KA_ABORT arrives: it ends an agreement in progress, never a KEK established (R290). -/
def kaAbortIn (port : Nat) (msg : Bytes) (_ : Otp) (d : Dev) : Dev :=
  match takeUp port msg d with
  | (none, d) => d
  | (some (i, p), d) => if p.state = 1 && kaForm 0x0F 12 p msg then kaEnd 2 i p d else d

def execKaAbortReceive (port : Nat) (msg : Bytes) (s : State) : Host.Outcome State Fault Refusal := run (kaAbortIn port msg) s

/-- KA_RETRANSMIT: 200 ticks without an answer; the fifth failure is a timeout (R291). -/
def kaRetransmit (i : Nat) (o : Otp) (d : Dev) : Dev :=
  match tget d.kc.peers i with
  | none => d
  | some p =>
    if p.state ≠ 1 || p.waited < 200 || !d.sb.up then d
    else if p.sends < 5 then kaSend p p.sent o (setPeer i { p with sends := p.sends + 1, waited := 0 } d)
    else kaFail 4 3 i p o d

def execKaRetransmit (peer : Nat) (s : State) : Host.Outcome State Fault Refusal := run (kaRetransmit peer) s

/-- A tick for the peers: time waited for an answer, time since the KEK was established. -/
def kaTick (d : Dev) : Dev :=
  let one := fun (p : Peer) =>
    { p with
      waited := if p.state = 1 then p.waited + 1 else p.waited
      ticks := if p.estab then satInc 32 p.ticks else p.ticks }
  { d with kc := { d.kc with peers := d.kc.peers.map (fun p => (p.1, one p.2)) } }

/-- Entry to LOCKED: agreements in progress end (R295). The status of their KA_START is ST_LOCKED. DEDUCED (log 17).
-/
def kaLock (d : Dev) : Dev :=
  d.kc.peers.foldl (fun d x =>
    let p := x.2
    if p.state ≠ 1 then d
    else
      let d := setPeer x.1 { p with state := restState p, outcome := 0, sent := [], eph := [], kek := [], kck := [], cmd := none } d
      match p.cmd with
      | some (page, tag) => finish page tag 0x0509 stLocked 0 d
      | none => d) d

end Sys2Proof.Machine
end

