-- ==== Sys2Proof/Machine/Slices.lean ====
section
/-!
DEFINITION. Cipher slices (chapter 07): shadow verification, mask expanders, the bulk service, the
slice commands.
-/
namespace Sys2Proof.Machine

/-! Shadow verification (R253, R254). -/

def countSlice (n : Nat) (f : Slice → Slice) (d : Dev) : Dev := setSlice n (f (sliceOf d n)) d

/-- Take the first sample of a slice that satisfies p out of the buffer. -/
def dropSample (n : Nat) (p : Sample → Bool) (d : Dev) : Dev :=
  let rest := d.sl.samples.eraseP (fun x => x.slice == n && p x)
  { d with sl := { d.sl with samples := rest } }

/-- A second idle Siding for arbitration. -/
def secondSiding (o : Otp) (d : Dev) (n first : Nat) : Option Nat :=
  (sidingsFrom o (sliceSector n)).find? (fun m =>
    m != first && ((sliceOf d m).state == 2 || (sliceOf d m).state == 3))

/-- The oldest sample of a slice that waits to be recomputed, or that waits for its arbitration. -/
def sampleOf (n : Nat) (second : Bool) (d : Dev) : Option Sample :=
  d.sl.samples.find? (fun x => x.slice == n && x.first.isSome == second)

/-- The context that a sample carries may still be loaded: its SA has not been destroyed since (R253, R256). -/
def sampleLives (d : Dev) (x : Sample) : Bool :=
  loadable d x.sa && ((tget d.kc.sas x.sa).map (fun y => y.gen == x.gen && y.owner == x.owner)).getD false

/-- A Siding recomputes a sample: it loads the context itself where it is not resident. -/
def sidingWork (m : Nat) (x : Sample) (d : Dev) : Dev :=
  waste m (ghashCycles x.aad (x.bytes - x.aad)) (useCtx m x.sa (blockCount (x.bytes - x.aad) + 1) (loadNow m x.sa d))

/-- The oldest sample of a slice has been recomputed, with the tag that its Siding gives: the tags are the same, or a
second Siding recomputes. A sample whose SA is gone is skipped. Under LOCKED shadow verification pauses (R256). -/
def recomputeDone (n : Nat) (tag : Bytes) (o : Otp) (d : Dev) : Dev :=
  if d.sys.mode = .locked then d
  else match sampleOf n false d with
    | none => d
    | some x =>
      let rest := dropSample n (·.first.isNone) d
      if !sampleLives d x then skipSample n (sidingRefresh x.siding rest)
      else
        let count := fun (d : Dev) => countSlice n (fun s => { s with samples := s.samples + 1 }) (sidingWork x.siding x d)
        if tag = x.tag then sidingRefresh x.siding (count rest)
        else
          let d := countSlice n (fun s => { s with mismatches := s.mismatches + 1 }) (count rest)
          let y := { x with first := some tag, second := secondSiding o d n x.siding }
          let d := { d with sl := { d.sl with samples := d.sl.samples ++ [y] } }
          match y.second with
          | some m => sidingRefresh m d
          | none => d

def execShadowRecomputeDone (slice : Nat) (tag : Bytes) (s : State) : Host.Outcome State Fault Refusal :=
  run (recomputeDone slice tag) s

/-- The known-answer tests of a variant (R251). -/
def katCount (o : Otp) : Nat := if o.variant = .bv128 then 7 else 3

/-- The first of the tests of R251 that failed, 0 for a pass, from the results of the two runs of each. -/
def katFail (o : Otp) (runs : List (Bool × Bool)) : Nat :=
  match (List.range (katCount o)).find? (fun i => runs.getD i (false, false) != (true, true)) with
  | some i => i + 1
  | none => 0

/-- R254: the second Siding's tag agrees with the first's, with the producer's or with neither; without a second
Siding the first one runs its tests. -/
def arbitrate (n : Nat) (tag : Bytes) (runs : List (Bool × Bool)) (o : Otp) (d : Dev) : Dev :=
  if d.sys.mode = .locked then d
  else match sampleOf n true d with
  | none => d
  | some x =>
    let d := dropSample n (·.first.isSome) d
    let d := match x.second with | some m => sidingRefresh m (sidingWork m x d) | none => waste x.siding 2048 d
    let d := sidingRefresh x.siding d
    let code := if x.second.isNone then (if katFail o runs = 0 then 1 else 2)
      else if some tag = x.first then 1 else if tag = x.tag then 2 else 3
    let w2 := code * 2 ^ 24 + x.second.getD 0xFF * 2 ^ 16 + x.siding * 2 ^ 8 + n
    let d := emit 0 0x06E1 (wd w2) (wd x.sa) d
    let bad := if x.second.isNone then 1 else 5
    if code = 1 then sliceOut 2 n o d
    else if code = 2 then sliceOut bad x.siding o d
    else sliceOut 5 x.siding o (sliceOut 2 n o d)

def execShadowArbitrationDone (slice : Nat) (tag : Bytes) (runs : List (Bool × Bool)) (s : State) :
    Host.Outcome State Fault Refusal :=
  run (arbitrate slice tag runs) s

/-- The contexts of a list of SAs, newly loaded into a slice that holds none. -/
def Slice.loadAll (x : Slice) (sas : Table SaRec) (l : List Nat) : Slice :=
  l.foldl (fun x sa => match tget sas sa with
    | some r => let q := x.newCtx sa r true; { q.2 with ctxs := q.2.ctxs ++ [q.1] }
    | none => x) { x with ctxs := [] }

/-- The Siding holds the contexts of the slice it replaces; the frames that waited go on in order (R323). -/
def takeoverDone (n : Nat) (o : Otp) (d : Dev) : Dev :=
  let x := sliceOf d n
  if x.state = 5 then
    let y := x.loadAll d.kc.sas (x.ctxs.map (·.sa))
    let d := waste n (33 * y.ctxs.length) d
    let d := if x.ctxs.any (!·.ready) then { d with dsp := { d.dsp with
      movesDone := d.dsp.movesDone + 1, doneTick := d.dsp.doneTick + 1, causeTick := d.dsp.causeTick ||| 2 } } else d
    sliceRun o n (setSlice n y d)
  else d

def execSidingTakeoverDone (siding : Nat) (s : State) : Host.Outcome State Fault Refusal := run (takeoverDone siding) s

/-! Masks (R241, R245). -/

/-- A powered slice takes a new seed (R245). DEDUCED (log 31). -/
def reseedMask (n : Nat) (o : Otp) (d : Dev) : Dev :=
  if n < slices o && !((sliceOf d n).state == 0) && d.sl.keyDrbg.up then sliceRun o n (seedMask n d) else d

def execMaskExpanderReseed (slice : Nat) (s : State) : Host.Outcome State Fault Refusal := run (reseedMask slice) s

/-- Both shares of a value with fresh mask bits. -/
def Slice.remask (x : Slice) (a b : Bytes) : (Bytes × Bytes) × Slice :=
  let r := x.masks a.length
  ((xorBytes a r.1, xorBytes b r.1), r.2)
def Slice.remaskBlocks (x : Slice) (a b : List Block) : (List Block × List Block) × Slice :=
  let r := x.masks (16 * a.length)
  let ms := blocksOf a.length r.1
  ((List.zipWith (· ^^^ ·) a ms, List.zipWith (· ^^^ ·) b ms), r.2)

/-- A context with new shares of the same secrets. -/
def Slice.freshCtx (x : Slice) (c : Ctx) : Ctx × Slice :=
  let k := x.remask c.key1 c.key2
  let a := k.2.remask c.auth1 c.auth2
  let h := a.2.remaskBlocks c.hash1 c.hash2
  ({ c with key1 := k.1.1, key2 := k.1.2, auth1 := a.1.1, auth2 := a.1.2, hash1 := h.1.1, hash2 := h.1.2 }, h.2)

/-- Contexts one after the other. -/
def Slice.freshAll : Slice → List Ctx → List Ctx × Slice
  | x, [] => ([], x)
  | x, c :: t =>
    let r := x.freshCtx c
    let q := r.2.freshAll t
    (r.1 :: q.1, q.2)

/-- Every resident context is split anew (R241). DEDUCED (log 31). -/
def rerandomise (n : Nat) (_ : Otp) (d : Dev) : Dev :=
  let r := (sliceOf d n).freshAll (sliceOf d n).ctxs
  setSlice n { r.2 with ctxs := r.1 } d

def execContextRerandomise (slice : Nat) (s : State) : Host.Outcome State Fault Refusal := run (rerandomise slice) s

/-! Status commands (R261, R262). -/

def two64 (n : Nat) : List Word := [lo32 (n % 2 ^ 64), hi32 (n % 2 ^ 64)]

def sliceWords (d : Dev) (n : Nat) : List Word :=
  let x := sliceOf d n
  wd (x.state * 2 ^ 28 + (if x.state = 1 || x.state = 5 then x.dir else 0) * 2 ^ 27 + sliceSector n * 2 ^ 25
      + (if x.state = 5 then x.replaced.getD 0xFF else 0xFF) * 2 ^ 16 + x.ctxs.length * 2 ^ 8 + x.reason)
    :: two x.samples ++ two x.mismatches ++ two x.isolation ++ two x.skipped

def cmdSliceStatus : Cmd where
  code := 0x0660
  lenOk := lenIs 1
  bad := fun o _ r => firstBad [(0, rf r 0 31 8 == 0 && decide (rf r 0 7 0 < slices o))]
  act := fun _ d r => (d, stOk, sliceWords d (rf r 0 7 0))

def execSliceStatus (r : NcsReq) (s : State) : Host.Outcome State Fault Refusal := run (command cmdSliceStatus r) s

def cmdSliceMap : Cmd where
  code := 0x0661
  lenOk := lenIs 0
  act := fun _ d _ => (d, stOk, (List.range 18).map (fun j =>
    wd ((List.range 8).map (fun i => (sliceOf d (8 * j + i)).state * 2 ^ (4 * i))).sum))

def execSliceMap (r : NcsReq) (s : State) : Host.Outcome State Fault Refusal := run (command cmdSliceMap r) s

/-! The bulk service (R258, R259, R264 to R266). -/

def stCancelled : Nat := 0x8660
def stBusError : Nat := 0x8661

def bulkSrcLen (r : NcsReq) : Nat := bufLen r 5
def bulkDstLen (r : NcsReq) : Nat := bufLen r 8

/-- The text length fits the mode (R258). DEDUCED (log 32). -/
def bulkTextOk (r : NcsReq) : Bool :=
  let n := bulkSrcLen r
  match rf r 0 31 28 with
  | 1 | 3 => decide (1 ≤ n)
  | 2 => decide (n % 16 = 0)
  | _ => decide ((rw r 11).toNat + (if bit (rw r 0) 27 then 0 else 16) ≤ n)

/-- The destination length fits the source (R264). -/
def bulkDstOk (r : NcsReq) : Bool :=
  let n := bulkSrcLen r
  if rf r 0 31 28 = 4 then
    if bit (rw r 0) 27 then bulkDstLen r == n - (rw r 11).toNat + 16 else bulkDstLen r + 16 + (rw r 11).toNat == n
  else bulkDstLen r == n

/-- The buffers are identical or apart. DEDUCED (log 32). -/
def bulkApart (r : NcsReq) : Bool :=
  let a := bufAddr r 5
  let b := bufAddr r 8
  (a == b && bulkSrcLen r == bulkDstLen r) || decide (a + bulkSrcLen r ≤ b) || decide (b + bulkDstLen r ≤ a)

/-- A slot that holds a symmetric key of 128 or 256 bits. -/
def bulkKey (d : Dev) (n : Nat) : Option Slot :=
  match slotRec d n with
  | some x => if (typeLen x.typ == some 16 || typeLen x.typ == some 32) then some x else none
  | none => none

def cmdBulkSubmit : Cmd where
  code := 0x0668
  tenants := true
  modes := [.secure, .service]
  bv128 := true
  blank := false
  event := true
  lenOk := lenIs 12
  forbids := fun o d r => match slotRec d (rf r 0 12 0) with
    | some x => slotUse o r.page attrSlice worldN x
    | none => none
  bad := fun _ d r =>
    let mode := rf r 0 31 28
    firstBad ([(0, decide (1 ≤ mode) && decide (mode ≤ 4) && rf r 0 26 13 == 0 && (bulkKey d (rf r 0 12 0)).isSome),
      (4, mode != 4 || rw r 4 == 0)] ++ bufBad r 5 ++ [(7, bulkTextOk r), (8, bulkApart r)] ++ bufBad r 8
      ++ [(10, bulkDstOk r),
          (11, if mode = 4 then decide ((rw r 11).toNat ≤ 65536) else rw r 11 == 0)])
  act := fun o d r =>
    let key : Bytes × Bytes := match bulkKey d (rf r 0 12 0) with | some x => (x.share1, x.share2) | none => ([], [])
    let iv := payloadBytes r 1 16
    let src := r.buf.take (bulkSrcLen r)
    let aad := src.take (rw r 11).toNat
    let chain := if rf r 0 31 28 = 4 then ghashBlocks (hashKey (xorBytes key.1 key.2)) (blocksOf (blockCount aad.length) aad)
      else toBlock iv
    let j : BulkJob := ⟨r.page, r.tag, rf r 0 31 28, bit (rw r 0) 27, rf r 0 12 0, key.1, key.2, iv, (rw r 11).toNat, src,
      bufAddr r 8, bulkDstLen r, none, 0, chain⟩
    (bulkAssign o { d with sl := { d.sl with bulk := d.sl.bulk ++ [j] } }, stAccepted, [])

def execBulkSubmit (r : NcsReq) (s : State) : Host.Outcome State Fault Refusal := run (command cmdBulkSubmit r) s

/-- The end of a job: what it still writes, behind what stands there, and whether its tag holds (R258, R259).
DEDUCED (log 32). -/
def bulkResult (j : BulkJob) : Bool × Bytes :=
  let r := j.part (blockCount j.text.length - j.pos)
  let tag := gcmFinish j.key (j.iv.take 12) r.2.chain (min j.aadLen j.source.length) j.text.length
  if j.mode ≠ 4 then (true, r.1)
  else if j.encrypt then (true, r.1 ++ tag)
  else (tag == j.source.drop (j.source.length - 16), r.1)

/-- A job leaves its Siding: its key is overwritten, the next job starts, its EVT_CMD_DONE is written. -/
def bulkEnd (o : Otp) (j : BulkJob) (st n : Nat) (d : Dev) : Dev :=
  let d := clearKey j { d with sl := { d.sl with bulk := d.sl.bulk.filter (fun x => !(x.page == j.page && x.tag == j.tag)) } }
  let d := match j.siding with | some m => sidingRefresh m d | none => d
  finish j.page j.tag 0x0668 st (wd n) (bulkAssign o d)

/-- A job stops at a block boundary (R256, R265, R266). -/
def bulkStop (o : Otp) (st : Nat) (j : BulkJob) (d : Dev) : Dev :=
  let r := if j.siding.isNone then (j, d) else bulkPause j d
  bulkEnd o j st (16 * r.1.pos) r.2

/-- Every job of the device stops. -/
def bulkStopAll (o : Otp) (st : Nat) (d : Dev) : Dev :=
  let waiting := d.sl.bulk
  waiting.foldl (fun d j => bulkStop o st j d) { d with sl := { d.sl with bulk := waiting } }

/-- A running job ends; `busOk` says whether every access to its host buffers held (R265). -/
def bulkDone (page tag : Nat) (busOk : Bool) (o : Otp) (d : Dev) : Dev :=
  match d.sl.bulk.find? (fun j => j.page == page && j.tag == tag && j.siding.isSome) with
  | none => d
  | some j =>
    if !busOk then bulkStop o stBusError j d
    else
      let res := bulkResult j
      let blocks := blockCount j.source.length - j.pos
      let cycles := if j.encrypt && (j.mode == 2 || j.mode == 3) then 58 * blocks else blocks + 1
      let d := deliver (j.siding.getD 0) cycles d
      let d := out (.hostWrite (j.dst + 16 * j.pos) res.2) d
      if res.1 then bulkEnd o j stOk j.dstLen d
      else bulkEnd o j stAuthFail j.dstLen (out (.hostWrite j.dst (zeros j.dstLen)) d)

/-- DESIGN CHOICE (log 3). -/
def execBulkJobDone (page tag : Nat) (busOk : Bool) (s : State) : Host.Outcome State Fault Refusal :=
  run (bulkDone page tag busOk) s

def cmdBulkCancel : Cmd where
  code := 0x0669
  tenants := true
  bv128 := true
  lenOk := lenIs 1
  bad := fun _ d r => firstBad [(0, rf r 0 31 8 == 0 && d.sl.bulk.any (fun j => j.page == r.page && j.tag == rf r 0 7 0))]
  act := fun _ d _ => (d, stOk, [])
  after := fun o r st d =>
    if st = stOk then
      match d.sl.bulk.find? (fun j => j.page == r.page && j.tag == rf r 0 7 0) with
      | some j => bulkStop o stCancelled j d
      | none => d
    else d

def execBulkCancel (r : NcsReq) (s : State) : Host.Outcome State Fault Refusal := run (command cmdBulkCancel r) s

/-! Tests on request (R267, R268). -/

/-- The Siding that carries the work of a slice under test. DEDUCED (log 31). -/
def standIn (o : Otp) (d : Dev) (n : Nat) : Option Nat :=
  (sidingsFrom o (sliceSector n)).find? (fun m => (sliceOf d m).state == 5 && (sliceOf d m).replaced == some n)

/-- A slice goes out for its test; the work of an ACTIVE slice goes to an idle Siding without loss: what is in the
pipeline comes out (R267). DEDUCED (log 31). -/
def testBegin (r : NcsReq) (o : Otp) (d : Dev) : Dev :=
  let n := rf r 0 7 0
  let st := (sliceOf d n).state
  let d := match pickSiding o d (sliceSector n) with
    | some m => if st = 1 && !sliceUnused d n then takeOver o n m d else d
    | none => d
  let d := setState n 6 d
  { d with sl := { d.sl with testing := d.sl.testing ++ [(r.page, r.tag, n, decide (st = 7))] } }

def cmdSliceTest : Cmd where
  code := 0x0670
  expert := true
  modes := runModes
  event := true
  lenOk := lenIs 1
  bad := fun o _ r => firstBad [(0, rf r 0 31 8 == 0 && decide (rf r 0 7 0 < slices o))]
  busy := fun _ d r => decide (3 ≤ (sliceOf d (rf r 0 7 0)).state) && decide ((sliceOf d (rf r 0 7 0)).state ≤ 6)
  full := fun o d r => (sliceOf d (rf r 0 7 0)).state == 1 && decide (idleSidings o d = 0)
  act := fun o d r => (testBegin r o d, stAccepted, [])

def execSliceTest (r : NcsReq) (s : State) : Host.Outcome State Fault Refusal := run (command cmdSliceTest r) s

/-- The work comes back from the Siding that stood in. DEDUCED (log 31). -/
def giveBack (o : Otp) (n : Nat) (d : Dev) : Dev :=
  match standIn o d n with
  | none => d
  | some m =>
    let ctxs := (sliceOf d m).ctxs
    let d := redispatch m (fun _ => true) (fun _ => some n) (moveGroups m n d)
    let d := setState m 2 (setSlice m { (sliceOf d m).wipe with replaced := none, dir := 0 } d)
    bulkAssign o (sliceRun o n (setSlice n { sliceOf d n with ctxs := ctxs } d))

/-- A slice ends its tests: it takes its work back, or goes out of service with reason 1 (R267). -/
def testEnded (n : Nat) (pass : Bool) (o : Otp) (d : Dev) : Dev :=
  let d := waste n 2048 d
  if pass then giveBack o n (setState n (if isSiding n then 2 else 1) d)
  else match standIn o d n with
    | some m =>
      let d := setSlice n { (sliceOf (setState n 7 d) n).wipe with reason := 1, dir := 0 } (setState n 7 d)
      emit 0 0x06E0 (wd (m * 2 ^ 16 + 1 * 2 ^ 8 + n)) (wd (idleSidings o d)) d
    | none => sliceOut 1 n o d

/-- The tests of R251 have run, each twice. -/
def sliceTestDone (n : Nat) (runs : List (Bool × Bool)) (o : Otp) (d : Dev) : Dev :=
  match d.sl.testing.find? (fun x => x.2.2.1 == n) with
  | none => d
  | some (page, tag, _, wasOut) =>
    let d := { d with sl := { d.sl with testing := d.sl.testing.filter (fun x => x.2.2.1 != n) } }
    let fail := katFail o runs
    let d := if wasOut then setState n 7 (waste n 2048 d) else testEnded n (fail = 0) o d
    finish page tag 0x0670 stOk (wd (fail * 2 ^ 8 + (if fail = 0 then 1 else 0))) d

def execSliceTestDone (slice : Nat) (runs : List (Bool × Bool)) (s : State) : Host.Outcome State Fault Refusal :=
  run (sliceTestDone slice runs) s

def cmdSliceShadowSet : Cmd where
  code := 0x0671
  expert := true
  modes := runModes
  lenOk := lenIs 1
  bad := fun _ _ r => firstBad [(0, rf r 0 30 0 == 0)]
  act := fun o d r => (bulkAssign o { d with sl := { d.sl with shadowOn := bit (rw r 0) 31 } }, stOk, [])

def execSliceShadowSet (r : NcsReq) (s : State) : Host.Outcome State Fault Refusal := run (command cmdSliceShadowSet r) s

end Sys2Proof.Machine
end

