-- ==== Sys2Proof/Machine/Entry.lean ====
section
/-!
DEFINITION. How the device enters a mode (chapter 03): mode changes and what each leaves behind, maintenance
(R104), LOCKED (R88 to R91, R295, R364, R514, R577), the erase of LOCK+ERASE (R102), HALTED (R77), the
resets (R98), the start of a start (R93, R94).
-/
namespace Sys2Proof.Machine

/-! Mode changes. -/

/-- ALERT_N is driven low in LOCKED and HALTED (R630). -/
def driveAlert (d : Dev) : Dev :=
  let low := d.sys.aoGood && d.sys.phase == .up && (d.sys.mode == .locked || d.sys.mode == .halted)
  if d.pwr.alert == low then d else out (.pin 1 (!low)) { d with pwr := { d.pwr with alert := low } }

/-- The mode becomes m for a cause (R114): SYS_GET_STATE shows it, EVT_MODE_CHANGED tells every page (R113). -/
def changeMode (m : Mode) (cause detail : Nat) (data : Word) (d : Dev) : Dev :=
  let old := modeCode d
  driveAlert (emitAll 0x01A0 (wd (cause * 2 ^ 24 + detail * 2 ^ 16 + old * 2 ^ 8 + m.code)) data
    { d with sys := { d.sys with mode := m, cause := cause } })

/-- Activity n of R104 runs, or no longer runs. -/
def setMaint (n : Nat) (b : Bool) (d : Dev) : Dev :=
  { d with sys := { d.sys with
    maintFw := if n = 0 then b else d.sys.maintFw, maintRekey := if n = 1 then b else d.sys.maintRekey
    maintRetire := if n = 2 then b else d.sys.maintRetire, maintRecal := if n = 3 then b else d.sys.maintRecal } }

def anyMaint (d : Dev) : Bool := d.sys.maintFw || d.sys.maintRekey || d.sys.maintRetire || d.sys.maintRecal

/-- A maintenance activity starts: SECURE goes to SERVICE (R88). -/
def maintStart (n : Nat) (d : Dev) : Dev :=
  let d := setMaint n true d
  if d.sys.mode = .secure then changeMode .service 0x10 n 0 d else d

/-- A maintenance activity ends; the last one takes SERVICE to SECURE (R88). -/
def maintEnd (n : Nat) (d : Dev) : Dev :=
  let d := setMaint n false d
  if d.sys.mode = .service && !anyMaint d then changeMode .secure 0x11 n 0 d else d

/-- The device leaves SECURE and SERVICE: what is under way between its ports is lost, every buffer page is freed,
bulk jobs stop, every egress shows the output of the new mode (R91, R265, R364, R413). Key-channel frames stay queued
in STAGING (R293). DEDUCED (log 16). -/
def leaveTraffic (staging : Bool) (o : Otp) (d : Dev) : Dev :=
  let fl := d.fm.flights
  let d := { d with fm := { d.fm with flights := [] }, sch := { d.sch with onWire := [] } }
  let d := fl.foldl (fun d f => gleanFinish true f.glean d) d
  let d := freeBuffers (flushAll staging d)
  let calm := fun (c : LmClient) => { c with fifo := [], blocks := [] }
  let d := { d with
    lm := { d.lm with
      missing := []
      sheaves := d.lm.sheaves.map (fun s => (s.1, { s.2 with waiting := [] }))
      clients := d.lm.clients.map (fun c => (c.1, calm c.2)) }
    dsp := { d.dsp with fetching := [] }
    pth := { d.pth with pairs := d.pth.pairs.map (fun p => (p.1, { p.2 with units := [], hold := none, sched := none })) } }
  blockEgress (bulkStopAll o (if staging then stWrongMode else stLocked) d)

/-! Firmware updates (R569, R583); the states are those of R569. -/

/-- CRC-32 of a control record over its fields. DESIGN CHOICE (log 63). -/
def CtlRecord.check (c : CtlRecord) : Nat :=
  crc32 (beBytes 4 c.seq ++ beBytes 1 c.state ++ beBytes 4 c.probation ++ beBytes 1 (b1 c.recallValid) ++ beBytes 2 c.recallSec)

/-- The valid copy with the higher sequence number (R565). -/
def bestRecord (d : Dev) : Option CtlRecord :=
  (d.fw.copies.map (·.2)).foldl (fun best c =>
    if c.crc ≠ c.check then best
    else match best with
      | some b => if b.seq < c.seq then some c else best
      | none => some c) none

/-- The control record is written to the copy whose turn it is (R565). -/
def writeRecord (d : Dev) : Dev :=
  let seq := match bestRecord d with | some b => b.seq + 1 | none => 0
  let c : CtlRecord := ⟨seq, d.fw.state, d.fw.left, d.fw.recallValid, d.fw.recallImg.sec, 0⟩
  { d with fw := { d.fw with copies := tset d.fw.copies (seq % 2) { c with crc := c.check } } }

/-- The loader takes up the control record that it finds; a flash without one is as it was made. DESIGN CHOICE (log
63). DESIGN CHOICE (log 63). -/
def loadRecord (d : Dev) : Dev :=
  match bestRecord d with
  | some c => { d with fw := { d.fw with state := c.state, left := c.probation, recallValid := c.recallValid } }
  | none => d

/-- The update state is entered and recorded. -/
def fwEnter (st : Nat) (d : Dev) : Dev := writeRecord { d with fw := { d.fw with state := st, stateAt := d.sys.ticks } }

/-- The update state changes, with its event. -/
def fwState (st outcome : Nat) (d : Dev) : Dev :=
  emit 0 0x0E80 (wd (st * 2 ^ 28 + outcome * 2 ^ 16)) d.fw.runVersion (fwEnter st d)

/-- The FW_UPDATE that runs ends with a status. -/
def fwFinish (st : Nat) (w3 : Word) (d : Dev) : Dev :=
  match d.fw.update with
  | some u => finish u.page u.tag 0x0E01 st w3 { d with fw := { d.fw with update := none } }
  | none => d

/-- An update is abandoned before the image slot was touched (R571 step 2). DEDUCED (log 17). -/
def fwAbandon (st : Nat) (d : Dev) : Dev :=
  maintEnd 0 (fwFinish st 0 (fwState 0 5 { d with fw := { d.fw with recallValid := false } }))

/-- LOCK during an update (R577). DEDUCED (log 17). -/
def fwLock (d : Dev) : Dev :=
  match d.fw.state with
  | 1 | 2 => fwAbandon stLocked d
  | 3 => fwFinish stLocked 0 (fwState 6 5 d)
  | _ => match d.fw.update with
    | some _ => if d.fw.state = 0 then maintEnd 0 (fwFinish stLocked 0 d) else d
    | none => d

/-! Recalibration (R111, R112). -/

/-- A recalibration ends with a status. -/
def recalEnd (st : Nat) (d : Dev) : Dev :=
  match d.sys.recal with
  | none => d
  | some x =>
    let w3 := wd (x.skipped * 2 ^ 16 + x.failed * 2 ^ 8 + x.returned)
    maintEnd 3 (finish x.page x.tag 0x0127 st w3 { d with sys := { d.sys with recal := none } })

/-- LOCK during a recalibration: it stops with the slice test in progress. DEDUCED (log 17). -/
def recalLock (d : Dev) : Dev :=
  match d.sys.recal with
  | none => d
  | some x =>
    if x.slice.isSome then { d with sys := { d.sys with recal := some { x with stopping := true } } }
    else recalEnd stLocked d

/-! LOCKED. -/

/-- Every grant to a tenant page is cleared (R60). DEDUCED (log 16). -/
def clearGrants (d : Dev) : Dev :=
  { d with sb := { d.sb with pages := d.sb.pages.map (fun p => (p.1, { p.2 with expert := 0 })) } }

/-- The lock state of the always-on domain (R94 step 3). DEDUCED (log 16). -/
def setLock (b : Bool) (d : Dev) : Dev := { d with tamp := { d.tamp with lock := b } }

/-- The device enters LOCKED from STAGING, SECURE or SERVICE (R88, R91). DEDUCED (log 17). -/
def lockEntry (cause : Nat) (data : Word) (o : Otp) (d : Dev) : Otp × Dev :=
  let d := leaveTraffic false o (changeMode .locked cause 0 data (clearGrants (setLock true d)))
  let r := sealLock o d
  (r.1, recalLock (fwLock (kaLock (pkeLock r.2))))

/-- Every key of the key store's volatile side, the vault included, is zeroed (R514, R544). -/
def zeroKeyStore (d : Dev) : Dev :=
  { d with ks := { d.ks with
    ram := [], unwrapped := false, kv := [], sealV := [], jPrep := false, jSlot := 0, jCtr := 0, jDigest := [] } }

/-- Every Granary key register is zeroed; running Granary maintenance ends (R364). -/
def zeroGranary (d : Dev) : Dev :=
  let regs := d.grn.regions.map (fun r => (r.1, { r.2 with key := [], oldKey := [] }))
  let rk := d.grn.rekeying
  let rt := d.grn.retiring
  let d := { d with grn := { d.grn with kt := [], regions := regs, rekeying := none, retiring := none, waiting := [] } }
  let d := match rk with
    | some x => match x.cmd with
      | some (page, tag) => maintEnd 1 (finish page tag 0x0710 stLocked (wd (regionOf d x.region).epoch) d)
      | none => maintEnd 1 d
    | none => d
  match rt with
  | some x =>
    let r := regionOf d 4
    maintEnd 2 (finish x.page x.tag 0x0711 stLocked (wd x.moved) (setRegion 4 { r with quota := r.quota + framesPerChannel } d))
  | none => d

/-- Chains that are still being created end with their command (R303). -/
def endCreating (d : Dev) : Dev :=
  d.kc.chains.foldl (fun d c => match c.2.creating with
    | some (page, tag) => finish page tag 0x0506 stLocked 0 d
    | none => d) d

/-- The erase of LOCK+ERASE: key RAM, the vault, the Granary keys; every SA, schedule, chain and KEK is gone with
them (R91, R102, R295, R544). -/
def eraseKeys (d : Dev) : Dev :=
  let d := endCreating d
  let d := { d with kc := { d.kc with scheds := [], rekeyAll := none, chains := [], encNext := [] } }
  let d := (d.kc.sas.map (·.1)).foldl (fun d i => destroySa i d) d
  let bare := fun (p : Peer) => { p with kek := [], kck := [], estab := false, state := if p.state = 2 then 0 else p.state }
  let d := { d with
    kc := { d.kc with peers := d.kc.peers.map (fun p => (p.1, bare p.2)) }
    sl := { d.sl with slices := d.sl.slices.map (fun p => (p.1, p.2.wipe)) }
    dsp := { d.dsp with cache := [] }
    pke := { d.pke with regs := [] }
    tamp := { d.tamp with erased := true } }
  zeroGranary (zeroKeyStore d)

/-! Tamper responses in force (R543, R544). -/

/-- Field of source i in a map of 2-bit responses. -/
def respField (m : BitVec 24) (i : Nat) : Nat := m.toNat / 4 ^ i % 4

/-- The response in force for a source: 1 LOG, 2 LOCK, 3 LOCK+ERASE, 0 for a fused source. -/
def responseOf (o : Otp) (d : Dev) (i : Nat) : Nat :=
  if o.fused.getLsbD i then 0
  else max (respField o.minimum i) (if d.tamp.minOnly then 0 else respField d.tamp.set i)

/-- A sticky flag of a source with a LOCK or LOCK+ERASE response is set (R88). -/
def lockFlag (o : Otp) (d : Dev) : Bool := (List.range 12).any (fun i => d.tamp.sticky.getLsbD i && decide (2 ≤ responseOf o d i))

/-- The next start is to end in LOCKED: the lock state is set, or such a flag is. -/
def mustLock (o : Otp) (d : Dev) : Bool := d.tamp.lock || lockFlag o d

/-! HALTED. -/

/-- The channel that runs ends with error 7; pending channels stay pending (R618). -/
def dmaStopRunning (d : Dev) : Dev :=
  match d.tel.dma.find? (fun c => c.2.state == 2) with
  | some (c, x) => { d with tel := { d.tel with
      dma := tset d.tel.dma c { x with state := 0, err := 7 }, dmaEvent := d.tel.dmaEvent ||| BitVec.ofNat 16 (2 ^ (8 + c)) } }
  | none => d

/-- HALTED: the device stops; SB_UP falls, no event is written (R77, R90); a SYS_RESET that waits is not executed
(R100). -/
def goHalted (cause : Nat) (d : Dev) : Dev :=
  let d := setSbUp false { d with sys := { d.sys with
    phase := .up, mode := .halted, cause := cause, haltCause := cause, resetPending := none } }
  let d := withHw dmaStopRunning (pkeHalt d)
  driveAlert { d with
    fm := { d.fm with flights := [] }, sl := { d.sl with bulk := [], samples := [] }
    tel := { d.tel with writing := none } }

/-- A HALT cause arises (R13, R77, R88, R89): HALTED, or, in LOCKED and in a start that ends there, only the record;
cause 0x32 halts in every case. DEDUCED (log 16). -/
def haltEntry (cause : Nat) (o : Otp) (d : Dev) : Dev :=
  let held := match d.sys.phase with
    | .starting => cause != 0x32 && (mustLock o d || d.sys.startLocked)
    | .up => cause != 0x32 && d.sys.mode == Mode.locked
    | _ => false
  if held then { d with sys := { d.sys with haltCause := cause } }
  else if d.sys.mode = Mode.halted then d
  else goHalted cause d

/-! Resets (R98). -/

/-- Quotas of R345 on a device with these channels in service: in proportion to the variant's channels, the
frame buffer short of what retired channels held. DEDUCED (log 20). -/
def startRegions (o : Otp) : Table Region :=
  let part := fun (q : Nat) => q * sectors o / 4
  let lost := (channels o - liveChannels o) * framesPerChannel
  [(0, { Region.init with quota := part 32768 }), (1, { Region.init with quota := part 65536 }),
    (2, { Region.init with quota := part 4194304 }), (3, { Region.init with quota := part 2097152 }),
    (4, { Region.init with quota := part 22708224 - lost }), (5, { Region.init with quota := part 262144 })]

/-- The second decisions that wait, as the raw count begins anew. -/
def decisionsLeft (d : Dev) : List Decision := d.tamp.decisions.map (fun x => { x with due := x.due - rawNow d })

/-- What a device reset, a loss of main power and DORMANT leave: OTP, flash, the always-on domain, the levels on
the balls; everything else as at a start. -/
def volatileLoss (o : Otp) (d : Dev) : Dev :=
  { Dev.init with
    sys := { Sys.init with
      rtc := d.sys.rtc, rtcMs := d.sys.rtcMs, haltCause := d.sys.haltCause
      wakePin := d.sys.wakePin, wakeSmb := d.sys.wakeSmb, wakeRtc := d.sys.wakeRtc, rtcAlarm := d.sys.rtcAlarm
      perst := d.sys.perst, mainGood := d.sys.mainGood, aoGood := d.sys.aoGood, rstN := d.sys.rstN }
    ks := { Ks.init with
      flash := d.ks.flash, slotCtr := d.ks.slotCtr, pageCtr := d.ks.pageCtr, kv := d.ks.kv, sealV := d.ks.sealV
      jPrep := d.ks.jPrep, jSlot := d.ks.jSlot, jCtr := d.ks.jCtr, jDigest := d.ks.jDigest
      journal := d.ks.journal, creds := d.ks.creds, wiped := d.ks.wiped.filter (fun p => decide (p.1 < 256)) }
    grn := { Grn.init with regions := startRegions o, halt := d.grn.halt }
    tu := { Tu.init with turef := d.tu.turef }
    tamp := { Tamp.init with
      sticky := d.tamp.sticky, set := d.tamp.set, log := d.tamp.log, seq := d.tamp.seq, lastRtc := d.tamp.lastRtc
      erased := d.tamp.erased, lock := d.tamp.lock, decisions := decisionsLeft d
      provisional := d.tamp.provisional, ring := d.tamp.ring, copy := d.tamp.copy
      active := d.tamp.active, later := d.tamp.later, minOnly := d.tamp.minOnly }
    fw := { d.fw with update := none, report := none, stateAt := 0 }
    ln := { Lanes.init with jtagDrive := d.ln.jtagDrive }
    pwr := { Pwr.init with
      strap := d.pwr.strap, strapNow := d.pwr.strapNow, jtag := d.pwr.jtag, lref := d.pwr.lref, alert := d.pwr.alert }
    outs := d.outs, free := d.free }

/-- The device rests without main power or in DORMANT. -/
def rest (ph : Phase) (o : Otp) (d : Dev) : Dev :=
  let d := volatileLoss o d
  driveAlert { d with sys := { d.sys with phase := ph, mode := .dormant } }

/-- t = 0 of a start (R93): volatile state is gone, the straps are sampled (R629), every page window is at its
reset values and its first event will give the reason (R76). The recorded halt cause stays only with a LOCK flag
(R89). -/
def beginStart (cause : Nat) (data : Word) (reason : Nat) (o : Otp) (d : Dev) : Dev :=
  let d := volatileLoss o d
  driveAlert { d with
    sys := { d.sys with
      phase := .starting, mode := .staging, cause := cause, startCause := cause, startData := data
      rtcAtStart := d.sys.rtc, haltCause := if mustLock o d then d.sys.haltCause else 0 }
    sb := { d.sb with restartReason := reason }
    pwr := { d.pwr with strap := d.pwr.strapNow } }

/-- A start or a reset acts on the device, and the Granary windows lose their contents. -/
def runFresh (f : Otp → Dev → Dev) (s : State) : Host.Outcome State Fault Refusal :=
  .next { s with dev := f s.otp s.dev, ram := [] }

/-- An effect that may change OTP, the device and the Granary windows. -/
def runAll (f : Otp → List Host.Cell → Dev → Otp × List Host.Cell × Dev) (s : State) :
    Host.Outcome State Fault Refusal :=
  let r := f s.otp s.ram s.dev
  .next { s with otp := r.1, ram := r.2.1, dev := r.2.2 }

/-! The Granary's initialisation (R357). -/

/-- Fresh keys for every protected region and K_T, epochs and counts at their start values, no buffer page; the page
map over the channels in service, the tree over zero pages. -/
def granaryInit (o : Otp) (d : Dev) : Dev :=
  let d := [0, 1, 2, 3, 4].foldl (fun d g =>
    let k := keyBytes 64 d
    setRegion g { regionOf k.2 g with key := k.1, oldKey := [], epoch := 0, lines := 0, alloc := 1 } k.2) d
  let k := keyBytes 32 d
  setRoot { k.2 with grn := { k.2.grn with
    kt := k.1, bufs := [], frames := [], left := [], width := channels o, gone := o.retired, metaCache := [] } }

end Sys2Proof.Machine
end

