-- ==== Sys2Proof/Machine/Granary.lean ====
section
/-!
DEFINITION. The Granary (chapter 10): access faults, errors and the way to HALTED (R354 to R356), re-keying
(R358, R359), scrubbing (R360), channel retirement (R361, R362), regions and parameters, its commands.
-/
namespace Sys2Proof.Machine

/-- The Granary works: the device is past its start or in it with keys loaded, and not HALTED. -/
def granaryUp (d : Dev) : Bool := d.sys.phase == .up && !(d.sys.mode == .halted) && !d.grn.kt.isEmpty

/-- The Winnower re-keys and migrates; in LOCKED it has stopped at a page boundary (R364). -/
def winnowerWorks (d : Dev) : Bool := granaryUp d && !(d.sys.mode == .locked)

/-! Access faults (R354, R370). -/

/-- A fault of a master (1 DMA engine, 2 debug port, 3 normal world, 4 secure world): counted, logged, reported at
most once per tick (R375). -/
def accessFault (master chan : Nat) (write : Bool) (addr : Nat) (d : Dev) : Dev :=
  let w0 := wd (master * 2 ^ 28 + chan * 2 ^ 24 + flag write 0)
  let d := { d with grn := { d.grn with
    log := ((w0, wd (addr / 2 ^ 32 % 128), wd (addr % 2 ^ 32)) :: d.grn.log).take 16
    faults := satInc 16 d.grn.faults, faultsAll := satInc 32 d.grn.faultsAll } }
  tickEvent ⟨0, 0x0782, 0, w0, wd (addr % 2 ^ 32)⟩ d

/-! Errors (R355, R356). -/

/-- A Granary failure: the halt record, then HALTED with cause 0x30. -/
def granaryHalt (detail ch addr : Nat) (o : Otp) (d : Dev) : Dev :=
  haltEntry 0x30 o { d with grn := { d.grn with halt := some (detail, ch, addr, d.sys.rtc) } }

def channelOf (d : Dev) (c : Nat) : Channel := tgetD d.grn.channels c Channel.init
def setChannel (c : Nat) (x : Channel) (d : Dev) : Dev := { d with grn := { d.grn with channels := tset d.grn.channels c x } }

/-- EVT_GRN_REPAIR, at most once per tick (R375). -/
def repairEvent (kind ch n : Nat) (d : Dev) : Dev := tickEvent ⟨0, 0x0783, 0, wd (kind * 2 ^ 28 + ch), wd n⟩ d

def rowLimit (d : Dev) : Nat := fld d.grn.prm0 7 0

/-- Reserve rows of a channel. -/
def reserveRows : Nat := 12288

/-- A correctable error: corrected and counted; at ROW_CE_LIMIT within a pass a reserve row takes the row's
place, while one is left. -/
def correctable (ch row : Nat) (d : Dev) : Dev :=
  let x := channelOf d ch
  let key := ch * 2 ^ 24 + row
  let n := tgetD d.grn.rowErrors key 0 + 1
  let d := setChannel ch { x with errors := satInc 32 x.errors } d
  let d := { d with grn := { d.grn with errors := d.grn.errors + 1, rowErrors := tset d.grn.rowErrors key n } }
  if n ≠ rowLimit d then d
  else if x.rows < reserveRows then
    let d := setChannel ch { channelOf d ch with rows := x.rows + 1 } d
    repairEvent 2 ch row { d with grn := { d.grn with rowErrors := tdel d.grn.rowErrors key } }
  else repairEvent 3 ch row d

/-- A node copy is rewritten from the other one. -/
def nodeRepair (ch index : Nat) (d : Dev) : Dev :=
  let x := channelOf d ch
  let d := setChannel ch { x with repaired := satInc 32 x.repaired } d
  repairEvent 1 ch index { d with grn := { d.grn with repaired := satInc 32 d.grn.repaired } }

/-- Channels whose tree-node copies have moved on: retired ones, and a retiring one past its migration (R362). -/
def copiesAway (o : Otp) (d : Dev) (c : Nat) : Bool :=
  o.retired.contains c || (match d.grn.retiring with | some r => r.ch == c && decide (3 ≤ r.phase) | none => false)

/-- A node has copies in memory. -/
def nodeInMemory (d : Dev) (level index : Nat) : Bool :=
  decide (1 ≤ level) && decide (level ≤ 3) && decide (index < treeNodes d level)

/-- A page frame exists on a channel in service; it holds a page. -/
def frameOk (o : Otp) (pfn : Nat) : Bool := channelLive o (pfn / 2 ^ 19) && decide (pfn % 2 ^ 19 < framesPerChannel)
def frameHeld (d : Dev) (pfn : Nat) : Bool :=
  (decide (pfn % 2 ^ 19 < startMapped d (pfn / 2 ^ 19)) && (tget d.grn.left pfn).isNone)
    || (framesUsed d (pfn / 2 ^ 19)).contains (pfn % 2 ^ 19)

/-- What the Winnower meets (R355, R360): a channel that is retired is not scrubbed, MACs count in pages in use. -/
def scrub (f : ScrubFind) (o : Otp) (d : Dev) : Dev :=
  let ch := fun (n : Nat) (b : Bool) => nodeChannel (copiesAway o d) d.grn.width n b
  if !granaryUp d then d
  else match f with
    | .passEnd => { d with grn := { d.grn with rowErrors := [] } }
    | .correctable ch row => if channelLive o ch then correctable ch row d else d
    | .node level index copyB otherOk =>
      if !nodeInMemory d level index then d
      else if otherOk then nodeRepair (ch index copyB) index d
      else granaryHalt 4 (ch index copyB) (nodeFirst level index * 4096) o d
    | .nodeMac level index copyB =>
      if nodeInMemory d level index then granaryHalt 5 (ch index copyB) (nodeFirst level index * 4096) o d else d
    | .data pfn line bad =>
      if frameOk o pfn && decide (line < 64) && (bad || frameHeld d pfn) then
        granaryHalt (if bad then 2 else 1) (pfn / 2 ^ 19) (pfn * 4096 + 64 * line) o d
      else d
    | .counter pfn => if frameOk o pfn then granaryHalt 3 (pfn / 2 ^ 19) (pfn * 4096) o d else d
    | .partialRead pfn line =>
      if frameOk o pfn && decide (line < 64) && frameHeld d pfn then granaryHalt 6 (pfn / 2 ^ 19) (pfn * 4096 + 64 * line) o d
      else d
    | .onDie => granaryHalt 7 0x3F 0 o d

/-- DESIGN CHOICE (log 21). -/
def execGrnScrub (f : ScrubFind) (s : State) : Host.Outcome State Fault Refusal := run (scrub f) s

/-! Re-keying (R358, R359). -/

def epochLimit (d : Dev) : Nat := fld d.grn.prm0 31 16 * 2 ^ 40

def granaryBusy (d : Dev) : Bool := d.grn.rekeying.isSome || d.grn.retiring.isSome

/-- EVT_GRN_REKEY. -/
def rekeyEvent (ended : Bool) (cause g : Nat) (d : Dev) : Dev :=
  emit 0 0x0780 (wd (flag ended 31 + cause * 2 ^ 28 + g)) (wd (regionOf d g).epoch) d

/-- The pages of a region, each changed. -/
def mapPages (g : Nat) (f : PageFrame → PageFrame) (d : Dev) : Dev :=
  let mine := fun (k : Nat) => k / 2 ^ 20 == g
  let bufs := d.grn.bufs.map (fun b => if mine b.1 then (b.1, { b.2 with pages := b.2.pages.map f }) else b)
  { d with grn := { d.grn with bufs := bufs, frames := d.grn.frames.map (fun p => if mine p.1 then (p.1, f p.2) else p) } }

/-- Every page of a region is now under the old key. -/
def selectOld (g : Nat) (d : Dev) : Dev := mapPages g (fun p => { p with ctr := { p.ctr with old := true } }) d

/-- Pages of a region that its old key still covers. -/
def oldPages (g : Nat) (d : Dev) : Nat :=
  let mine := fun (k : Nat) => k / 2 ^ 20 == g
  let listed := d.grn.frames.filter (fun p => mine p.1)
  let fixed := if g ≤ 1 then (regionOf d g).quota - listed.length + (listed.filter (·.2.ctr.old)).length else 0
  fixed + ((d.grn.bufs.filter (fun b => mine b.1)).map (fun b => (b.2.pages.filter (·.ctr.old)).length)).sum

/-- The Winnower has written every page that was under the old key back under the current one (R358): the device,
with the lines counted. DESIGN CHOICE (log 21). -/
def walkOld (g : Nat) (d : Dev) : Dev :=
  countLines g (64 * oldPages g d) (mapPages g (fun p => if p.ctr.old then p.renewAt g (regionOf d g) p.pfn else p) d)

/-- A region's current key pair becomes the old one and a fresh pair current; the epoch increments, the count
restarts. -/
def rekeyStart (g cause : Nat) (cmd : Option (Nat × Nat)) (d : Dev) : Dev :=
  let r := regionOf d g
  let k := keyBytes 64 d
  let d := setRegion g { r with key := k.1, oldKey := r.key, epoch := (r.epoch + 1) % 2 ^ 32, lines := 0 } k.2
  let d := setRoot (selectOld g d)
  rekeyEvent false cause g (maintStart 1 { d with grn := { d.grn with rekeying := some ⟨g, cause, cmd⟩ } })

def epochReached (g : Nat) (_ : Otp) (d : Dev) : Dev :=
  let taken := d.grn.waiting.contains g || (d.grn.rekeying.map (·.region)) == some g
  if !(granaryUp d && decide (g ≤ 4) && decide (epochLimit d ≤ (regionOf d g).lines.toNat)) || taken then d
  else if granaryBusy d || !winnowerWorks d then { d with grn := { d.grn with waiting := d.grn.waiting ++ [g] } }
  else rekeyStart g 2 none d

def execGrnEpochLimit (region : Nat) (s : State) : Host.Outcome State Fault Refusal := run (epochReached region) s

/-- The next region that waits for the end of a maintenance activity is re-keyed; else activity n ends.
DESIGN CHOICE (log 22). -/
def granaryNext (n : Nat) (d : Dev) : Dev :=
  match d.grn.waiting with
  | g :: rest =>
    let d := rekeyStart g 2 none { d with grn := { d.grn with waiting := rest } }
    if n = 1 then d else maintEnd n d
  | [] => maintEnd n d

/-- No page is left under the old key: it is overwritten, the end is reported (R358, R372). DESIGN CHOICE (log 21). -/
def rekeyDone (_ : Otp) (d : Dev) : Dev :=
  match d.grn.rekeying with
  | none => d
  | some x =>
    if !winnowerWorks d then d
    else
      let d := walkOld x.region d
      let d := setRoot (setRegion x.region { regionOf d x.region with oldKey := [] } d)
      let d := rekeyEvent true x.cause x.region { d with grn := { d.grn with rekeying := none } }
      let d := match x.cmd with
        | some (page, tag) => finish page tag 0x0710 stOk (wd (regionOf d x.region).epoch) d
        | none => d
      granaryNext 1 d

def execGrnRekeyDone (s : State) : Host.Outcome State Fault Refusal := run rekeyDone s

def cmdGrnRekey : Cmd where
  code := 0x0710
  expert := true
  modes := runModes
  event := true
  blank := false
  lenOk := lenIs 1
  bad := fun _ _ r => firstBad [(0, rf r 0 31 4 == 0 && decide (rf r 0 3 0 ≤ 4))]
  busy := fun _ d _ => granaryBusy d
  act := fun _ d r => (rekeyStart (rf r 0 3 0) 1 (some (r.page, r.tag)) d, stAccepted, [])

def execGrnRekey (r : NcsReq) (s : State) : Host.Outcome State Fault Refusal := run (command cmdGrnRekey r) s

/-! Channel retirement (R361, R362). -/

/-- EVT_GRN_RETIRE. -/
def retireEvent (phase ch pages : Nat) (d : Dev) : Dev := emit 0 0x0781 (wd (phase * 2 ^ 30 + ch)) (wd pages) d

def stRetireLimit : Nat := 0x8700

/-- The stack of a channel has a retired channel. -/
def stackSpent (o : Otp) (ch : Nat) : Bool := o.retired.any (fun c => c / 16 == ch / 16)

/-- Pages in use on a channel, which R362 migrates. -/
def pagesOn (d : Dev) (ch : Nat) : Nat := mappedOn d ch + bufferOn d ch

/-- The frame buffer and the other channels can give up a channel (R361). -/
def retireFits (o : Otp) (d : Dev) (ch : Nat) : Bool :=
  let q := (regionOf d 4).quota
  let others := ((List.range (channels o)).filter (· != ch)).map (freeOn o d)
  decide (65536 + framesPerChannel ≤ q) && decide (pagesIn d 4 + framesPerChannel ≤ q) && decide (pagesOn d ch ≤ others.sum)

/-- Phase 1: the channel takes no new page, the frame buffer's quota falls. -/
def retireStart (r : NcsReq) (d : Dev) : Dev :=
  let ch := rf r 0 5 0
  let g := regionOf d 4
  let d := setRegion 4 { g with quota := g.quota - framesPerChannel } d
  retireEvent 1 ch 0 (maintStart 2 { d with grn := { d.grn with retiring := some ⟨ch, 1, 0, 0, r.page, r.tag⟩ } })

def cmdGrnRetire : Cmd where
  code := 0x0711
  expert := true
  modes := runModes
  event := true
  blank := false
  lenOk := lenIs 1
  bad := fun o d r => firstBad
    [(0, rf r 0 31 6 == 0 && channelLive o (rf r 0 5 0) && !((d.grn.retiring.map (·.ch)) == some (rf r 0 5 0)))]
  busy := fun _ d _ => granaryBusy d
  full := fun o d r => !stackSpent o (rf r 0 5 0) && !retireFits o d (rf r 0 5 0)
  act := fun o d r => if stackSpent o (rf r 0 5 0) then (d, stRetireLimit, []) else (retireStart r d, stAccepted, [])

def execGrnRetire (r : NcsReq) (s : State) : Host.Outcome State Fault Refusal := run (command cmdGrnRetire r) s

/-- Phase 1 has lasted RETIRE_DRAIN ticks. -/
def drainEnd (_ : Otp) (d : Dev) : Dev :=
  match d.grn.retiring with
  | some x =>
    if winnowerWorks d && x.phase == 1 && decide (fld d.grn.prm1 15 0 ≤ x.ticks) then
      retireEvent 2 x.ch 0 { d with grn := { d.grn with retiring := some { x with phase := 2 } } }
    else d
  | none => d

/-- DESIGN CHOICE (log 3). -/
def execRetireDrainEnd (s : State) : Host.Outcome State Fault Refusal := run drainEnd s

/-- A channel with a free frame for the n-th page that leaves a channel: the open ones in turn, and the frame.
DEDUCED (log 20). -/
def newPlace (o : Otp) (d : Dev) (k n : Nat) : Option Nat :=
  let stay := (List.range (channels o)).filter (channelOpen o d)
  let turn := (List.range stay.length).map (fun i => stay.getD ((n + i) % max 1 stay.length) 0)
  turn.findSome? (freeFrame d k)

/-- A page goes to another page frame under its region's current key (R362); the frame it leaves is free. -/
def movePage (o : Otp) (k n : Nat) (p : PageFrame) (d : Dev) : PageFrame × Dev :=
  match newPlace o d k n with
  | some pfn =>
    (p.renewAt (k / 2 ^ 20) (regionOf d (k / 2 ^ 20)) pfn,
      metaUse true pfn (freeFrames [p] { d with grn := { d.grn with left := tdel d.grn.left pfn } }))
  | none => (p, d)

/-- The n-th mapped page leaves a channel: the page map names its new frame. -/
def moveMapped (o : Otp) (n : Nat) (d : Dev) (e : Nat × Nat) : Dev :=
  let k := bufKey e.1 e.2
  let r := movePage o k n (mappedFrame d e.1 e.2) d
  let d := { r.2 with grn := { r.2.grn with frames := tset r.2.grn.frames k r.1 } }
  if e.1 = 5 then d else countLines e.1 64 d

/-- The i-th page of a queue leaves a channel. -/
def moveBufferPage (o : Otp) (ch k : Nat) (d : Dev) (i : Nat) : Dev :=
  match (bufOf d k).pages[i]? with
  | some p =>
    if p.pfn / 2 ^ 19 ≠ ch then d
    else
      let r := movePage o k i p d
      let b := bufOf r.2 k
      countLines (k / 2 ^ 20) 64 { r.2 with grn := { r.2.grn with bufs := tset r.2.grn.bufs k { b with pages := b.pages.set i r.1 } } }
  | none => d

def moveBuffer (o : Otp) (ch k : Nat) (d : Dev) : Dev :=
  (List.range (bufOf d k).pages.length).foldl (moveBufferPage o ch k) d

/-- Phase 2 ends: every page in use on the channel has moved, written under its region's current key and the new PFN. -/
def migrateDone (o : Otp) (d : Dev) : Dev :=
  match d.grn.retiring with
  | some x =>
    if winnowerWorks d && x.phase == 2 then
      let n := pagesOn d x.ch
      let m := mappedPagesOn d x.ch
      let d := (List.range m.length).foldl (fun d i => moveMapped o i d (m.getD i (0, 0))) d
      let d := d.grn.bufs.foldl (fun d b => moveBuffer o x.ch b.1 d) d
      setRoot { d with grn := { d.grn with retiring := some { x with phase := 3, moved := n } } }
    else d
  | none => d

def execRetireMigrateDone (s : State) : Host.Outcome State Fault Refusal := run migrateDone s

/-- Phases 3 and 4: the channel's OTP bits are written by the firmware, so not while it is down (R364). -/
def retireDone (o : Otp) (d : Dev) : Otp × Dev :=
  match d.grn.retiring with
  | some x =>
    if granaryUp d && d.sb.up && x.phase == 3 then
      let d := retireEvent 3 x.ch x.moved { d with grn := { d.grn with retiring := none } }
      ({ o with retired := o.retired ++ [x.ch] }, granaryNext 2 (finish x.page x.tag 0x0711 stOk (wd x.moved) d))
    else (o, d)
  | none => (o, d)

def execRetireOtpDone (s : State) : Host.Outcome State Fault Refusal := runOtp retireDone s

/-- A tick passes for a drain, and a written parameter record takes force (R362, R365). -/
def grnTick (d : Dev) : Dev :=
  let one := fun (x : Retiring) => if x.phase = 1 && winnowerWorks d then { x with ticks := x.ticks + 1 } else x
  let p := d.grn.prmNext.getD (d.grn.prm0, d.grn.prm1)
  { d with grn := { d.grn with retiring := d.grn.retiring.map one, prm0 := p.1, prm1 := p.2, prmNext := none } }

/-! Commands (R366 to R373). -/

/-- Retired channels of a word of 32. -/
def retiredWord (o : Otp) (w : Nat) : Word := wd (((o.retired.filter (fun c => c / 32 == w)).map (fun c => 2 ^ (c % 32))).sum)

def grnStatusWords (o : Otp) (d : Dev) : List Word :=
  let rk := match d.grn.rekeying with | some x => 2 ^ 31 + x.region * 2 ^ 24 | none => 0
  let rt := match d.grn.retiring with | some x => 2 ^ 23 + x.ch * 2 ^ 16 | none => 0
  [wd (rk + rt + o.retired.length), retiredWord o 0, retiredWord o 1, wd (freeAll o d)] ++ two d.grn.errors
    ++ [wd d.grn.repaired, wd d.grn.faultsAll]

def cmdGrnStatus : Cmd where
  code := 0x0700
  lenOk := lenIs 0
  act := fun o d _ => (d, stOk, grnStatusWords o d)

def execGrnStatus (r : NcsReq) (s : State) : Host.Outcome State Fault Refusal := run (command cmdGrnStatus r) s

/-- Regions 0, 1 and 5 are mapped; all but 5 are protected (R345). -/
def mappedRegion (g : Nat) : Bool := g == 0 || g == 1 || g == 5

def regionWords (d : Dev) (g : Nat) : List Word :=
  let r := regionOf d g
  [wd (flag (g != 5) 31 + flag (mappedRegion g) 30 + g), wd r.quota, wd (if mappedRegion g then r.quota else pagesIn d g),
   wd (if g = 5 then 0 else r.epoch)] ++ two r.lines

def cmdGrnRegionGet : Cmd where
  code := 0x0701
  blank := false
  lenOk := lenIs 1
  bad := fun _ _ r => firstBad [(0, rf r 0 31 4 == 0 && decide (rf r 0 3 0 ≤ 5))]
  act := fun _ d r => (d, stOk, regionWords d (rf r 0 3 0))

def execGrnRegionGet (r : NcsReq) (s : State) : Host.Outcome State Fault Refusal := run (command cmdGrnRegionGet r) s

def channelWords (o : Otp) (d : Dev) (c : Nat) : List Word :=
  let x := channelOf d c
  let st := if o.retired.contains c then 2 else if (d.grn.retiring.map (·.ch)) == some c then 1 else 0
  [wd (st * 2 ^ 30 + c), wd (freeOn o d c), wd x.errors, wd x.repaired, wd x.rows, wd (reserveRows - x.rows)]

def cmdGrnChannelGet : Cmd where
  code := 0x0702
  lenOk := lenIs 1
  bad := fun o _ r => firstBad [(0, rf r 0 31 6 == 0 && decide (rf r 0 5 0 < channels o))]
  act := fun o d r => (d, stOk, channelWords o d (rf r 0 5 0))

def execGrnChannelGet (r : NcsReq) (s : State) : Host.Outcome State Fault Refusal := run (command cmdGrnChannelGet r) s

def faultWords (d : Dev) : List Word :=
  let es := d.grn.log ++ List.replicate (16 - d.grn.log.length) (0, 0, 0)
  wd (d.grn.log.length * 2 ^ 16 + d.grn.faults) :: (es.take 16).flatMap (fun e => [e.1, e.2.1, e.2.2])

def cmdGrnFaultLog : Cmd where
  code := 0x0703
  blank := false
  lenOk := lenIs 1
  bad := fun _ _ r => firstBad [(0, rf r 0 30 0 == 0)]
  act := fun _ d r =>
    (if bit (rw r 0) 31 then { d with grn := { d.grn with log := [], faults := 0 } } else d, stOk, faultWords d)

def execGrnFaultLog (r : NcsReq) (s : State) : Host.Outcome State Fault Refusal := run (command cmdGrnFaultLog r) s

def haltWords (d : Dev) : List Word :=
  match d.grn.halt with
  | none => [0, 0, 0, 0]
  | some (detail, ch, addr, rtc) => [wd (0x30 * 2 ^ 24 + detail * 2 ^ 16 + ch), wd (addr / 2 ^ 32 % 32), wd (addr % 2 ^ 32), rtc]

def cmdGrnHaltRecord : Cmd where
  code := 0x0704
  smb := true
  lenOk := lenIs 0
  act := fun _ d _ => (d, stOk, haltWords d)

def execGrnHaltRecord (r : NcsReq) (s : State) : Host.Outcome State Fault Refusal := run (command cmdGrnHaltRecord r) s

/-- Page frames that quotas share: those of the channels in service. DEDUCED (log 20). -/
def framesInService (o : Otp) (d : Dev) : Nat :=
  ((List.range (channels o)).filter (channelOpen o d)).length * framesPerChannel

/-- DEDUCED (log 20). -/
def quotaSum (d : Dev) (r : NcsReq) : Nat :=
  (regionOf d 0).quota + (regionOf d 1).quota + (rw r 0).toNat + (rw r 1).toNat + (rw r 2).toNat + (rw r 3).toNat

def setQuotas (r : NcsReq) (d : Dev) : Dev :=
  [2, 3, 4, 5].foldl (fun d g => setRegion g { regionOf d g with quota := (rw r (g - 2)).toNat } d) d

/-- DEDUCED (log 13). -/
def cmdGrnRegionSet : Cmd where
  code := 0x0712
  expert := true
  modes := [.staging]
  blank := false
  lenOk := lenIs 4
  bad := fun o d r => firstBad
    [(2, decide (65536 ≤ (rw r 2).toNat)), (3, decide (256 ≤ (rw r 3).toNat) && decide ((rw r 3).toNat ≤ 1048576)),
     (0, decide (quotaSum d r = framesInService o d))]
  busy := fun _ d _ => anyReservation d || decide (bufferPages d ≠ 0) || d.grn.retiring.isSome
    || (match d.grn.rekeying with | some x => x.cmd.isSome | none => false)
  act := fun _ d r => (setQuotas r d, stOk, [])

/-- A change of region 5 reinitialises it to zero (R346). -/
def execGrnRegionSet (r : NcsReq) (s : State) : Host.Outcome State Fault Refusal :=
  runAll (fun o ram d =>
    let d' := command cmdGrnRegionSet r o d
    (o, if (regionOf d' 5).quota = (regionOf d 5).quota then ram else [], d')) s

def cmdGrnParamWrite : Cmd where
  code := 0x0713
  expert := true
  modes := runModes
  blank := false
  lenOk := lenIs 2
  bad := fun _ _ r => firstBad
    [(0, rf r 0 31 16 != 0 && rf r 0 15 8 != 0 && rf r 0 7 0 != 0),
     (1, rf r 1 31 16 == 0 && rf r 1 15 0 != 0 && decide (rf r 1 15 0 ≤ 10000))]
  act := fun _ d r => ({ d with grn := { d.grn with prmNext := some (rw r 0, rw r 1) } }, stOk, [])

def execGrnParamWrite (r : NcsReq) (s : State) : Host.Outcome State Fault Refusal := run (command cmdGrnParamWrite r) s

def cmdGrnParamRead : Cmd where
  code := 0x0714
  expert := true
  blank := false
  lenOk := lenIs 0
  act := fun _ d _ =>
    let p := d.grn.prmNext.getD (d.grn.prm0, d.grn.prm1)
    (d, stOk, [p.1, p.2])

def execGrnParamRead (r : NcsReq) (s : State) : Host.Outcome State Fault Refusal := run (command cmdGrnParamRead r) s

end Sys2Proof.Machine
end

