-- ==== Sys2Proof/Machine/SignalBox.lean ====
section
/-!
DEFINITION. The Signal box and the Nernas Command Set (chapter 02): doorbells, rings, masks, the IRQ_
registers, the page hardware's answers, the SMBus channel, the housekeeping commands.
-/
namespace Sys2Proof.Machine

/-! Page registers (R44 to R47, R63, R67). -/

/-- The page window of page p answers host accesses (R78, R97). -/
def windowUp (d : Dev) (p : Nat) : Bool := decide (p ≤ 64) && reachable d p

/-- R46, R47. -/
def doorbell (p : Nat) (v : Word) (_ : Otp) (d : Dev) : Dev :=
  let g := pageOf d p
  if !(windowUp d p && bit v 0) then d
  else if g.reqBusy then setPage p { g with overrun := true } d
  else
    setPage p { g with latch := g.req, grant := g.expert, reqBusy := true, respValid := false,
                       lastTag := fld (tgetD g.req 0 0) 15 8 } d

def execNcsDoorbellWrite (page : Nat) (v : Word) (s : State) : Host.Outcome State Fault Refusal :=
  run (doorbell page v) s

/-- A head write is taken when it leaves 0 to 64 entries in use (R63). -/
def headWrite (p : Nat) (v : Word) (_ : Otp) (d : Dev) : Dev :=
  let g := pageOf d p
  if !windowUp d p then d
  else if (g.tail - v).toNat ≤ 64 then setPage p { g with head := v } d
  else setPage p { g with headErr := true } d

def execNcsEvtHeadWrite (page : Nat) (v : Word) (s : State) : Host.Outcome State Fault Refusal :=
  run (headWrite page v) s

/-- NCS_EVT_LOST: the value, then 0 (R44, R19 RC). -/
def lostRead (p : Nat) (_ : Otp) (d : Dev) : Dev :=
  let g := pageOf d p
  if windowUp d p then out (.readValue (wd g.lost)) (setPage p { g with lost := 0 } d) else d

def execNcsEvtLostRead (page : Nat) (s : State) : Host.Outcome State Fault Refusal := run (lostRead page) s

/-- R67: the masks, and one message for each mask bit that is cleared while its condition is pending: a response while
RESP_VALID is 1, an event while the tail differs from the head, SB_CHG while it is set. DESIGN CHOICE (log 67). -/
def irqMaskWrite (p : Nat) (v : Word) (_ : Otp) (d : Dev) : Dev :=
  let g := pageOf d p
  if !windowUp d p then d
  else
    let d := setPage p { g with maskResp := bit v 0, maskEvt := bit v 1, maskSb := bit v 2 } d
    let d := if g.maskResp && !bit v 0 && g.respValid then raise p d else d
    let d := if g.maskEvt && !bit v 1 && g.tail != g.head then raise p d else d
    if g.maskSb && !bit v 2 && g.sbChg then raise p d else d

def execNcsIrqMaskWrite (page : Nat) (v : Word) (s : State) : Host.Outcome State Fault Refusal :=
  run (irqMaskWrite page v) s

/-! The IRQ_ registers (R68). -/

/-- Send the held messages of the vectors that are not within their spacing. -/
def sendHeld (d : Dev) : Dev :=
  let now := d.sb.held.filter (fun v => !d.sb.spacing.contains v)
  let later := d.sb.held.filter (fun v => d.sb.spacing.contains v)
  now.foldl (fun d v => sendNow v d) { d with sb := { d.sb with held := later } }

/-- BAR2 answers host accesses (R78, R97). -/
def bar2Up (d : Dev) : Bool := reachable d 0

def irqCtlWrite (v : Word) (_ : Otp) (d : Dev) : Dev :=
  if !bar2Up d then d
  else
    let d := { d with sb := { d.sb with irqEnable := bit v 31, coalesce := fld v 15 0 } }
    if bit v 31 then sendHeld d else d

def execIrqCtlWrite (v : Word) (s : State) : Host.Outcome State Fault Refusal := run (irqCtlWrite v) s

/-- The spacing of a vector ends; a message held for it goes out (R68). -/
def coalesceExpiry (v : Nat) (_ : Otp) (d : Dev) : Dev :=
  if !d.sb.spacing.contains v then d
  else
    let rest := d.sb.spacing.filter (· != v)
    let d := { d with sb := { d.sb with spacing := rest } }
    if d.sb.irqEnable && d.sb.held.contains v then
      let held := d.sb.held.filter (· != v)
      sendNow v { d with sb := { d.sb with held := held } }
    else d

def execIrqCoalesceExpiry (vec : Nat) (s : State) : Host.Outcome State Fault Refusal :=
  run (coalesceExpiry vec) s

/-- IRQ_TEST.FIRE: one message on PF vector 1, whatever the mask and the spacing; held where ENABLE is 0
(R68). The bit clears, so no state keeps it. DEDUCED (log 14). -/
def irqTestFire (v : Word) (_ : Otp) (d : Dev) : Dev :=
  if !(bar2Up d && bit v 0) then d
  else if d.sb.irqEnable then sendNow 65 d else holdMsg 65 d

def execIrqTestFire (v : Word) (s : State) : Host.Outcome State Fault Refusal := run (irqTestFire v) s

/-! Answers of the page hardware (R74, R77). -/

/-- R74. -/
def busyAnswer (p : Nat) (_ : Otp) (d : Dev) : Dev :=
  if latched d p && !d.sb.up && !(d.sys.mode = .halted) then
    respond p (fld (latchWord d p 0) 15 8) stBusy [1] d
  else d

def execPageHwBusyAnswer (page : Nat) (s : State) : Host.Outcome State Fault Refusal := run (busyAnswer page) s

/-- R77. -/
def haltedAnswer (p : Nat) (_ : Otp) (d : Dev) : Dev :=
  if latched d p && d.sys.mode = .halted then respond p (fld (latchWord d p 0) 15 8) stHalted [] d else d

def execHaltedRequestAnswer (page : Nat) (s : State) : Host.Outcome State Fault Refusal :=
  run (haltedAnswer page) s

/-! The SMBus channel (R79, R80). -/

/-- The SMBus address (R629). -/
def smbAddress (d : Dev) : Nat := 0x58 + d.pwr.strap.toNat

/-- SMBus transactions are taken outside DORMANT. -/
def smbUp (d : Dev) : Bool := reachable d 65

def smbBlockWrite (words : List Word) (pecOk : Bool) (_ : Otp) (d : Dev) : Dev :=
  if !smbUp d then d
  else if !pecOk || d.sb.smbBusy then out .smbNack d
  else { d with sb := { d.sb with smbReq := words.take 16, smbBusy := true, smbReady := false } }

def execSmbBlockWrite (words : List Word) (pecOk : Bool) (s : State) : Host.Outcome State Fault Refusal :=
  run (smbBlockWrite words pecOk) s

/-- The SMBus packet error code: CRC-8 with x^8 + x^2 + x + 1, most significant bit first, from 0. PRESUMED (log 75). -/
def pec (bytes : List Nat) : Nat :=
  bytes.foldl (fun c b => (List.range 8).foldl (fun c i =>
    let top := (c / 128 + b / 2 ^ (7 - i)) % 2
    c * 2 % 256 ^^^ (if top = 1 then 7 else 0)) c) 0

/-- The bytes of a read over which its PEC runs: address and write bit, command byte, address and read bit, the data.
PRESUMED (log 75). -/
def readPec (d : Dev) (cmd : Nat) (data : List Nat) : Nat :=
  let a := smbAddress d * 2
  pec ([a, cmd, a + 1] ++ data)

/-- The response words and the PEC; byte count 0 while no response is ready. DEDUCED (log 15). -/
def smbBlockRead (_ : Otp) (d : Dev) : Dev :=
  let ws := if d.sb.smbReady then d.sb.smbResp else []
  if smbUp d then out (.smbBlock ws (readPec d 0x11 (4 * ws.length :: (wordBytes ws).map (·.toNat)))) d else d

def execSmbBlockRead (s : State) : Host.Outcome State Fault Refusal := run smbBlockRead s

/-- The byte of command 0x12 (R80). -/
def smbStatusByte (o : Otp) (d : Dev) : Nat :=
  flag d.sb.up 7 + modeCode d * 16 + o.life.code * 4 + flag d.sb.smbReady 1 + flag d.sb.smbBusy 0

/-- DEDUCED (log 15). -/
def smbReadByte (o : Otp) (d : Dev) : Dev :=
  let v := smbStatusByte o d
  if smbUp d then out (.smbByte v (readPec d 0x12 [v])) d else d

def execSmbReadByte (s : State) : Host.Outcome State Fault Refusal := run smbReadByte s

/-! Housekeeping commands (R82 to R87). -/

def cmdNcsPing : Cmd where
  code := 0x0100
  tenants := true
  smb := true
  retired := true
  lenOk := lenIs 1
  act := fun _ d r => (d, stOk, [rw r 0, wd (modeCode d)])

def execNcsPing (r : NcsReq) (s : State) : Host.Outcome State Fault Refusal := run (command cmdNcsPing r) s

/-- The code of the variant in NCS_GET_INFO (R84). -/
def Variant.code : Variant → Nat
  | .bv128 => 0x80
  | .bv064 => 0x40
  | .bv032 => 0x20

/-- The six words of R84. -/
def infoWords (o : Otp) (d : Dev) (p : Nat) : List Word :=
  let smb := p = 65
  [wd (o.variant.code * 2 ^ 24 + (if smb then 0xFF else p) * 2 ^ 16 + o.life.code * 2 ^ 8 + modeCode d),
   d.fw.runVersion, d.fw.runSec, wd (if smb then 0 else expertMask d p), 1,
   wd (if smb then 0 else inflight d p)]

def cmdNcsGetInfo : Cmd where
  code := 0x0101
  tenants := true
  smb := true
  retired := true
  lenOk := lenIs 0
  act := fun o d r => (d, stOk, infoWords o d r.page)

def execNcsGetInfo (r : NcsReq) (s : State) : Host.Outcome State Fault Refusal := run (command cmdNcsGetInfo r) s

/-- R85: the new mask, and EVT_EXPERT_CHANGED on the target page. -/
def setExpert (p : Nat) (mask : Nat) (d : Dev) : Dev :=
  emit p evtExpertChanged (wd mask) 0 (setPage p { pageOf d p with expert := BitVec.ofNat 16 mask } d)

def cmdNcsSetExpert : Cmd where
  code := 0x0102
  expert := true
  modes := runModes
  retired := true
  lenOk := lenIs 2
  bad := fun _ _ r => firstBad
    [(0, decide (1 ≤ (rw r 0).toNat) && decide ((rw r 0).toNat ≤ 64)), (1, rf r 1 31 16 == 0)]
  act := fun _ d r => (setExpert (rw r 0).toNat (rf r 1 15 0) d, stOk, [])

def execNcsSetExpert (r : NcsReq) (s : State) : Host.Outcome State Fault Refusal :=
  run (command cmdNcsSetExpert r) s

def cmdNcsSetEvtMask : Cmd where
  code := 0x0103
  tenants := true
  retired := true
  lenOk := lenIs 1
  bad := fun _ _ r => firstBad [(0, rf r 0 31 16 == 0)]
  act := fun _ d r =>
    (setPage r.page { pageOf d r.page with evtMask := BitVec.ofNat 16 (rf r 0 15 0) } d, stOk, [])

def execNcsSetEvtMask (r : NcsReq) (s : State) : Host.Outcome State Fault Refusal :=
  run (command cmdNcsSetEvtMask r) s

/-- R87. DESIGN CHOICE (log 12). -/
def Page.ringReset (g : Page) : Page :=
  { g with ring := [], tail := 0, head := 0, evtOvf := false, lost := 0 }

def cmdNcsRingReset : Cmd where
  code := 0x0104
  tenants := true
  retired := true
  lenOk := lenIs 0
  busy := fun _ d r => decide (inflight d r.page ≠ 0)
  act := fun _ d r => (setPage r.page (pageOf d r.page).ringReset d, stOk, [])

def execNcsRingReset (r : NcsReq) (s : State) : Host.Outcome State Fault Refusal :=
  run (command cmdNcsRingReset r) s

end Sys2Proof.Machine
end

