-- ==== Sys2Proof/Machine/Dma.lean ====
section
/-!
DEFINITION. The DMA engine (chapter 20): the byte funnel (R615), transfers and chains (R614, R616), errors (R617),
the DMA_ registers (R620).
-/
namespace Sys2Proof.Machine

def dmaOf (d : Dev) (c : Nat) : DmaChan := tgetD d.tel.dma c DmaChan.init
def setDma (c : Nat) (x : DmaChan) (d : Dev) : Dev := { d with tel := { d.tel with dma := tset d.tel.dma c x } }

/-! Host memory. -/

/-- The byte at a host address. DESIGN CHOICE (log 9). -/
def hostByte (m : HostMem) (a : Nat) : Option Byte :=
  m.segs.findSome? (fun s => if s.addr ≤ a then s.bytes[a - s.addr]? else none)

/-- What an access of n bytes at a host address meets: 0, or the error of R617. DESIGN CHOICE (log 9). -/
def hostError (m : HostMem) (a n : Nat) : Nat :=
  if !m.master then 3
  else if m.mute.any (fun r => decide (r.1 < a + n) && decide (a < r.1 + r.2)) then 1
  else if (List.range n).all (fun i => (hostByte m (a + i)).isSome) then 0
  else 3

def hostRead (m : HostMem) (a n : Nat) : Bytes := (List.range n).map (fun i => (hostByte m (a + i)).getD 0)

/-- Bytes written stand before what was there. -/
def hostPut (m : HostMem) (a : Nat) (b : Bytes) : HostMem := { m with segs := ⟨a, b⟩ :: m.segs }

/-! The device window (R354). -/

/-- An access lies in region 5, below its quota. -/
def windowOk (d : Dev) (a n : Nat) : Bool :=
  a / 2 ^ 36 == 5 && decide (a % 2 ^ 36 + n ≤ (regionOf d 5).quota * 4096)

/-- A byte of the window; a byte that nothing has written since the initialization reads 0 (R346, R357).
DESIGN CHOICE (log 56). -/
def ramByte (ram : List Host.Cell) (a : Nat) : Byte := tgetD ram a 0

/-- Put a byte into the window's canonical list: rising, no listed zero. DESIGN CHOICE (log 56). -/
def ramSet (ram : List Host.Cell) (a : Nat) (b : Byte) : List Host.Cell := if b = 0 then tdel ram a else tset ram a b

/-- Put a byte string into the window. DESIGN CHOICE (log 56). -/
def ramPut : List Host.Cell → Nat → Bytes → List Host.Cell
  | ram, _, [] => ram
  | ram, a, b :: t => ramPut (ramSet ram a b) (a + 1) t

/-! The byte funnel (R615). -/

/-- Length of the first access of a side that has n bytes to move from address a on. -/
def accessLen (a n : Nat) : Nat :=
  if a % 8 = 0 && 8 ≤ n then min (min 256 (n / 8 * 8)) (4096 - a % 4096)
  else if a % 4 = 0 && 4 ≤ n then 4
  else if a % 2 = 0 && 2 ≤ n then 2
  else 1

/-- The accesses of a side, as offset and length; the first number only bounds how many there are. -/
def accesses : Nat → Nat → Nat → Nat → List (Nat × Nat)
  | 0, _, _, _ => []
  | f + 1, a, n, off =>
    if n = 0 then []
    else
      let k := accessLen a n
      (off, k) :: accesses f (a + k) (n - k) (off + k)

/-! A run of a channel. -/

/-- What a run works on: host memory, window, device, its channel, the accesses that it may still make before it is
stopped (none: it is not), and the error that has ended it, 0 none. -/
structure DmaRun where
  mem : HostMem
  ram : List Host.Cell
  dev : Dev
  num : Nat
  chan : DmaChan
  left : Option Nat
  err : Nat

/-- What an access of n bytes meets on a side: 0, or the error of R617. DEDUCED (log 52). -/
def sideError (x : DmaRun) (window : Bool) (a n : Nat) : Nat :=
  if window then (if windowOk x.dev a n then 0 else 2) else hostError x.mem a n

/-- The run ends with an error; error 2 is an access fault of R354. -/
def dmaFail (e : Nat) (write : Bool) (a : Nat) (x : DmaRun) : DmaRun :=
  { x with err := e, dev := if e = 2 then accessFault 1 x.num write a x.dev else x.dev }

def sideRead (x : DmaRun) (window : Bool) (a n : Nat) : Bytes :=
  if window then (List.range n).map (fun i => ramByte x.ram (a + i)) else hostRead x.mem a n

def sideWrite (x : DmaRun) (window : Bool) (a : Nat) (b : Bytes) : DmaRun :=
  if window then { x with ram := ramPut x.ram a b }
  else { x with mem := hostPut x.mem a b, dev := out (.hostWrite a b) x.dev }

/-- One access fewer may be made. -/
def dmaSpend (x : DmaRun) : DmaRun := { x with left := x.left.map (· - 1) }

/-- The first access of the source that fails: its offset, length and error. -/
def sourceFail (x : DmaRun) (window : Bool) (src count : Nat) : Option (Nat × Nat × Nat) :=
  (accesses count src count 0).findSome? (fun c =>
    let e := sideError x window (src + c.1) c.2
    if e = 0 then none else some (c.1, c.2, e))

/-- One access of the destination: it waits for its bytes, so a failed access of the source ends the run first where it
covers one of them. DEDUCED (log 52). -/
def dmaStep (sw dw : Bool) (src dst : Nat) (bad : Option (Nat × Nat × Nat)) (x : DmaRun) (c : Nat × Nat) : DmaRun :=
  if x.err ≠ 0 then x
  else if x.left = some 0 then { x with err := 7 }
  else match bad.filter (fun b => decide (b.1 < c.1 + c.2)) with
    | some b => dmaFail b.2.2 false (src + b.1) x
    | none =>
      let e := sideError x dw (dst + c.1) c.2
      if e ≠ 0 then dmaFail e true (dst + c.1) x
      else
        let x := dmaSpend (sideWrite x dw (dst + c.1) (sideRead x sw (src + c.1) c.2))
        { x with chan := { x.chan with done := x.chan.done + c.2 } }

/-- A transfer of count bytes (R614, R615); its addresses show in the channel's registers. DEDUCED (log 52). -/
def dmaMove (sw dw : Bool) (src dst count : Nat) (x : DmaRun) : DmaRun :=
  let x := { x with chan := { x.chan with src := src, dst := dst, count := count, done := 0 } }
  (accesses count dst count 0).foldl (dmaStep sw dw src dst (sourceFail x sw src count)) x

/-- The eight words of a linked record. -/
def recordWords (m : HostMem) (a : Nat) : List Word := bytesWords 8 (hostRead m a 32)

def recordGen (x : DmaRun) : Nat := fld x.chan.ctl 23 16

/-- A record has a reserved bit set, or its next record is misaligned (R616). DEDUCED (log 52). -/
def recordBad (w : List Word) : Bool :=
  fld (w.getD 5 0) 23 4 != 0 || bit (w.getD 5 0) 1 || (!bit (w.getD 5 0) 0 && fld (w.getD 6 0) 4 0 != 0)

def pairAt (w : List Word) (i : Nat) : Nat := (w.getD i 0).toNat + 2 ^ 32 * (w.getD (i + 1) 0).toNat

/-- STAMP is written back, and the record counts as completed. -/
def recordDone (a : Nat) (x : DmaRun) : DmaRun :=
  let e := hostError x.mem (a + 23) 1
  if x.err ≠ 0 then x
  else if x.left = some 0 then { x with err := 7 }
  else if e ≠ 0 then { x with err := e }
  else
    let x := dmaSpend (sideWrite x false (a + 23) [BitVec.ofNat 8 (recordGen x + 1)])
    { x with chan := { x.chan with hops := x.chan.hops + 1 } }

/-- The records from a on, at most as many as the first number says (R616). -/
def dmaChain : Nat → Nat → DmaRun → DmaRun
  | 0, _, x => { x with err := 4 }
  | f + 1, a, x =>
    let e := hostError x.mem a 32
    if a % 32 ≠ 0 then { x with err := 6 }
    else if x.left = some 0 then { x with err := 7 }
    else if e ≠ 0 then { x with err := e }
    else
      let w := recordWords x.mem a
      let c := w.getD 5 0
      if fld c 31 24 ≠ recordGen x then { x with err := 5 }
      else if recordBad w then { x with err := 6 }
      else
        let x := recordDone a (dmaMove (bit c 3) (bit c 2) (pairAt w 0) (pairAt w 2) (w.getD 4 0).toNat (dmaSpend x))
        if x.err ≠ 0 || bit c 0 then x else dmaChain f (pairAt w 6) x

/-- A channel runs, to its end or to where it is stopped. -/
def dmaGo (x : DmaRun) : DmaRun :=
  let c := x.chan
  if bit c.ctl 29 then dmaChain (fld c.ctl 10 0) c.link x
  else dmaMove (bit c.ctl 27) (bit c.ctl 26) c.src c.dst c.count x

/-- The lowest-numbered pending channel, while none runs (R614). -/
def dmaNext (d : Dev) : Option Nat :=
  if (List.range 8).any (fun c => (dmaOf d c).state == 2) then none
  else (List.range 8).find? (fun c => (dmaOf d c).state == 1)

/-- The engine works outside HALTED (R618). -/
def dmaWorks (d : Dev) : Bool := d.sys.phase == .up && !(d.sys.mode == Mode.halted)

/-- The lowest pending channel runs: its bytes move; the error with which it will end is held until it does.
DEDUCED (log 52). -/
def dmaRun (host : HostMem) (cut : Option Nat) (o : Otp) (ram : List Host.Cell) (d : Dev) : Otp × List Host.Cell × Dev :=
  match if dmaWorks d then dmaNext d else none with
  | none => (o, ram, d)
  | some c =>
    let x := dmaGo ⟨host, ram, d, c, { dmaOf d c with state := 2, hops := 0, done := 0 }, cut, 0⟩
    (o, x.ram, setDma c { x.chan with outcome := x.err } x.dev)

def execDmaChannelRun (host : HostMem) (cut : Option Nat) (s : State) : Host.Outcome State Fault Refusal :=
  runAll (dmaRun host cut) s

/-- A channel ends with an error, 0 none: its DMA_EVENT bit is set. -/
def dmaEnd (c e : Nat) (d : Dev) : Dev :=
  withHw (fun d =>
    let d := setDma c { dmaOf d c with state := 0, err := e } d
    { d with tel := { d.tel with dmaEvent := d.tel.dmaEvent ||| BitVec.ofNat 16 (2 ^ (if e = 0 then c else 8 + c)) } }) d

/-- The running channel ends. DEDUCED (log 52). -/
def dmaDone (c : Nat) (_ : Otp) (d : Dev) : Dev :=
  if c < 8 && (dmaOf d c).state == 2 then dmaEnd c (dmaOf d c).outcome d else d

def execDmaChannelDone (ch : Nat) (s : State) : Host.Outcome State Fault Refusal := run (dmaDone ch) s

/-! The DMA_ registers (R620). -/

/-- A write of DMA_CTL: STOP ends a running or a pending channel, START makes an idle one pending (R614, R617,
R618). DEDUCED (log 52). -/
def dmaCtlWrite (c : Nat) (v : Word) (_ : Otp) (d : Dev) : Dev :=
  if !(bar2Up d && decide (c < 8)) then d
  else
    let x := dmaOf d c
    let ctl := (v &&& 0x2CFF0000#32) ||| wd (max 1 (fld v 10 0))
    let d := setDma c { x with ctl := ctl } d
    if x.state = 0 then (if bit v 31 then setDma c { dmaOf d c with state := 1 } d else d)
    else if bit v 30 then dmaEnd c 7 d
    else d

/-- A write that sets START. -/
def execDmaStartWrite (ch : Nat) (v : Word) (s : State) : Host.Outcome State Fault Refusal :=
  run (dmaCtlWrite ch (v ||| 0x80000000#32)) s

/-- A write that sets STOP. -/
def execDmaStopWrite (ch : Nat) (v : Word) (s : State) : Host.Outcome State Fault Refusal :=
  run (dmaCtlWrite ch (v ||| 0x40000000#32)) s

/-- A 64-bit address with its low or high word replaced. -/
def withLow (a : Nat) (v : Word) : Nat := a / 2 ^ 32 * 2 ^ 32 + v.toNat
def withHigh (a : Nat) (v : Word) : Nat := a % 2 ^ 32 + 2 ^ 32 * v.toNat

/-- A write of the register of a channel: its address, count and link registers only while it is idle (R618). -/
def dmaChanWrite (c r : Nat) (v : Word) (o : Otp) (d : Dev) : Dev :=
  let x := dmaOf d c
  if r = 0x14 then dmaCtlWrite c v o d
  else if x.state ≠ 0 then d
  else match r with
    | 0x00 => setDma c { x with src := withLow x.src v } d
    | 0x04 => setDma c { x with src := withHigh x.src v } d
    | 0x08 => setDma c { x with dst := withLow x.dst v } d
    | 0x0C => setDma c { x with dst := withHigh x.dst v } d
    | 0x10 => setDma c { x with count := v.toNat } d
    | 0x20 => setDma c { x with link := withLow x.link v } d
    | 0x24 => setDma c { x with link := withHigh x.link v } d
    | _ => d

/-- A write of the DMA_ register at an offset from 0x1000. -/
def dmaWrite (off : Nat) (v : Word) (o : Otp) (d : Dev) : Dev :=
  if off < 0x200 then dmaChanWrite (off / 0x40) (off % 0x40) v o d
  else match off with
    | 0x204 => { d with tel := { d.tel with dmaEvent := d.tel.dmaEvent &&& ~~~(v.setWidth 16) } }
    | 0x208 => withHw (fun d => { d with tel := { d.tel with dmaIrqEn := v.setWidth 16 } }) d
    | _ => d

end Sys2Proof.Machine
end

