-- ==== Sys2Proof/Machine/Firmware.lean ====
section
/-!
DEFINITION. Replacing the Signal box firmware (chapter 18): the checks of an image, the update states, activation,
probation, confirmation, fall-back. The codes of the states are those of R569.
-/
namespace Sys2Proof.Machine

/-! Images (R566 to R568, R570). -/

def stFwSigner : Nat := 0x8E00
def stFwRollback : Nat := 0x8E01
def stFwImage : Nat := 0x8E02
def stFwFlash : Nat := 0x8E03
def stFwUnhealthy : Nat := 0x8E04

/-- The signer entry that a measurement names. -/
def signerIndex (sg : Bytes) : Option Nat := (List.range 4).find? (fun i => Config.signerEntry i == sg)

/-- An accepted signer: an entry that is not revoked (R567). DEDUCED (log 19). -/
def signerAccepted (o : Otp) (sg : Bytes) : Bool := (List.range 4).any (fun i => Config.signerEntry i == sg && !o.revoked.getLsbD i)

/-- What a slot that holds an image must satisfy beyond its hashes (R568). DEDUCED (log 19). -/
def imageAccepted (o : Otp) (i : Image) : Bool := signerAccepted o i.signer && decide (o.floor ≤ i.sec)

/-- The image in a byte string. -/
def imageOf (m : Bytes) : Image where
  version := wd (beAt m 8 4)
  sec := beAt m 12 4
  floor := beAt m 16 4
  revoke := beAt m 28 1
  signer := sha384 (slice m 32 2689)
  meas := sha384 m
  len := m.length

/-- Check 1 of R570: length, magic, format, variant bit, n, code length, V, G and revoke mask. DEDUCED (log 19). -/
def manifestOk (o : Otp) (m : Bytes) : Bool :=
  let n := beAt m 20 2
  let code := beAt m 24 4
  let i := imageOf m
  let own := match signerIndex i.signer with | some k => i.revoke.testBit k | none => false
  beAt m 0 4 == 0x5A46574D && beAt m 4 1 == 1 && (beAt m 5 1 &&& variantCode o) == variantCode o && beAt m 5 1 % 32 == 0
    && decide (1 ≤ n) && decide (n ≤ 127) && decide (65536 * (n - 1) < code) && decide (code ≤ 65536 * n)
    && decide (m.length = 16384 + code) && decide (i.sec ≤ 512) && decide (i.floor ≤ i.sec) && decide (i.revoke < 16) && !own

/-- Both signatures over the manifest (check 3). -/
def imageSigned (m : Bytes) : Bool :=
  Config.mldsaVerify (slice m 32 2592) (m.take 11264) (slice m 11264 4627)
    && Config.ecdsaVerify (slice m 2624 97) (m.take 11264) (slice m 15891 96)

/-- Every block hash (check 4). -/
def blocksOk (m : Bytes) : Bool :=
  (List.range (beAt m 20 2)).all (fun i => sha384 (slice m (16384 + 65536 * i) 65536) == slice m (2752 + 48 * i) 48)

/-- The checks of R570 in their order: the status that applies. DESIGN CHOICE (log 8). -/
def imageJudge (o : Otp) (m : Bytes) : Nat :=
  if !manifestOk o m then stFwImage
  else if !signerAccepted o (imageOf m).signer then stFwSigner
  else if !imageSigned m then stAuthFail
  else if !blocksOk m then stFwImage
  else if (imageOf m).sec < o.floor then stFwRollback
  else stOk

/-! The update (R570 to R572). -/

/-- An image runs: its version and measurements are recorded. -/
def runImage (i : Image) (d : Dev) : Dev :=
  { d with fw := { d.fw with
    running := i, runVersion := i.version, runSec := wd i.sec, imageMeas := i.meas, signerMeas := i.signer } }

def probationSeconds (r : NcsReq) : Nat := if rf r 3 9 0 = 0 then 120 else rf r 3 9 0

/-- The image is copied to secure scratch, region 1; its signatures are device jobs of the PKE. -/
def fwUpdate (o : Otp) (r : NcsReq) (d : Dev) : Dev :=
  let m := r.buf.take (bufLen r 0)
  let u : Update := ⟨r.page, r.tag, imageOf m, imageJudge o m, bit (rw r 3) 31, probationSeconds r⟩
  let d := deviceJob (countLines 1 ((m.length + 63) / 64) d)
  maintStart 0 { d with fw := { d.fw with update := some u } }

def cmdFwUpdate : Cmd where
  code := 0x0E01
  modes := runModes
  event := true
  blank := false
  lenOk := lenIs 4
  bad := fun _ _ r => firstBad (bufBad r 0
    ++ [(3, rf r 3 30 10 == 0 && (rf r 3 9 0 == 0 || decide (30 ≤ rf r 3 9 0) && decide (rf r 3 9 0 ≤ 600)))])
  busy := fun _ d _ => decide (d.fw.state ≠ 0) || d.fw.update.isSome
  act := fun o d r => (fwUpdate o r d, stAccepted, [])

def execFwUpdate (r : NcsReq) (s : State) : Host.Outcome State Fault Refusal := run (command cmdFwUpdate r) s

/-- The firmware works: past the start, not HALTED. DEDUCED (log 19). -/
def fwWorks (d : Dev) : Bool := d.sys.phase == .up && !(d.sys.mode == .halted)

/-- The checks end: a refusal ends the activity; a checked image is STAGED, and the running image goes to the recall
slot. -/
def fwStaged (_ : Otp) (d : Dev) : Dev :=
  match d.fw.update with
  | some u =>
    if !(fwWorks d && d.sb.up && d.fw.state == 0) then d
    else if u.verdict = stOk then fwState 2 0 (fwState 1 0 d)
    else maintEnd 0 (fwFinish u.verdict 0 d)
  | none => d

def execFwStaged (s : State) : Host.Outcome State Fault Refusal := run fwStaged s

/-- A slot write of n bytes that began with the state has taken its time: 2,000,000 bytes a second (R571). -/
def flashDone (d : Dev) (n : Nat) : Bool := decide (n ≤ (d.sys.ticks - d.fw.stateAt) * 2000)

/-- The copy into the recall slot ends; `ok` is false where a block failed its read-back twice. -/
def recallWritten (ok : Bool) (_ : Otp) (d : Dev) : Dev :=
  if !(fwWorks d && d.fw.state == 2 && (!ok || flashDone d d.fw.image.len)) then d
  else if ok then fwState 3 0 { d with fw := { d.fw with recallImg := d.fw.image, recallValid := true, whole := false } }
  else fwAbandon stFwFlash d

def execFwRecallWriteDone (ok : Bool) (s : State) : Host.Outcome State Fault Refusal := run (recallWritten ok) s

/-- The Signal box stops under R73, to come up for a reason of R66. -/
def sbStop (reason : Nat) (d : Dev) : Dev :=
  let d := setSbUp false d
  { d with sb := { d.sb with restartReason := reason } }

/-- Steps 2 and 3 of R575: the Signal box stops and the recall image starts after its checks. -/
def recallStarts (o : Otp) (d : Dev) : Dev :=
  let d := sbStop 4 d
  if d.fw.recallValid && imageAccepted o d.fw.recallImg then runImage d.fw.recallImg d else haltEntry 0x32 o d

/-- The loader falls back to the recall image (R575): outcome 2 expired, 3 reverted. Without a recall image that passes
its checks the device halts. -/
def fallBack (outcome : Nat) (o : Otp) (d : Dev) : Dev := recallStarts o (fwState 6 outcome d)

/-- The new image is written (`ok`), probation begins, and activation stops the Signal box; `starts` says whether the
image passes the loader's checks and its lockstep self-check. The status of an FW_UPDATE whose image fails there is
not stated: a free value. -/
def imageWritten (ok starts : Bool) (o : Otp) (d : Dev) : Dev :=
  match d.fw.update with
  | some u =>
    if !(fwWorks d && d.fw.state == 3 && (!ok || flashDone d u.image.len)) then d
    else if !ok then fwFinish stFwFlash 0 (fwState 6 5 d)
    else
      let d := { d with fw := { d.fw with
        image := u.image, whole := true, left := u.secs * 1000, auto := u.auto, ran := 0 } }
      let d := sbStop 3 (fwState 4 0 d)
      if starts && imageAccepted o u.image then fwFinish stOk u.image.version (runImage u.image d)
      else
        let x := draw 16 (fallBack 2 o d)
        fwFinish x.1.toNat 0 x.2
  | none => d

def execFwImageWriteDone (ok starts : Bool) (s : State) : Host.Outcome State Fault Refusal := run (imageWritten ok starts) s

/-! Probation (R573 to R575). -/

/-- The health checks of R573: the running firmware has passed its lockstep self-check and answers pages within bounds by
construction; the key store is recovered; the DRBG was reseeded within the last tick. DEDUCED (log 19). -/
def healthy (o : Otp) (d : Dev) : Bool :=
  (d.ks.unwrapped || o.life == .blank) && d.sl.keyDrbg.up && d.sl.lineDrbg.up && decide (d.sl.sinceReseed ≤ 1)

def cmdFwConfirm : Cmd where
  code := 0x0E02
  modes := runModes
  blank := false
  lenOk := lenIs 0
  busy := fun _ d _ => decide (d.fw.state ≠ 4)
  act := fun o d _ => if healthy o d then (fwState 5 1 d, stOk, []) else (d, stFwUnhealthy, [])

def execFwConfirm (r : NcsReq) (s : State) : Host.Outcome State Fault Refusal := run (command cmdFwConfirm r) s

/-- The firmware confirms itself at a tick boundary once 30 s have passed. -/
def autoConfirm (o : Otp) (d : Dev) : Dev :=
  if fwWorks d && d.sb.up && d.fw.state == 4 && d.fw.auto && decide (30000 ≤ d.fw.ran) && !(d.sys.mode == .locked) && healthy o d then
    fwState 5 1 d
  else d

def execFwAutoConfirm (s : State) : Host.Outcome State Fault Refusal := run autoConfirm s

/-- The burns of R574 up to G and of the revoke mask. -/
def fwBurn (i : Image) (o : Otp) : Otp :=
  { o with floor := max o.floor (min 512 i.floor), revoked := o.revoked ||| BitVec.ofNat 4 i.revoke }

/-- A recall slot below the new floor can serve no fall-back. -/
def dropStaleRecall (i : Image) (d : Dev) : Dev :=
  if d.fw.recallImg.sec < i.floor then { d with fw := { d.fw with recallValid := false } } else d

def confirmDone (o : Otp) (d : Dev) : Otp × Dev :=
  if fwWorks d && d.sb.up && d.fw.state == 5 then
    let d := dropStaleRecall d.fw.image { d with fw := { d.fw with confirmed := satInc 32 d.fw.confirmed, left := 0 } }
    (fwBurn d.fw.image o, maintEnd 0 (fwState 0 0 d))
  else (o, d)

def execFwConfirmOtpDone (s : State) : Host.Outcome State Fault Refusal := runOtp confirmDone s

def cmdFwRevert : Cmd where
  code := 0x0E10
  expert := true
  modes := runModes
  blank := false
  lenOk := lenIs 0
  busy := fun _ d _ => decide (d.fw.state ≠ 4)
  act := fun _ d _ => (fwState 6 3 d, stOk, [])
  after := fun o _ _ d => recallStarts o d

def execFwRevert (r : NcsReq) (s : State) : Host.Outcome State Fault Refusal := run (command cmdFwRevert r) s

def probationExpiry (o : Otp) (d : Dev) : Dev :=
  if fwWorks d && d.fw.state == 4 && d.fw.left == 0 then fallBack 2 o d else d

def execFwProbationExpiry (s : State) : Host.Outcome State Fault Refusal := run probationExpiry s

/-- The recall image is copied back into the image slot (R575 steps 4 and 5). -/
def restoreDone (_ : Otp) (d : Dev) : Dev :=
  if fwWorks d && d.sb.up && d.fw.state == 6 && flashDone d d.fw.recallImg.len then
    maintEnd 0 (fwState 0 6 { d with fw := { d.fw with image := d.fw.recallImg, whole := true, left := 0 } })
  else d

def execFwRestoreDone (s : State) : Host.Outcome State Fault Refusal := run restoreDone s

/-- A tick of probation. -/
def fwTick (d : Dev) : Dev :=
  if d.fw.state = 4 then { d with fw := { d.fw with left := d.fw.left - 1, ran := d.fw.ran + 1 } } else d

/-! Status (R579). -/

def fwWords (o : Otp) (d : Dev) : List Word :=
  let entry := match signerIndex d.fw.signerMeas with | some k => 2 ^ k | none => 0
  [wd (d.fw.state * 2 ^ 28 + o.floor), d.fw.runVersion, d.fw.runSec,
   if d.fw.recallValid then d.fw.recallImg.version else 0, wd (flag d.fw.recallValid 31 + d.fw.recallImg.sec),
   wd (if d.fw.state = 4 then d.fw.left else 0), wd (o.revoked.toNat * 16 + entry), wd d.fw.confirmed]

def cmdFwStatus : Cmd where
  code := 0x0E00
  smb := true
  lenOk := lenIs 0
  act := fun o d _ => (d, stOk, fwWords o d)

def execFwStatus (r : NcsReq) (s : State) : Host.Outcome State Fault Refusal := run (command cmdFwStatus r) s

end Sys2Proof.Machine
end

