-- ==== Sys2Proof/Machine/Lanes.lean ====
section
/-!
DEFINITION. High-speed lanes (chapter 14): ports, the bring-up sequencer, adaptation, Fallow, test features.
-/
namespace Sys2Proof.Machine

/-! Sequencer profiles (R471 to R473). -/

/-- The reset values of R472. -/
def seqReset (p : Nat) : List Word :=
  [0x800003E8#32, if p % 2 = 0 then 0x9310C350#32 else 0x93901388#32, 0xA3000064#32, 0xB3000064#32,
   0x81000064#32, 0x80000000#32]

def seqProfile (d : Dev) (p : Nat) : List Word := (tget d.ln.profiles p).getD (seqReset p)

/-- The profile of the port that holds a lane. -/
def laneProfile (d : Dev) (k : Nat) : List Word :=
  match portOfLane d k with
  | some p => match portOf d p with | some q => seqProfile d q.profile | none => seqReset 0
  | none => seqReset 0

/-- From stage n on, the first stage that is enabled; stage 6 always is (R471). -/
def nextStage (ws : List Word) (n : Nat) : Nat :=
  match (List.range 6).find? (fun i => decide (n ≤ i + 1) && bit (ws.getD i 0) 31) with
  | some i => i + 1
  | none => 6

/-- Whether every lane of a port is ACTIVE (R469). -/
def allActive (d : Dev) (k : Nat) (p : Port) : Bool := (portLanes k p).all (fun l => (laneOf d l).state == 6)

/-- Judge a port again and collect EVT_PORT_STATE where it changed (R469, R492). -/
def portRefresh (k : Nat) (d : Dev) : Dev :=
  match portOf d k with
  | none => d
  | some p =>
    let up := allActive d k p
    if up = p.up then d
    else
      let first := ((portLanes k p).find? (fun l => (laneOf d l).state != 6)).map (· % 64)
      tickEvent ⟨0, 0x0280, k, wd (k / 64 * 2 ^ 31 + flag up 30 + k % 64 * 2 ^ 16), wd (first.getD 0x3F)⟩
        { d with ln := { d.ln with ports := tset d.ln.ports k { p with up := up } } }

/-- The port of a lane, judged again. -/
def lanePortRefresh (k : Nat) (d : Dev) : Dev :=
  match portOfLane d k with
  | some p => portRefresh p d
  | none => d

/-- A lane enters a stage, or the next enabled one (R471, R473). Stages 1 and 2 discard the coefficients
(R480), and below stage 3 the FoM is 0 (R475). -/
def enterStage (k stage retries : Nat) (d : Dev) : Dev :=
  let ws := laneProfile d k
  let n := nextStage ws stage
  let l := laneOf d k
  let l := { l with word := ws.getD (n - 1) 0, stageAt := rawNow d, waiting := false, trial := none }
  let l := if n = 6 then { l with state := 6, retries := 0, held := true, lock := true, signal := true,
                                  entries := satInc 16 l.entries }
    else { l with state := n, retries := if n = stage then retries else 0,
                  held := l.held && decide (3 ≤ n), coeffs := if n < 3 then 0 else l.coeffs
                  fom := if n < 3 then 0 else l.fom }
  setLane k l d

/-- Restart a lane at a stage and judge its port again. -/
def restart (k stage retries : Nat) (d : Dev) : Dev := lanePortRefresh k (enterStage k stage retries d)

/-- Codeword lock of a line-mode lane is gone: alignment goes to HUNT with cause 4 (R192). -/
def lineLockGone (k : Nat) (d : Dev) : Dev :=
  let d := setLane k { laneOf d k with lock := false } d
  if k < 64 && isLmLane d k then toHunt k 4 d else d

/-- LOL of a line-mode lane (R216). -/
def declareLol (k : Nat) (d : Dev) : Dev :=
  if k < 64 && isLmLane d k then withDefects (setDefect k 2 true) d else d

/-! Events of the sequencer. -/

/-- The lane key is one of the variant's lanes. -/
def laneKeyOk (o : Otp) (side lane : Nat) : Bool := decide (side ≤ 1) && decide (lane < lanes o)

/-- A stage may succeed: stage 2 needs the FoM of the profile (R472), stage 5 every lane of the port (R470). -/
def stageMay (d : Dev) (k fom : Nat) : Bool :=
  let l := laneOf d k
  match l.state with
  | 1 => true
  | 2 => decide (100 + 20 * fld l.word 22 20 ≤ fom)
  | 3 => !l.waiting
  | 4 => true
  | 5 => match portOfLane d k with
    | some p => match portOf d p with
      | some q => (portLanes p q).all (fun x => decide (5 ≤ (laneOf d x).state) && decide ((laneOf d x).state ≤ 6))
      | none => false
    | none => false
  | _ => false

/-- TU cycles of a stage's time limit, in units of 10 µs (R471). -/
def stageLimit (l : Lane) : Nat := usCycles (10 * fld l.word 19 0)

/-- The time limit of the stage that a lane runs has passed. -/
def stageOver (d : Dev) (k : Nat) : Bool := decide (stageLimit (laneOf d k) ≤ rawNow d - (laneOf d k).stageAt)

/-- The delays taken when the locks are gained (R445, R446). -/
def lockDelays (side lane : Nat) (m : LockMeas) (d : Dev) : Dev :=
  let rx := side * 128 + lane
  let tx := side * 128 + 64 + lane
  let t := d.tu
  { d with tu := { t with
    dLock := tset (tset t.dLock rx m.rxLock) tx m.txLock
    dLive := tset (tset t.dLive rx m.rxLive) tx m.txLive
    dCount := tdel (tdel t.dCount rx) tx
    dBlock := tdel (tdel t.dBlock rx) tx
    dCal := tdel (tdel t.dCal rx) tx } }

/-- R470, R471: the lane enters the next stage; after stage 5 every lane of the port that stood there is
ACTIVE. Gaining the locks in stage 4 measures the path delays `m`; training and adaptation in stage 2 choose the
coefficients. DEDUCED (log 70). -/
def stageSuccess (side lane fom : Nat) (m : LockMeas) (o : Otp) (d : Dev) : Dev :=
  let k := lk side lane
  if !(laneKeyOk o side lane && stageMay d k fom) || stageOver d k then d
  else
    let l := laneOf d k
    let c := if l.state = 2 then draw 64 d else (l.coeffs, d)
    let d := setLane k { l with
      fom := if l.state = 2 then fom else l.fom, coeffs := c.1, signal := l.signal || decide (2 ≤ l.state),
      lock := l.lock || decide (l.state = 4) } c.2
    let d := if l.state = 4 then lockDelays side lane m d else d
    if l.state = 5 then
      match portOfLane d k with
      | some p => match portOf d p with
        | some q => portRefresh p ((portLanes p q).foldl
            (fun d x => if (laneOf d x).state = 5 then enterStage x 6 0 d else d) d)
        | none => d
      | none => d
    else restart k (l.state + 1) 0 d

def execLaneStageSuccess (side lane fom : Nat) (m : LockMeas) (s : State) : Host.Outcome State Fault Refusal :=
  run (fun o d => pathsRefresh (stageSuccess side lane fom m o d)) s

/-- R471: a stage that has not succeeded in its TIMEOUT fails: retry, then FAIL_TO, then FAILED with EVT_LANE_FAILED.
DEDUCED (log 70). -/
def stageTimeout (side lane dt : Nat) (o : Otp) (d : Dev) : Dev :=
  let d := passTime dt d
  let k := lk side lane
  let l := laneOf d k
  if !(laneKeyOk o side lane) || l.state = 0 || decide (5 < l.state) || l.waiting || !stageOver d k then d
  else
    let retry := fld l.word 27 24
    let next := fld l.word 30 28
    if retry = 0 || decide (l.retries < retry) then restart k l.state (satInc 8 l.retries) d
    else if next ≠ 0 then restart k next 0 d
    else
      emit 0 0x0281 (wd (side * 2 ^ 31 + l.state * 2 ^ 8 + lane)) (wd l.fom)
        (lanePortRefresh k (setLane k { l with state := 9, retries := 0, held := false, fom := 0 } d))

def execLaneStageTimeout (side : Nat) (lane : Timed) (s : State) : Host.Outcome State Fault Refusal :=
  run (fun o d => pathsRefresh (stageTimeout side lane.val lane.dt o d)) s

/-- R474, R484: an ACTIVE lane waits at STAGE3 with its coefficients held; a lane in bring-up goes back to
stage 1 without using a retry. -/
def signalLost (side lane : Nat) (o : Otp) (d : Dev) : Dev :=
  let k := lk side lane
  if !laneKeyOk o side lane then d
  else
    let d := lineLockGone k (setLane k { laneOf d k with signal := false, chkLocked := false } d)
    let l := laneOf d k
    if l.state = 6 then
      lanePortRefresh k (setLane k { l with state := 3, waiting := true, held := true, retries := 0, trial := none } d)
    else if decide (2 ≤ l.state) && decide (l.state ≤ 5) && !l.waiting then restart k 1 0 d
    else d

def execSignalDetectLost (side lane : Nat) (s : State) : Host.Outcome State Fault Refusal :=
  run (fun o d => pathsRefresh (signalLost side lane o d)) s

/-- R474: a waiting lane takes up stage 3. -/
def signalReturn (side lane : Nat) (o : Otp) (d : Dev) : Dev :=
  let k := lk side lane
  if !laneKeyOk o side lane then d
  else
    let d := setLane k { laneOf d k with signal := true } d
    if (laneOf d k).waiting then restart k 3 0 d else d

def execSignalDetectReturn (side lane : Nat) (s : State) : Host.Outcome State Fault Refusal :=
  run (fun o d => pathsRefresh (signalReturn side lane o d)) s

/-- R474, R484: a lane of stage 4 or above resumes at stage 3 with its coefficients held. LOL follows on a
line-mode lane (R216). -/
def lockLost (side lane : Nat) (o : Otp) (d : Dev) : Dev :=
  let k := lk side lane
  if !laneKeyOk o side lane then d
  else
    let l := laneOf d k
    let d := if decide (4 ≤ l.state) && decide (l.state ≤ 6) then
        restart k 3 0 (setLane k { l with held := true } d)
      else d
    declareLol k (lineLockGone k d)

def execLaneLockLost (side lane : Nat) (s : State) : Host.Outcome State Fault Refusal :=
  run (fun o d => pathsRefresh (lockLost side lane o d)) s

/-- R477: at a tick boundary a step is tried behind the FoM of the tick that ends; at the next one a fall of more than
0.1 dB reverts it. DEDUCED (log 70). -/
def adaptStep (side lane fom : Nat) (o : Otp) (d : Dev) : Dev :=
  let k := lk side lane
  let l := laneOf d k
  if !(laneKeyOk o side lane && l.state == 6 && !l.frozen) then d
  else match l.trial with
    | none =>
      let c := draw 64 d
      setLane k { l with fom := fom, trial := some ⟨fom, d.sys.ticks, l.coeffs⟩, coeffs := c.1 } c.2
    | some t =>
      if d.sys.ticks ≤ t.tick then d
      else if fom + 1 < t.fom then
        setLane k { l with fom := fom, trial := none, coeffs := t.coeffs, reverts := satInc 16 l.reverts } d
      else setLane k { l with fom := fom, trial := none } d

def execAdaptStep (side lane fom : Nat) (s : State) : Host.Outcome State Fault Refusal :=
  run (adaptStep side lane fom) s

/-! Commands (R485 to R491). -/

/-- Side and number of a port word, and the check of its reserved bits and range. -/
def pwKey (w : Word) : Nat := lk (fld w 31 31) (fld w 21 16)
def pwOk (o : Otp) (w : Word) (extra : Word) : Bool :=
  (w &&& ~~~(0x803F0000#32 ||| extra)) == 0 && decide (fld w 21 16 < lanes o)

/-- Side and number of a lane word. -/
def lwKey (w : Word) : Nat := lk (fld w 31 31) (fld w 5 0)
def lwOk (o : Otp) (w : Word) (extra : Word) : Bool :=
  (w &&& ~~~(0x8000003F#32 ||| extra)) == 0 && decide (fld w 5 0 < lanes o)

/-- The port of key k is bound, in line mode, in a Sheaf or in a path pair (R479, R481, R484). -/
def portHeld (d : Dev) (k : Nat) : Bool :=
  if k < 64 then
    lineBound d k || inLineMode d k || pathUsesLine d k
  else clientBound d (k - 64)

/-- Word 1 of PORT_CONFIG against R21, R22, R465. -/
def portShapeOk (o : Otp) (w0 w1 : Word) : Bool :=
  let typ := fld w1 31 30
  let width := fld w1 27 24
  let fec := fld w1 21 20
  let cbr := bit w1 16
  let port := fld w0 21 16
  (w1 &&& 0x30CEFFFC#32) == 0 && [1, 2, 4, 8].contains width && port % width == 0 && decide (port + width ≤ lanes o)
    && !(typ == 3 && width == 8) && !(cbr && !bit w0 31)
    && (if cbr then fec == 0 else if typ = 3 then fec == 0 || fec == 2 else fec == 1)

/-- Any lane of the run of keys belongs to a configured port. -/
def lanesTaken (d : Dev) (k width : Nat) : Bool := (List.range width).any (fun i => (portOfLane d (k + i)).isSome)

def portConfig (w0 w1 : Word) (d : Dev) : Dev :=
  let k := pwKey w0
  let width := fld w1 27 24
  let p : Port := ⟨fld w1 31 30, width, fld w1 21 20, bit w1 16, fld w1 1 0, false⟩
  let d := { d with ln := { d.ln with ports := tset d.ln.ports k p } }
  if d.ln.jtagDrive then d
  else (List.range width).foldl (fun d i => enterStage (k + i) 1 0 d) d

def cmdPortConfig : Cmd where
  code := 0x0200
  modes := runModes
  lenOk := lenIs 2
  bad := fun o _ r => firstBad [(0, pwOk o (rw r 0) 0), (1, portShapeOk o (rw r 0) (rw r 1))]
  busy := fun _ d r => lanesTaken d (pwKey (rw r 0)) (rf r 1 27 24)
  act := fun _ d r => (portConfig (rw r 0) (rw r 1) d, stOk, [])

def execPortConfig (r : NcsReq) (s : State) : Host.Outcome State Fault Refusal := run (command cmdPortConfig r) s

/-- A lane goes OFF, keeping what is counted since the start. -/
def laneOff (k : Nat) (d : Dev) : Dev :=
  let l := laneOf d k
  setLane k { Lane.init with entries := l.entries, taps := l.taps, frozen := l.frozen, signal := l.signal } d

/-- R486, R492: the lanes go OFF; a port that was up is reported down. -/
def portDelete (k : Nat) (d : Dev) : Dev :=
  match portOf d k with
  | none => d
  | some p =>
    let d := (portLanes k p).foldl (fun d l => laneOff l d)
      { d with ln := { d.ln with ports := tdel d.ln.ports k } }
    if p.up then tickEvent ⟨0, 0x0280, k, wd (k / 64 * 2 ^ 31 + k % 64 * 2 ^ 16), wd (k % 64)⟩ d else d

def cmdPortDelete : Cmd where
  code := 0x0201
  modes := runModes
  lenOk := lenIs 1
  bad := fun o d r => firstBad [(0, pwOk o (rw r 0) 0 && (portOf d (pwKey (rw r 0))).isSome)]
  busy := fun _ d r => portHeld d (pwKey (rw r 0))
  act := fun _ d r => (portDelete (pwKey (rw r 0)) d, stOk, [])

def execPortDelete (r : NcsReq) (s : State) : Host.Outcome State Fault Refusal := run (command cmdPortDelete r) s

/-- The six words of R487. -/
def laneWords (d : Dev) (k : Nat) : List Word :=
  let l := laneOf d k
  let port := portOfLane d k
  let p := port.bind (portOf d)
  [wd (l.state * 2 ^ 28 + flag ((p.map (·.up)).getD false) 27 + ((p.map (·.profile)).getD 0) * 2 ^ 24
     + ((port.map (· % 64)).getD 0x3F) * 2 ^ 16 + l.retries % 256 * 2 ^ 8 + k % 64),
   wd (l.fomLow % 1024 * 2 ^ 16 + l.fom % 1024), wd l.corrected, wd l.uncorrectable, l.taps,
   wd (l.entries * 2 ^ 16 + l.revertsLast)]

def cmdLaneStatus : Cmd where
  code := 0x0202
  smb := true
  lenOk := lenIs 1
  bad := fun o _ r => firstBad [(0, lwOk o (rw r 0) 0)]
  act := fun _ d r => (d, stOk, laneWords d (lwKey (rw r 0)))

def execLaneStatus (r : NcsReq) (s : State) : Host.Outcome State Fault Refusal := run (command cmdLaneStatus r) s

/-- R480: restart at a stage; a line-mode lane loses its locks. -/
def retrain (k stage : Nat) (d : Dev) : Dev := pathsRefresh (declareLol k (lineLockGone k (restart k stage 0 d)))

def cmdLaneRetrain : Cmd where
  code := 0x0203
  modes := runModes
  lenOk := lenIs 1
  bad := fun o d r => firstBad [(0, lwOk o (rw r 0) 0x300 && decide (rf r 0 9 8 ≠ 0)
    && (portOfLane d (lwKey (rw r 0))).isSome)]
  busy := fun _ d r => [7, 8].contains (laneOf d (lwKey (rw r 0))).state
  act := fun _ d r => (retrain (lwKey (rw r 0)) (rf r 0 9 8) d, stOk, [])

def execLaneRetrain (r : NcsReq) (s : State) : Host.Outcome State Fault Refusal := run (command cmdLaneRetrain r) s

/-- R479. -/
def portFallow (k : Nat) (enter : Bool) (d : Dev) : Dev :=
  match portOf d k with
  | none => d
  | some p =>
    portRefresh k ((portLanes k p).foldl (fun d l =>
      if enter then
        setLane l { laneOf d l with state := 7, held := true, lock := false, retries := 0, waiting := false, trial := none } d
      else if (laneOf d l).state = 7 then enterStage l 3 0 d else d) d)

def cmdPortFallow : Cmd where
  code := 0x0204
  modes := runModes
  lenOk := lenIs 1
  bad := fun o d r => firstBad [(0, pwOk o (rw r 0) 1 && (portOf d (pwKey (rw r 0))).isSome)]
  busy := fun _ d r => portHeld d (pwKey (rw r 0))
  act := fun _ d r => (portFallow (pwKey (rw r 0)) (bit (rw r 0) 0) d, stOk, [])

def execPortFallow (r : NcsReq) (s : State) : Host.Outcome State Fault Refusal := run (command cmdPortFallow r) s

/-- A lane's type, where it belongs to a port. -/
def typeOfLane (d : Dev) (k : Nat) : Option Nat := ((portOfLane d k).bind (portOf d)).map (·.typ)

/-- The fields of LANE_TEST_SET (R482, R489). -/
def laneTestOk (o : Otp) (d : Dev) (w : Word) : Bool :=
  lwOk o w 0x77300000 && decide (fld w 30 28 ≤ 2) && decide (fld w 26 24 ≤ 2) && decide (fld w 21 20 ≤ 2)
    && !((fld w 30 28 == 2 || fld w 26 24 == 2) && typeOfLane d (lwKey w) == some 3)
    && !(fld w 21 20 == 2 && fld w 30 28 != 0)

/-- R481: enter TEST with the features named, or leave it. -/
def laneTestSet (w : Word) (d : Dev) : Dev :=
  let k := lwKey w
  let l := laneOf d k
  let g := fld w 30 28
  let c := fld w 26 24
  let lp := fld w 21 20
  let l := { l with gen := g, chk := c, loop := lp, chkLocked := l.chkLocked && c == l.chk }
  if g = 0 && c = 0 && lp = 0 then
    if l.state ≠ 8 then setLane k l d
    else if (portOfLane d k).isSome then restart k 3 0 (setLane k l d)
    else setLane k { l with state := 0 } d
  else lanePortRefresh k (setLane k { l with state := 8, lock := false, retries := 0, waiting := false, trial := none } d)

def cmdLaneTestSet : Cmd where
  code := 0x0205
  modes := runModes
  lenOk := lenIs 1
  bad := fun o d r => firstBad [(0, laneTestOk o d (rw r 0))]
  busy := fun _ d r => match portOfLane d (lwKey (rw r 0)) with | some p => portHeld d p | none => false
  act := fun _ d r => (laneTestSet (rw r 0) d, stOk, [])

def execLaneTestSet (r : NcsReq) (s : State) : Host.Outcome State Fault Refusal := run (command cmdLaneTestSet r) s

/-- The five words of R489. -/
def laneTestWords (l : Lane) : List Word :=
  wd (flag l.chkLocked 31 + flag l.lockLost 30 + l.chk) :: (two l.bitErrors ++ two l.bitsChecked)

def cmdLaneTestGet : Cmd where
  code := 0x0206
  lenOk := lenIs 1
  bad := fun o _ r => firstBad [(0, lwOk o (rw r 0) 0x40000000)]
  act := fun _ d r =>
    let k := lwKey (rw r 0)
    let l := laneOf d k
    let l' := { l with lockLost := false }
    let l' := if bit (rw r 0) 30 then { l' with bitErrors := 0, bitsChecked := 0 } else l'
    (setLane k l' d, stOk, laneTestWords l)

def execLaneTestGet (r : NcsReq) (s : State) : Host.Outcome State Fault Refusal := run (command cmdLaneTestGet r) s

/-- A stage word keeps R471: stage n from 1 to 6. -/
def stageWordOk (n : Nat) (w : Word) : Bool :=
  if n = 6 then w == 0x80000000#32
  else decide (fld w 30 28 ≤ 5) && decide (1 ≤ fld w 19 0) && decide (fld w 19 0 ≤ 1000000)
    && (n == 2 || fld w 23 20 == 0) && (n == 2 || n == 5 || bit w 31)

def cmdLaneSeqWrite : Cmd where
  code := 0x0210
  expert := true
  modes := runModes
  lenOk := lenIs 7
  bad := fun _ _ r => firstBad
    ((0, rf r 0 31 2 == 0) :: (List.range 6).map (fun i => (i + 1, stageWordOk (i + 1) (rw r (i + 1)))))
  act := fun _ d r =>
    let ws := (List.range 6).map (fun i => rw r (i + 1))
    ({ d with ln := { d.ln with profiles := tset d.ln.profiles (rf r 0 1 0) ws } }, stOk, [])

def execLaneSeqWrite (r : NcsReq) (s : State) : Host.Outcome State Fault Refusal := run (command cmdLaneSeqWrite r) s

def cmdLaneSeqRead : Cmd where
  code := 0x0211
  expert := true
  lenOk := lenIs 1
  bad := fun _ _ r => firstBad [(0, rf r 0 31 2 == 0)]
  act := fun _ d r => (d, stOk, seqProfile d (rf r 0 1 0))

def execLaneSeqRead (r : NcsReq) (s : State) : Host.Outcome State Fault Refusal := run (command cmdLaneSeqRead r) s

/-- The four taps of R478. -/
def tapsOk (w : Word) : Bool :=
  let a := toSigned 8 (fld w 31 24)
  let b := toSigned 8 (fld w 23 16)
  let m := toSigned 8 (fld w 15 8)
  let p := toSigned 8 (fld w 7 0)
  decide (-8 ≤ a) && decide (a ≤ 0) && decide (-16 ≤ b) && decide (b ≤ 0) && decide (24 ≤ m) && decide (m ≤ 63)
    && decide (-16 ≤ p) && decide (p ≤ 0) && decide (m - a - b - p ≤ 63)

def cmdLaneTxeqSet : Cmd where
  code := 0x0212
  expert := true
  modes := runModes
  lenOk := lenIs 2
  bad := fun o _ r => firstBad [(0, lwOk o (rw r 0) 0), (1, tapsOk (rw r 1))]
  busy := fun _ d r =>
    (portOfLane d (lwKey (rw r 0))).isSome && !bit ((laneProfile d (lwKey (rw r 0))).getD 1 0) 23
  act := fun _ d r =>
    (setLane (lwKey (rw r 0)) { laneOf d (lwKey (rw r 0)) with taps := rw r 1 } d, stOk, [])

def execLaneTxeqSet (r : NcsReq) (s : State) : Host.Outcome State Fault Refusal := run (command cmdLaneTxeqSet r) s

def cmdLaneAdaptSet : Cmd where
  code := 0x0213
  expert := true
  modes := runModes
  lenOk := lenIs 1
  bad := fun o _ r => firstBad [(0, lwOk o (rw r 0) 0x100)]
  act := fun _ d r =>
    let k := lwKey (rw r 0)
    (setLane k { laneOf d k with frozen := bit (rw r 0) 8, trial := none } d, stOk, [])

def execLaneAdaptSet (r : NcsReq) (s : State) : Host.Outcome State Fault Refusal := run (command cmdLaneAdaptSet r) s

/-- A JTAG instruction that drives outputs puts every lane into TEST (R483). PRESUMED (log 45). -/
def allLanesTest (o : Otp) (d : Dev) : Dev :=
  let d := { d with ln := { d.ln with jtagDrive := true } }
  ((List.range (lanes o)) ++ (List.range (lanes o)).map (· + 64)).foldl (fun d k =>
    let d := lineLockGone k (setLane k { laneOf d k with state := 8, retries := 0, waiting := false, trial := none } d)
    lanePortRefresh k d) d

/-- The TAP controller resets: lanes of configured ports restart at stage 1 (R483); the others go OFF.
PRESUMED (log 45). -/
def tapReset (o : Otp) (d : Dev) : Dev :=
  if !d.ln.jtagDrive then d
  else
    let d := { d with ln := { d.ln with jtagDrive := false } }
    ((List.range (lanes o)) ++ (List.range (lanes o)).map (· + 64)).foldl (fun d k =>
      if (portOfLane d k).isSome then restart k 1 0 d else setLane k { laneOf d k with state := 0 } d) d

end Sys2Proof.Machine
end

