-- ==== Sys2Proof/Machine/Esurdel.lean ====
section
/-!
DEFINITION. The Esurdel frame (chapter 05): frame period, header, protection, tributary slots, containers.
-/
namespace Sys2Proof.Machine

/-! Frame period and slot counts (R160, R181, R185). -/

/-- Frame period of a lane type in 1/25 TU cycles (R160). -/
def periodTu (typ : Nat) : Nat := 14336 * 2 ^ typ

/-- N and F of a CBR client of R kb/s (R181): B = R × T / 8 = R × 1,024 × 2^type / 25,000,000 bytes; round takes a half
up. A B that passes a multiple of 1,016 by less than half a byte gives F = 1,016, which the record takes as it comes out
(R201, R202). DESIGN CHOICE (log 64). -/
def cbrSlots (typ rate : Nat) : Nat × Nat :=
  let num := rate * 1024 * 2 ^ typ
  let n := (num + 25000000 * 1016 - 1) / (25000000 * 1016)
  (n, n * 1016 - (2 * num + 25000000) / 50000000)

/-- Blocks of a container of N slots (R184). -/
def ethBlocks (n : Nat) : Nat := n * 8128 / 257

/-- N of an Ethernet client of R kb/s (R185): the smallest that carries the rate, at most 512. -/
def ethSlots (typ rate : Nat) : Option Nat :=
  firstNat 1 513 (fun n => decide (rate * 10002 * 8192 * 2 ^ typ ≤ ethBlocks n * 25 * 256 * 1000000 * 10000))

/-! The header (R163, R164). -/

/-- The header of a frame; `byte6` holds KEY_IDX and FTYPE. -/
def headerBytes (fc keyIdx ftype claim ident : Nat) (kch tmc : Bytes) (bi mnt : Nat) : Bytes :=
  let h := beBytes 6 fc ++ beBytes 1 (keyIdx * 64 + ftype * 4) ++ beBytes 1 1 ++ beBytes 2 claim ++ beBytes 2 ident ++ kch ++ tmc
    ++ beBytes 2 bi ++ beBytes 1 mnt ++ zeros 7
  h ++ beBytes 2 (crc16 h)

def hdrFc (f : Bytes) : Nat := beAt f 0 6
def hdrKey (f : Bytes) : Nat := beAt f 6 1 / 64
def hdrType (f : Bytes) : Nat := beAt f 6 1 / 4 % 16
def hdrClaim (f : Bytes) : Nat := beAt f 8 2
def hdrSheaf (f : Bytes) : Nat := beAt f 10 2 / 64
def hdrMember (f : Bytes) : Nat := beAt f 10 2 % 64
def hdrKch (f : Bytes) : Bytes := slice f 12 4
def hdrTmc (f : Bytes) : Bytes := slice f 16 4
def hdrMnt (f : Bytes) : Nat := beAt f 22 1

/-- CRC fits (R164). -/
def hdrCrcOk (f : Bytes) : Bool := crc16 (f.take 30) == beAt f 30 2

/-- CRC and FMT fit (R191). -/
def hdrFits (f : Bytes) : Bool := hdrCrcOk f && beAt f 7 1 == 1

/-! Protection (R167, R168, R171, R243). -/

/-- The IV of R168. -/
def lmIv (x : SaRec) (epoch fc : Nat) : Bytes := x.salt ++ beBytes 2 epoch ++ beBytes 6 fc

/-- The ICV of a frame whose first 8,176 bytes stand, under the context's hash subkey: GCM over the header and the
ciphertext, or GMAC over all of it under K_A or in test mode. -/
def lmTag (h : Block) (x : SaRec) (test : Bool) (iv body : Bytes) : Bytes :=
  if x.suite = 0x11 then gcmTagH h x.ka iv body []
  else if test then gcmTagH h x.key iv body []
  else gcmTagH h x.key iv (body.take 32) (body.drop 32)

/-- A whole TRAFFIC, AIS or TEST frame from its header and its payload in clear. -/
def lmSeal (h : Block) (x : SaRec) (test : Bool) (epoch fc : Nat) (header payload : Bytes) : Bytes :=
  let iv := lmIv x epoch fc
  let body := header ++ (if test then payload else gcmSeal x.key iv header payload)
  body ++ lmTag h x test iv body

/-- The ICV that a received frame should have. -/
def lmRxTag (h : Block) (x : SaRec) (test : Bool) (epoch : Nat) (f : Bytes) : Bytes :=
  lmTag h x test (lmIv x epoch (hdrFc f)) (f.take 8176)

/-- The payload of a received frame in clear. -/
def lmOpen (x : SaRec) (test : Bool) (epoch : Nat) (f : Bytes) : Bytes :=
  if test then slice f 32 8144 else gcmOpen x.key (lmIv x epoch (hdrFc f)) (f.take 32) (slice f 32 8144)

/-! Slots (R176 to R178). -/

/-- Data bytes of a slot under a justification code. -/
def slotData (code : Nat) : Nat := if code = 1 then 1017 else if code = 2 then 1015 else 1016

/-- A slot: JC with the code three times, NJO, PJO and the rest; a byte that carries no data is 0. -/
def slotBytes (code : Nat) (data : Bytes) : Bytes :=
  beBytes 1 (code * 84) ++ (if code = 1 then data else if code = 2 then zeros 2 ++ data else zeros 1 ++ data)

/-- Cut a container into the slots of one code. -/
def cutSlots (code : Nat) : Nat → Bytes → List Bytes
  | 0, _ => []
  | n + 1, b => slotBytes code (b.take (slotData code)) :: cutSlots code n (b.drop (slotData code))

/-- The vote of R178 over a JC byte: the code used, a corrected byte, an error. -/
def jcVote (jc : Nat) : Nat × Bool × Bool :=
  let a := jc / 64 % 4
  let b := jc / 16 % 4
  let c := jc / 4 % 4
  let m := if a = b || a = c then some a else if b = c then some b else none
  match m with
  | none => (0, false, true)
  | some 3 => (0, false, true)
  | some v => (v, !(a == b && b == c), false)

/-- The data bytes of a received slot under a code. -/
def slotPayload (code : Nat) (s : Bytes) : Bytes := if code = 1 then s.drop 1 else if code = 2 then s.drop 3 else s.drop 2

/-- Slot s of a payload. -/
def slotAt (payload : Bytes) (s : Nat) : Bytes := slice payload (1018 * s) 1018

/-! The client PCS (R182): 66b blocks, bit 0 sent first, and their 257b groups. PRESUMED (log 65): the layout of both is
that of IEEE 802.3. -/

/-- A block that is not a data block. PRESUMED (log 65). -/
def isControl (b : BitVec 66) : Bool := !(!b.getLsbD 0 && b.getLsbD 1)

/-- Block type field of a control block. PRESUMED (log 65). -/
def blockType (b : BitVec 66) : Nat := b.toNat / 4 % 256

/-- The block of eight Idle characters. PRESUMED (log 65). -/
def idleBlock : BitVec 66 := 0x79#66

/-- A client frame is in progress behind a block, given whether one was before it: a Start opens one, any other control
block ends it. PRESUMED (log 65). -/
def frameOpen (was : Bool) (b : BitVec 66) : Bool :=
  if isControl b then [0x33, 0x66, 0x78].contains (blockType b) else was

/-- The high nibble of the block type field, which its low nibble determines. PRESUMED (log 65). -/
def typeHigh (low : Nat) : Nat := [0, 0xE, 0xD, 0x3, 0xB, 0x5, 0x6, 0x8, 0x7, 0x9, 0xA, 0x4, 0xC, 0x2, 0x1, 0xF].getD low 0

/-- Bits of a number, the least significant first; and back. -/
def bitsOf (n v : Nat) : List Bool := (List.range n).map v.testBit
def ofBits (bs : List Bool) : Nat := bs.foldr (fun b a => b1 b + 2 * a) 0

/-- Four 66b blocks as one 257b block, its bits in the order sent: the header bit is 1 before four data blocks; else it
is 0, four mask bits mark the control blocks, and the first of these loses the high nibble of its type. DEDUCED (log 30):
the mask marks control blocks, so that no group has the pattern of R183. -/
def transcode (g : List (BitVec 66)) : List Bool :=
  let pay := g.map (fun b => bitsOf 64 (b.toNat / 4))
  if g.any isControl then
    let c := (g.map isControl).idxOf true
    false :: g.map isControl ++ (pay.take c).flatten ++ (pay.getD c []).take 4 ++ (pay.getD c []).drop 8 ++ (pay.drop (c + 1)).flatten
  else true :: pay.flatten

/-- The n payloads of 64 bits of a group. -/
def cut64 : Nat → List Bool → List Nat
  | 0, _ => []
  | n + 1, bs => ofBits (bs.take 64) :: cut64 n (bs.drop 64)

/-- The four 66b blocks of a 257b block that is not Chaff. -/
def untranscode (bs : List Bool) : List (BitVec 66) :=
  let block := fun (p : Nat × Bool) => BitVec.ofNat 66 (p.1 * 4 + if p.2 then 1 else 2)
  if bs.headD false then (cut64 4 (bs.drop 1)).map (fun v => block (v, false))
  else
    let mask := (bs.drop 1).take 4
    let c := mask.idxOf true
    let body := bs.drop 5
    let low := (body.drop (64 * c)).take 4
    let all := body.take (64 * c) ++ low ++ bitsOf 4 (typeHigh (ofBits low)) ++ body.drop (64 * c + 4)
    ((cut64 4 all).zip mask).map block

/-! Blocks (R182 to R184). -/

/-- A 257b block as a number; its first bit is the most significant. -/
def block257 (bs : List Bool) : BitVec 257 := BitVec.ofNat 257 (bs.foldl (fun a b => 2 * a + b1 b) 0)

/-- The bits of a 257b block in the order sent. -/
def bits257 (b : BitVec 257) : List Bool := (bitsOf 257 b.toNat).reverse

/-- Up to k groups of four of the blocks that wait, and the blocks that go on waiting. -/
def takeGroups : Nat → List (BitVec 66) → List (BitVec 257) × List (BitVec 66)
  | k + 1, a :: b :: c :: e :: t =>
    let r := takeGroups k t
    (block257 (transcode [a, b, c, e]) :: r.1, r.2)
  | _, q => ([], q)

/-- Pack blocks from the first bit of a container of n slots; bit 256 of a block is its header bit, sent first.
DEDUCED (log 30). -/
def packBlocks (n : Nat) (bs : List (BitVec 257)) : Bytes :=
  beBytes (n * 1016) (bs.foldl (fun a b => a * 2 ^ 257 + b.toNat) 0 * 2 ^ (n * 8128 - 257 * bs.length))

/-- The blocks of a received container of n slots. DEDUCED (log 30). -/
def unpackBlocks (n : Nat) (b : Bytes) : List (BitVec 257) :=
  let v := beNat b
  (List.range (ethBlocks n)).map (fun i => BitVec.ofNat 257 (v / 2 ^ (n * 8128 - 257 * (i + 1))))

/-- A Chaff block has header bit 0 and block-type mask 0 (R183). -/
def isChaff (b : BitVec 257) : Bool := b.toNat / 2 ^ 252 == 0

/-- n Chaff blocks, their other bits from the DRBG (R183). -/
def chaffBlocks (n : Nat) (d : Dev) : List (BitVec 257) × Dev :=
  let x := lineBytes (32 * n) d
  ((List.range n).map (fun i => BitVec.ofNat 257 (beAt x.1 (32 * i) 32 % 2 ^ 252)), x.2)

/-- n slots that carry Chaff blocks alone. -/
def chaffContainer (n : Nat) (d : Dev) : List Bytes × Dev :=
  let f := chaffBlocks (ethBlocks n) d
  (cutSlots 0 n (packBlocks n f.1), f.2)

/-- 66b blocks of a frame period at an Ethernet client of R kb/s: R × T / 64 (R182). -/
def egressBlocks (typ rate : Nat) : Nat := rate * 512 * 2 ^ typ / 100000000

/-- The last place among blocks at which no client frame is in progress, given whether one is before the first. -/
def lastGap : Bool → Nat → List (BitVec 66) → Option Nat → Option Nat
  | was, i, [], g => if was then g else some i
  | was, i, b :: t, g => lastGap (frameOpen was b) (i + 1) t (if was then g else some i)

/-- What an Ethernet egress sends over a frame period of n blocks, and what goes on waiting: idle blocks fill it up at
the last place outside a client frame; without such a place nothing is filled up. DESIGN CHOICE (log 66). -/
def fillIdle (n : Nat) (was : Bool) (q : List (BitVec 66)) : List (BitVec 66) × List (BitVec 66) :=
  if n ≤ q.length then (q.take n, q.drop n)
  else match lastGap was 0 q none with
    | some i => (q.take i ++ List.replicate (n - q.length) idleBlock ++ q.drop i, [])
    | none => (q, [])

end Sys2Proof.Machine
end

