-- ==== Sys2Proof/Machine/LineTx.lean ====
section
/-!
DEFINITION. The transmit side of line mode (chapter 05): the mapper, the frames of one frame period.
-/
namespace Sys2Proof.Machine

/-! The mapper (R179 to R186). -/

/-- The centre of a CBR client's FIFO as the frame period ends (the model's choice): one container and 2N bytes. The
FIFO holds twice that. DEDUCED (log 25). -/
def fifoCentre (n f : Nat) : Nat := n * 1016 - f + 2 * n

/-- The FIFO of a client that comes into force starts at its centre: 2N bytes wait before the first period's bytes.
DEDUCED (log 25). -/
def primeFifo (c : Nat) (r : List Word) (d : Dev) : Dev :=
  if descValid r && descCbr r then
    let x := drawBytes (2 * descN r) d
    setClient c { lmClient x.2 c with fifo := x.1 } x.2
  else d

/-- A client's input has failed (R186): its port reports it, or State shows a lane of the port without signal or without
its locks. -/
def clientFails (d : Dev) (i : ClientIn) : Bool :=
  i.failed || (match portOf d (lk 1 i.port) with
    | some p => (portLanes (lk 1 i.port) p).any (fun k => !((laneOf d k).signal && (laneOf d k).lock))
    | none => true)

/-- The slots of a CBR client's container (R180, R181, R186). DEDUCED (log 25). -/
def cbrContainer (r : List Word) (i : ClientIn) (d : Dev) : List Bytes × Dev :=
  let n := descN r
  let x := lmClient d i.port
  if clientFails d i then (cutSlots 0 n (zeros (n * 1016)), setClient i.port { x with failed := true } d)
  else
    let centre := fifoCentre n (descF r)
    let all := x.fifo ++ i.bytes
    let fill := all.length
    let spill := decide (2 * centre < fill)
    let code := if centre + n ≤ fill then 1 else if fill + n ≤ centre then 2 else 0
    let want := n * slotData code - descF r
    let data := (all.take (2 * centre)).take want
    let g := drawBytes (want - data.length) d
    let errs := b1 spill + b1 (decide (data.length < want))
    let x := { x with failed := false, fifo := (all.take (2 * centre)).drop want, pm := pmAdd x.pm 4 errs }
    (cutSlots code n (data ++ g.1 ++ zeros (descF r)), setClient i.port x g.2)

/-- The slots of an Ethernet client's container, and how many client blocks stand in it before the Chaff: idle blocks go,
groups of four that are whole are transcoded (R182, R184, R186). DEDUCED (log 30). -/
def ethContainer (r : List Word) (i : ClientIn) (d : Dev) : (List Bytes × Nat) × Dev :=
  let n := descN r
  let x := lmClient d i.port
  let bad := clientFails d i
  let mine := takeGroups (ethBlocks n) (if bad then [] else x.blocks ++ i.blocks.filter (· != idleBlock))
  let fill := chaffBlocks (ethBlocks n - mine.1.length) d
  ((cutSlots 0 n (packBlocks n (mine.1 ++ fill.1)), mine.1.length), setClient i.port { x with failed := bad, blocks := mine.2 } fill.2)

/-- What the clients delivered, where a port is not listed: nothing. -/
def inputOf (ins : List ClientIn) (c : Nat) : ClientIn := (ins.find? (fun i => i.port == c)).getD ⟨c, [], [], false⟩

/-- The clients in force on the lanes of a type. -/
def typeClients (typ : Nat) (d : Dev) : List (Nat × List Word) :=
  d.lm.txNow.filter (fun c => descValid c.2 && (match tget d.lm.sheaves (descSheaf c.2) with
    | some s => s.members.any (fun m => laneType d m == typ)
    | none => false))

/-- A client's slots go into a table of slot contents by Sheaf × 512 + sheaf slot. -/
def putSlots (r : List Word) (slots : List Bytes) (t : Table Bytes) : Table Bytes :=
  (List.range (descN r)).foldl (fun t k => tset t (descSheaf r * 512 + descFirst r + k) (slots.getD k [])) t

/-- The Sheaf whose containers a Sheaf carries: path B of a pair sends those of Sheaf A from the pair's first
superframe on (R377, R400). -/
def contentSheaf (d : Dev) (i : Nat) : Nat := match pathOfSheaf d i with | some (_, p, b) => if b && !p.bSends then i else p.a.carrier | none => i

/-- What each lane sends in this frame period: under an SA, from a slice, with a frame type; none: UNKEYED. -/
abbrev SendPlan := List (Nat × Option (Nat × SaRec × Nat × Nat))

/-- A sheaf slot goes out in an AIS frame, or in a frame with client data, on some lane that carries it. -/
def slotGoes (d : Dev) (plan : SendPlan) (ais : Bool) (i s : Nat) : Bool :=
  d.lm.sheaves.any (fun x => contentSheaf d x.1 == i && plan.any (fun p =>
    x.2.members[s / 8]? == some p.1 && (match p.2 with | some (_, _, _, t) => (t == 2) == ais | none => false)))

/-- Chaff blocks of a client that go out: those behind its first `mine` blocks in frames with client data, and all of a
container in AIS frames; a CBR client's slots carry Chaff in AIS frames only (R165, R225). DEDUCED (log 30). -/
def chaffSent (d : Dev) (plan : SendPlan) (r : List Word) (mine : Nat) : Nat :=
  let goes := fun (ais : Bool) (s : Nat) => slotGoes d plan ais (descSheaf r) (descFirst r + s)
  if descCbr r then ethBlocks 1 * ((List.range (descN r)).filter (goes true)).length
  else
    let whole := fun (ais : Bool) (k : Nat) => goes ais (257 * k / 8128) && goes ais ((257 * k + 256) / 8128)
    ((List.range (ethBlocks (descN r))).filter (fun k => (decide (mine ≤ k) && whole false k) || whole true k)).length

/-- The containers of one frame period, by slot (R177, R182). -/
def mapClients (typ : Nat) (ins : List ClientIn) (plan : SendPlan) (d : Dev) : Table Bytes × Dev :=
  (typeClients typ d).foldl (fun (a : Table Bytes × Dev) c =>
    let r : (List Bytes × Nat) × Dev :=
      if descCbr c.2 then let r := cbrContainer c.2 (inputOf ins c.1) a.2; ((r.1, 0), r.2) else ethContainer c.2 (inputOf ins c.1) a.2
    let x := lmClient r.2 c.1
    (putSlots c.2 r.1.1 a.1, setClient c.1 { x with pm := pmAdd x.pm 6 (chaffSent r.2 plan c.2 r.1.2) } r.2)) ([], d)

/-- What AIS frames carry in an Ethernet client's slots: containers of Chaff blocks alone (R165, R183). -/
def chaffSlots (typ : Nat) (d : Dev) : Table Bytes × Dev :=
  ((typeClients typ d).filter (fun c => !descCbr c.2)).foldl (fun (a : Table Bytes × Dev) c =>
    let f := chaffContainer (descN c.2) a.2
    (putSlots c.2 f.1 a.1, f.2)) ([], d)

/-- The payload of a lane; what no descriptor assigns is filled from the DRBG (R178). In an AIS frame every slot holds
Chaff blocks: a slot that no Ethernet client has is filled like a container of one slot (R165). DEDUCED (log 26). -/
def lanePayload (ais : Bool) (slots : Table Bytes) (lane : Nat) (d : Dev) : Bytes × Dev :=
  let at' := (sheafOf d lane).map (fun s => contentSheaf d s.1 * 512 + 8 * s.2)
  (List.range 8).foldl (fun (a : Bytes × Dev) s =>
    match at'.bind (fun k => tget slots (k + s)) with
    | some b => (a.1 ++ b, a.2)
    | none =>
      if ais then let g := chaffContainer 1 a.2; (a.1 ++ g.1.flatten, g.2)
      else let g := lineBytes 1018 a.2; (a.1 ++ g.1, g.2)) ([], d)

/-! The header bytes (R163, R173, R174, R223, R292, R382). -/

/-- The claim that this end sends on a path (R382). -/
def sentClaim (e : PathEnd) : Nat := (if e.lockout then 0 else 0xF000) + e.txPrio

def laneClaim (d : Dev) (lane : Nat) : Nat :=
  match (sheafOf d lane).bind (fun s => pathOfSheaf d s.1) with
  | some (_, p, b) => sentClaim (p.pathEnd b)
  | none => 0

def laneIdent (d : Dev) (lane : Nat) : Nat := match sheafOf d lane with | some (s, m) => s * 64 + m | none => 0

/-- The client-signal-fail map of a lane: the clients mapped to its slots whose input has failed. -/
def csfMap (d : Dev) (lane : Nat) : Nat :=
  match sheafOf d lane with
  | none => 0
  | some (s, m) =>
    let bad := d.lm.txNow.filter (fun c => descValid c.2 && descSheaf c.2 == contentSheaf d s && (lmClient d c.1).failed)
    ((List.range 8).map (fun k => flag (bad.any (fun c =>
      decide (descFirst c.2 ≤ 8 * m + k) && decide (8 * m + k < descFirst c.2 + descN c.2))) k)).sum

def mntByte (d : Dev) (lane epoch p : Nat) : Nat :=
  if p % 128 = 0 then epoch / 256 % 256 else if p % 128 = 1 then epoch % 256 else if p % 128 = 2 then csfMap d lane else 0

def tmcBytes (l : LmLane) (p : Nat) : Bytes :=
  if p % 64 < 16 then slice (l.tti ++ zeros (64 - l.tti.length)) (4 * (p % 64)) 4 else zeros 4

/-- BDI, BDC and BEI of the lane (R223). -/
def biWord (l : LmLane) : Nat :=
  let c := primary (l.declared % 256)
  (flag (c != 0 || l.forceBdi) 7 + c * 8) * 256 + min l.bei 255

/-- At p mod 16 = 0 each line port of the type takes up its next key-channel cell; an idle cell is all zero (R292). -/
def nextCells (typ p : Nat) (d : Dev) : Dev :=
  if p % 16 ≠ 0 then d
  else d.lm.ports.foldl (fun d x =>
    if ((portOf d (lk 0 x.1)).map (·.typ)) = some typ then
      match tgetD d.kc.cells x.1 [] with
      | [] => { d with kc := { d.kc with cellOut := tdel d.kc.cellOut x.1 } }
      | c :: rest => { d with kc := { d.kc with
          cellOut := tset d.kc.cellOut x.1 c
          cells := if rest.isEmpty then tdel d.kc.cells x.1 else tset d.kc.cells x.1 rest } }
    else d) d

def kchBytes (d : Dev) (lane p : Nat) : Bytes :=
  match (lmPortOf d lane).bind (fun port => tget d.kc.cellOut port) with
  | some c => slice c (4 * (p % 16)) 4
  | none => zeros 4

/-- The header of a lane's frame. -/
def laneHeader (d : Dev) (lane fc epoch keyIdx ftype : Nat) : Bytes :=
  let p := fc % 256
  headerBytes fc keyIdx ftype (laneClaim d lane) (laneIdent d lane) (kchBytes d lane p) (tmcBytes (lmLane d lane) p)
    (biWord (lmLane d lane)) (mntByte d lane epoch p)

/-! One frame. -/

/-- The frame count of an SA reaches its warning or its limit (R170). -/
def lmCount (lane i : Nat) (x : SaRec) (d : Dev) : Dev :=
  let d := setSa i { x with pn := x.pn + 1 } d
  if x.pn + 1 = 2 ^ 46 then emit 0 0x0482 (wd lane) (wd i) d
  else if x.pn + 1 = 2 ^ 47 then
    let r := limitSwitch x.obj d
    let d := if r.1 then r.2 else setSa i { x with pn := x.pn + 1, exhausted := true } r.2
    emit 0 0x0482 (wd (2 ^ 31 + flag r.1 30 + lane)) (wd i) d
  else d

/-- The slice of a stream's next frame, where it starts in time: a slice that is not up, or one at a stretch of 2/16 or
more that comes too late (`skipped`), skips it (R597); so does a stream beyond its share (R312). DEDUCED (log 26). -/
def lmSlice (k lane : Nat) (skipped : Bool) (d : Dev) : Option Nat × Dev :=
  let r := if accepting d k then nextSlice k 8192 d else (none, d)
  match r.1 with
  | none => (none, r.2)
  | some n =>
    let late := skipped && decide (2 ≤ (powerOf r.2 (sliceSector n)).stretch)
    if late || !slicePowered r.2 n then (none, countLoss (sectorOf lane) 2 r.2) else (some n, r.2)

/-- An SA with the keys that its resident context holds. -/
def SaRec.under (x : SaRec) (c : Ctx) : SaRec := { x with key := c.key, ka := c.auth }

/-- The resident context under which a lane's frame enters its slice: the slice reads ahead, so it is loaded by then
(R314). One that may not be loaded, or that does not fit the frame's generation and owner page, drops the frame (R249,
R250). The 512 GHASH cycles of the frame are delivered (R239). DEDUCED (log 31). -/
def lmContext (n sa : Nat) (x : SaRec) (g : Option Glean) (o : Otp) (d : Dev) : Option Ctx × Dev :=
  let d := loadNow n sa d
  let c := (sliceOf d n).ctxs.find? (fun c => c.sa == sa)
  let owner := objOwner d x.obj
  match c.filter (fun c => c.gen == x.gen && c.owner == owner) with
  | some c => (some c, deliver n 512 (useCtx n sa 510 d))
  | none => (none, gleanFinish true g (sliceRun o n (isolate n sa ((c.map (·.owner)).getD 0) owner g d)))

/-- The Gleaner's record of an Esurdel frame, begun where it is tagged; and its end, with the sample of shadow
verification (R253, R608, R609). DESIGN CHOICE (log 58). -/
def lmTagged (gid lane dir : Nat) (d : Dev) : Option Glean × Dev := gleanStart gid 8192 (stampNow d 0 dir lane) d

/-- DESIGN CHOICE (log 58). -/
def lmGlean (g : Option Glean) (x : Sample) (o : Otp) (d : Dev) : Dev :=
  let t := takeSample o g x d
  let g1 := g.map (fun g => { g with sa := x.sa, slice := some x.slice, shadow := t.1 })
  gleanFinish false ([1, 3, 4, 5, 6, 7].foldl (fun g i => gleanStage i t.2 g) g1) t.2

/-- An UNKEYED frame: DRBG bytes for payload and ICV (R165). DEDUCED (log 26). -/
def unkeyedFrame (lane fc epoch : Nat) (d : Dev) : Bytes × Dev :=
  let g := lineBytes 8160 d
  (laneHeader d lane fc epoch 0 1 ++ g.1, g.2)

/-- The frame a keyed lane sends under the context of its encoding SA. DEDUCED (log 26). -/
def keyedFrame (lane fc epoch i n ftype : Nat) (x : SaRec) (c : Ctx) (g : Option Glean) (slots chaff : Table Bytes) (o : Otp)
    (d : Dev) : Bytes × Dev :=
  let l := lmLane d lane
  let p := lanePayload (ftype == 2) (if ftype = 2 then chaff else slots) lane d
  let head := laneHeader d lane fc epoch x.an ftype
  let f := lmSeal c.hash (x.under c) (ftype == 3) epoch fc head p.1
  let d := if ftype = 2 then setLm lane { l with aisSent := l.aisSent + 1 } p.2 else p.2
  let s : Sample := ⟨n, i, x.gen, x.owner, if ftype = 3 then 8176 else 32, head ++ p.1, f.drop 8176, 0, none, none⟩
  (f, lmGlean g s o (lmCount lane i x d))

/-- What a lane sends next: TEST in test mode; AIS while LM_MAINT_SET forces it or where the mapper could not assemble
a container of this frame; else TRAFFIC; UNKEYED where it has no usable encoding SA, no slice takes the frame or its
context is still to be fetched (R165, R171, R219, R320). DEDUCED (log 26). -/
def lanePlan (skips faults : List Nat) (a : SendPlan × Dev) (lane : Nat) : SendPlan × Dev :=
  let d := a.2
  let k := objKey 2 lane
  let l := lmLane d lane
  let ftype := if l.test then 3 else if l.forceAis || faults.contains lane then 2 else 0
  let usable := if trafficOn d then (encodingSa d k).bind (fun i => (saOf d i).bind (fun x => if x.exhausted then none else some (i, x)))
    else none
  match usable with
  | none => (a.1 ++ [(lane, none)], d)
  | some (i, x) =>
    let hit := cacheLookup i d
    if hit.1 then
      let r := lmSlice k lane (skips.contains lane) hit.2
      (a.1 ++ [(lane, r.1.map (fun n => (i, x, n, ftype)))], r.2)
    else (a.1 ++ [(lane, none)], fetchStart i hit.2)

/-- One line-mode lane sends its frame of a counter value (R165, R219); a frame that its slice drops leaves an UNKEYED
one in its place. -/
def laneFrame (fc epoch : Nat) (slots chaff : Table Bytes) (o : Otp) (d : Dev) (p : Nat × Option (Nat × SaRec × Nat × Nat)) :
    Dev :=
  let r := match p.2 with
    | none => unkeyedFrame p.1 fc epoch d
    | some (i, x, n, ftype) =>
      let g := lmTagged (128 + p.1) p.1 1 d
      match lmContext n i x g.1 o g.2 with
      | (some c, d) => keyedFrame p.1 fc epoch i n ftype x c g.1 slots chaff o d
      | (none, d) => unkeyedFrame p.1 fc epoch d
  out (.esurdel p.1 r.1) (setLm p.1 { lmLane r.2 p.1 with bei := 0 } r.2)

/-- Transmitters run: past the reset, not HALTED, not in DORMANT (R90). -/
def txRuns (d : Dev) : Bool := d.sys.phase == .up && d.sys.mode != .halted && !d.ln.jtagDrive

/-- One frame period of a lane type: every line-mode lane of the type sends one frame with the shared counter, which
then increments; its wrap advances the epoch (R161, R197). `faults` are the lanes with a container that the mapper could
not assemble because of an internal fault (R219). DEDUCED (log 25). -/
def frameTransmit (typ : Nat) (ins : List ClientIn) (skips faults : List Nat) (dt : Nat) (o : Otp) (d : Dev) : Dev :=
  let d := passTime dt d
  if !txRuns d || 4 ≤ typ then d
  else
    let fc := (tgetD d.lm.txFc typ (0, 0)).1
    let epoch := (tgetD d.lm.txFc typ (0, 0)).2
    let ls := (lmLanes d).filter (fun m => laneType d m == typ && decide (m < lanes o))
    let p := ls.foldl (lanePlan skips faults) ([], d)
    let m := if trafficOn d then mapClients typ ins p.1 p.2 else ([], p.2)
    let ais := p.1.any (fun x => match x.2 with | some (_, _, _, t) => t == 2 | none => false)
    let c := if ais then chaffSlots typ m.2 else ([], m.2)
    let d := p.1.foldl (laneFrame fc epoch m.1 c.1 o) (nextCells typ (fc % 256) c.2)
    let wrap := fc = 2 ^ 48 - 1
    let e := if wrap then (epoch + 1) % 65536 else epoch
    let d := { d with lm := { d.lm with txFc := tset d.lm.txFc typ ((fc + 1) % 2 ^ 48, e) } }
    if wrap then ls.foldl (fun d m => emit 0 0x0481 (wd (e * 2 ^ 16 + 3 * 2 ^ 8 + m)) 0 d) d else d

def execEsurdelFrameTransmit (laneType : Nat) (clients : List ClientIn) (misses : LaneSkips) (dt : Nat) (s : State) :
    Host.Outcome State Fault Refusal :=
  run (frameTransmit laneType clients misses.skips misses.faults dt) s

/-! The transmit superframe boundary (R171, R202, R203, R210). -/

/-- Row c of a table names Sheaf i. -/
def rowOf (t : Table (List Word)) (i c : Nat) : Bool :=
  match tget t c with | some r => descValid r && descSheaf r == i | none => false

/-- A Sheaf's clients, past and coming, take the records of another table; a record that names another Sheaf waits for
that Sheaf's own boundary (R202). -/
def takeRows (i : Nat) (old new : Table (List Word)) : Table (List Word) :=
  (List.range 64).foldl (fun t c =>
    if rowOf old i c || rowOf new i c then
      match tget new c with
      | some r => if descValid r && descSheaf r != i then tdel t c else tset t c r
      | none => tdel t c
    else t) old

/-- The commits of a Sheaf after one direction has swapped; the last one ends the commit. A write that came between the
two swaps is in force in one direction only, so it stays uncommitted (R203). -/
def commitSwapped (i : Nat) (c : DescCommit) (d : Dev) : Dev :=
  if c.tx.isNone && c.rx.isNone then
    { d with lm := { d.lm with
      commits := tdel d.lm.commits i, uncommitted := if c.late then d.lm.uncommitted else d.lm.uncommitted.filter (· != i) } }
  else { d with lm := { d.lm with commits := tset d.lm.commits i c } }

/-- Transmit records that change are in force: what waited for the old record goes, a CBR client that comes into force
is primed. -/
def txInForce (d0 d : Dev) : Dev :=
  let d := d0.lm.txNow.foldl (fun d c =>
    if tget d.lm.txNow c.1 = some c.2 then d
    else setClient c.1 { lmClient d c.1 with fifo := [], blocks := [], failed := false } d) d
  d.lm.txNow.foldl (fun d c => if tget d0.lm.txNow c.1 = some c.2 then d else primeFifo c.1 c.2 d) d

/-- A Sheaf's transmit superframe begins. A swap takes the shadow as it stands now (R203). DESIGN CHOICE (log 64). -/
def txSheafBoundary (superframe : Nat) (d : Dev) (i : Nat) : Dev :=
  let d0 := d
  let c := tget d.lm.commits i
  let swaps := match c with | some c => c.tx == some superframe | none => false
  let d := if swaps then { d with lm := { d.lm with txCopy := takeRows i d.lm.txCopy d.lm.shadow } } else d
  let d := txInForce d0 { d with lm := { d.lm with txNow := takeRows i d.lm.txNow d.lm.txCopy } }
  match c, swaps with
  | some c, true => commitSwapped i { c with tx := none } (emit 0 0x0484 (wd i) (wd (superframe % 2 ^ 32)) d)
  | _, _ => d

/-- Pending settings of a lane take effect. -/
def laneBoundary (d : Dev) (m : Nat) : Dev :=
  let l := lmLane d m
  setLm m { l with test := l.testNext.getD l.test, testNext := none, tti := l.ttiNext.getD l.tti, ttiNext := none } d

/-- A transmit superframe begins on the lanes of a type: the next frame has p = 0; a path B created since carries the
clients (R400). -/
def txBoundary (typ : Nat) (o : Otp) (d : Dev) : Dev :=
  let fc := (tgetD d.lm.txFc typ (0, 0)).1
  if !txRuns d || 4 ≤ typ || fc % 256 ≠ 0 then d
  else
    let ls := (lmLanes d).filter (fun m => laneType d m == typ && decide (m < lanes o))
    let ss := (d.lm.sheaves.filter (fun s => s.2.members.any (fun m => ls.contains m))).map (·.1)
    let d := { d with pth := { d.pth with
      pairs := d.pth.pairs.map (fun p => (p.1, { p.2 with bSends := p.2.bSends || (p.2.line && ss.contains p.2.b.carrier) })) } }
    ss.foldl (txSheafBoundary (fc / 256)) (ls.foldl laneBoundary d)

def execTxSuperframeBoundary (laneType : Nat) (s : State) : Host.Outcome State Fault Refusal := run (txBoundary laneType) s

end Sys2Proof.Machine
end

