-- ==== Sys2Proof/Machine/LineRx.lean ====
section
/-!
DEFINITION. The receive side of line mode (chapters 05, 06): alignment, the channels of the header, decryption and
check, the release of containers, the Marshalling yard of line-mode pairs.
-/
namespace Sys2Proof.Machine

/-! Hunt profiles (R193). -/

/-- The profile number of a lane's port, and its word. -/
def huntNumber (d : Dev) (lane : Nat) : Nat := ((lmPortOf d lane).bind (fun p => tget d.lm.ports p)).getD 0
def huntWord (d : Dev) (n : Nat) : Word := tgetD d.lm.hunt n 0x00400243#32
def huntOf (d : Dev) (lane : Nat) : Word := huntWord d (huntNumber d lane)

def hBar (w : Word) : Nat := fld w 23 16
def hLoss (w : Word) : Nat := fld w 11 8
def hMiss (w : Word) : Nat := fld w 7 4
def hConfirm (w : Word) : Nat := fld w 3 0

/-! HUNT and PRESYNC (R191, R192). -/

/-- The frame epoch is read from MNT (R197). DEDUCED (log 27). -/
def epochHit (lane : Nat) (f : Bytes) (d : Dev) : Dev :=
  let l := lmLane d lane
  let q := hdrFc f % 128
  if q = 0 then setLm lane { l with epochHi := some (hdrMnt f) } d
  else if q ≠ 1 then d
  else match l.epochHi with
    | none => d
    | some h =>
      let v := h * 256 + hdrMnt f
      let ev := fun (cause : Nat) => emit 0 0x0481 (wd (v * 2 ^ 16 + cause * 2 ^ 8 + lane)) 0
      let l := { l with epochHi := none }
      match l.epoch with
      | none => ev 1 (setLm lane { l with epoch := some v, confirmed := false, differs := none } d)
      | some e =>
        if v = e then setLm lane { l with differs := none } d
        else if l.differs = some v then ev 2 (setLm lane { l with epoch := some v, confirmed := false, differs := none } d)
        else setLm lane { l with differs := some v, mismatches := l.mismatches + 1 } d

/-- A lane enters SYNC at a position, the header of f being its last hit; a reading of the epoch can begin with that
header (R197). -/
def enterSync (lane pos : Nat) (f : Bytes) (d : Dev) : Dev :=
  let l := lmLane d lane
  epochHit lane f <| alignEvent lane true 1 (setLm lane { l with
    sync := true, syncAt := rawNow d, trackers := [], pos := pos, fc := (hdrFc f + 1) % 2 ^ 48, miss := 0, icvBad := 0
    rxSheaf := hdrSheaf f, rxMember := hdrMember f, lastFc := hdrFc f, lastAt := rawNow d } d)

/-- A position examined in HUNT. -/
def huntFrame (lane pos : Nat) (f : Bytes) (d : Dev) : Dev :=
  let l := lmLane d lane
  let fits := hdrFits f && !(l.test && hdrType f == 1)
  let next := (hdrFc f + 1) % 2 ^ 48
  match l.trackers.find? (fun t => t.pos == pos) with
  | some t =>
    let others := l.trackers.filter (fun x => x.pos != pos)
    if !(fits && hdrFc f == t.fc) then setLm lane { l with trackers := others } d
    else if hConfirm (huntOf d lane) ≤ t.k + 1 then enterSync lane pos f d
    else setLm lane { l with trackers := others ++ [⟨pos, next, t.k + 1⟩] } d
  | none =>
    if !fits || l.barred.any (fun b => b.1 == pos) then d
    else if l.trackers.length < 4 then setLm lane { l with trackers := l.trackers ++ [⟨pos, next, 0⟩] } d
    else setLm lane { l with ignored := l.ignored + 1 } d

/-! The channels of a hit. -/

/-- BDI and BDC are accepted after three hits with the same pair (R224). DEDUCED (log 27). -/
def farEnd (lane : Nat) (f : Bytes) (d : Dev) : Dev :=
  let l := lmLane d lane
  let pair := beAt f 20 1 / 8
  let run := if pair = l.farCand then l.farRun + 1 else 1
  let now := (if l.farBdi then 16 else 0) + l.farBdc
  let l := { l with farCand := pair, farRun := run }
  if run < 3 || pair = now then setLm lane l d
  else
    let l := { l with farBdi := pair.testBit 4, farBdc := pair % 16, pm := pmMark l.pm (if pair.testBit 4 then 2 ^ 16 else 0) }
    emit 0 0x04C1 (wd (flag l.farBdi 31 + l.farBdc * 2 ^ 24 + lane)) 0 (setLm lane l d)

/-- The trail trace identifier (R174). DEDUCED (log 27). -/
def traceHit (lane : Nat) (f : Bytes) (d : Dev) : Dev :=
  let l := lmLane d lane
  let q := hdrFc f % 64
  if 16 ≤ q then d
  else if q ≠ 0 && l.ttiCopy.length ≠ 4 * q then setLm lane { l with ttiCopy := [], ttiRun := 0 } d
  else
    let c := (if q = 0 then [] else l.ttiCopy) ++ hdrTmc f
    if q ≠ 15 then setLm lane { l with ttiCopy := c } d
    else
      let run := if c = l.ttiLast then l.ttiRun + 1 else 1
      let old := l.ttiAcc ++ zeros (64 - l.ttiAcc.length)
      let l := { l with ttiCopy := [], ttiLast := c, ttiRun := run }
      if run < 3 || c = old then setLm lane l d else emit 0 0x0483 (wd lane) 0 (setLm lane { l with ttiAcc := c } d)

/-- A key-channel cell has come whole: its message grows, or is complete (R292). DEDUCED (log 36). -/
def cellArrives (port : Nat) (cell : Bytes) (d : Dev) : Dev :=
  let typ := beAt cell 0 1
  let seq := beAt cell 1 1
  let idx := beAt cell 2 2
  if typ = 0 || 4 < typ || crc32 (cell.take 60) ≠ beAt cell 60 4 || tget d.kc.lastSeq port = some seq then d
  else
    let old := match tget d.kc.msgIn port with
      | some (s, t) => if s = seq then t else []
      | none => []
    let parts := if (tget old idx).isSome then old else tset old idx (slice cell 4 56)
    if 3 ≤ typ && parts.length = idx + 1 then
      let msg := parts.flatMap (·.2)
      { d with kc := { d.kc with
        msgIn := tdel d.kc.msgIn port, lastSeq := tset d.kc.lastSeq port seq
        inbox := d.kc.inbox ++ [(port, msg.take (beAt msg 2 2))] } }
    else { d with kc := { d.kc with msgIn := tset d.kc.msgIn port (seq, parts) } }

/-- The key-channel bytes of a hit. -/
def kchHit (lane : Nat) (f : Bytes) (d : Dev) : Dev :=
  let q := hdrFc f % 16
  let old := tgetD d.kc.cellIn lane []
  if q ≠ 0 && old.length ≠ 4 * q then { d with kc := { d.kc with cellIn := tdel d.kc.cellIn lane } }
  else
    let c := (if q = 0 then [] else old) ++ hdrKch f
    if q ≠ 15 then { d with kc := { d.kc with cellIn := tset d.kc.cellIn lane c } }
    else
      let d := { d with kc := { d.kc with cellIn := tdel d.kc.cellIn lane } }
      match lmPortOf d lane with
      | some port => cellArrives port c d
      | none => d

/-- A client-signal-fail map is read (R173, R216). DEDUCED (log 27). -/
def csfHit (lane : Nat) (f : Bytes) (d : Dev) : Dev :=
  if hdrFc f % 128 = 2 then
    let l := lmLane d lane
    setLm lane { l with csfOld := l.csfNew, csfNew := some (hdrMnt f) } d
  else d

/-- CSF of every client judged from the last two readings of its lanes (R216). -/
def judgeCsf (d : Dev) : Dev :=
  (judgedClients d).foldl (fun d c =>
    let i := takenFrom d (descSheaf c.2)
    let bits := fun (m : Nat) => ((List.range 8).map (fun k =>
      flag (decide (descFirst c.2 ≤ 8 * m + k) && decide (8 * m + k < descFirst c.2 + descN c.2)) k)).sum
    let ms := match tget d.lm.sheaves i with | some s => (List.range s.members.length).zip s.members | none => []
    let reads := (ms.filter (fun m => bits m.1 != 0)).map (fun m =>
      let l := lmLane d m.2
      match l.csfOld, l.csfNew with
      | some a, some b => some (decide (a &&& bits m.1 ≠ 0), decide (b &&& bits m.1 ≠ 0))
      | _, _ => none)
    let x := lmClient d c.1
    if reads.any (fun r => r == some (true, true)) then setClient c.1 { x with declared := x.declared ||| 256 } d
    else if reads.all (fun r => r == some (false, false)) then
      setClient c.1 { x with declared := x.declared - (x.declared &&& 256) } d
    else d) d

/-- The claim of a hit, on the lowest member of the path that is in SYNC (R383). -/
def claimHit (lane : Nat) (f : Bytes) (d : Dev) : Dev :=
  match sheafOf d lane with
  | none => d
  | some (s, _) => match pathOfSheaf d s, tget d.lm.sheaves s with
    | some (i, p, b), some sh =>
      if (syncMembers d sh).head? ≠ some lane then d
      else
        let e := p.pathEnd b
        let c := hdrClaim f
        let run := if c = e.cand then e.candRun + 1 else 1
        let e := { e with cand := c, candRun := run, accepted := if 3 ≤ run then c else e.accepted }
        setPair i (p.withEnd b e) d
    | _, _ => d

def hitChannels (lane : Nat) (f : Bytes) (d : Dev) : Dev :=
  judgeCsf (claimHit lane f (epochHit lane f (csfHit lane f (kchHit lane f (traceHit lane f (farEnd lane f d))))))

/-! Defects that frames declare and clear (R216). -/

def keySet (d : Dev) : Nat := fld d.lm.prm1 7 4
def aisSet (d : Dev) : Nat := fld d.lm.prm1 3 0
def authSet (d : Dev) : Nat := fld d.lm.prm0 11 0

/-- KEY, by a hit without and with a usable key. DEDUCED (log 27). -/
def judgeKey (lane : Nat) (nokey withKey : Bool) (d : Dev) : Dev :=
  let l := lmLane d lane
  let l := { l with nokeyRun := if nokey then l.nokeyRun + 1 else 0, keyRun := if withKey then l.keyRun + 1 else 0 }
  let d := setLm lane l d
  if nokey && keySet d ≤ l.nokeyRun then setDefect lane 7 true d
  else if withKey && keySet d ≤ l.keyRun then setDefect lane 7 false d
  else d

/-- AIS, by a checked frame. -/
def judgeAis (lane ftype : Nat) (pass : Bool) (d : Dev) : Dev :=
  let l := lmLane d lane
  let a := pass && ftype == 2
  let t := pass && ftype == 0
  let l := { l with aisRun := if a then l.aisRun + 1 else 0, trafficRun := if t then l.trafficRun + 1 else 0 }
  let d := setLm lane l d
  if a && aisSet d ≤ l.aisRun then setDefect lane 6 true d
  else if t && aisSet d ≤ l.trafficRun then setDefect lane 6 false d
  else d

/-- AUTH: declared as soon as the running block of 4,096 checked frames holds AUTH_SET failures, so that a lowered
threshold acts at the next checked frame (R230); cleared by a whole block without a failure. DEDUCED (log 27). -/
def judgeAuth (lane : Nat) (pass : Bool) (d : Dev) : Dev :=
  let l := lmLane d lane
  let l := { l with authFrames := l.authFrames + 1, authFails := if pass then l.authFails else l.authFails + 1 }
  let whole := 4096 ≤ l.authFrames
  let d0 := setLm lane (if whole then { l with authFrames := 0, authFails := 0 } else l) d
  if authSet d ≤ l.authFails then setDefect lane 8 true d0
  else if whole && l.authFails == 0 then setDefect lane 8 false d0
  else d0

/-! A frame in SYNC. -/

/-- Key of the Granary pages of a Sheaf member's skew buffer (R322). -/
def skewKey (lane : Nat) : Nat := bufKey 3 lane

/-- A member frame waits for the release of its counter (R188); the frame of a member that is not aligned as it
arrives is lost (R190). Above a skew allowance of 20 µs its payload waits in the Granary's skew buffer; where that has
no page for it the frame is lost (R189). DESIGN CHOICE (log 22). -/
def pushFrameAt (at' lane fc : Nat) (fate : FrameFate) (payload : Bytes) (o : Otp) (d : Dev) : Dev :=
  match sheafOf d lane with
  | none => d
  | some (i, _) =>
    match tget d.lm.sheaves i, trafficOn d with
    | some x, true =>
      let keep := fate != .lost && aligned d i x lane
      let put := fun (f : FrameFate) (b : Bytes) (d : Dev) =>
        { d with lm := { d.lm with
          sheaves := tset d.lm.sheaves i { x with waiting := x.waiting ++ [⟨lane, fc, f, b, at'⟩] } } }
      if !keep then put .lost [] d
      else if x.d ≤ 20 then put fate payload d
      else match bufWrite o (skewKey lane) payload d with
        | some d => put fate payload d
        | none => put .lost [] d
    | _, _ => d

def pushFrame (lane fc : Nat) (fate : FrameFate) (payload : Bytes) (o : Otp) (d : Dev) : Dev :=
  pushFrameAt (rawNow d) lane fc fate payload o d

/-- The header at the expected position misses (R192, R198). -/
def headerMiss (lane fc : Nat) (o : Otp) (d : Dev) : Dev :=
  let l := lmLane d lane
  let d := setLm lane { l with
    miss := l.miss + 1, bei := l.bei + 1, epochHi := none
    csfOld := if fc % 128 = 2 then none else l.csfOld, csfNew := if fc % 128 = 2 then none else l.csfNew
    ttiCopy := if fc % 64 < 16 then [] else l.ttiCopy, ttiRun := if fc % 64 < 16 then 0 else l.ttiRun } d
  let d := pushFrame lane fc .lost [] o { d with kc := { d.kc with cellIn := tdel d.kc.cellIn lane } }
  if hMiss (huntOf d lane) ≤ l.miss + 1 then toHunt lane 2 d else d

/-- An ICV passes (R192, R197, R224, R277). -/
def icvPass (lane i ftype : Nat) (x : SaRec) (f : Bytes) (d : Dev) : Dev :=
  let l := lmLane d lane
  let d := setLm lane { l with icvBad := 0, confirmed := true, pm := pmAdd l.pm 4 (beAt f 21 1) } d
  let d := validFrame i (timeNow d) false (setSa i { x with pn := x.pn + 1 } d)
  judgeAuth lane true (judgeAis lane ftype true (setDefect lane 4 false d))

/-- An ICV fails (R192, R195). -/
def icvFail (lane ftype : Nat) (d : Dev) : Dev :=
  let l := lmLane d lane
  let d := setLm lane { l with icvBad := l.icvBad + 1, bei := l.bei + 1, pm := pmAdd l.pm 3 1 } d
  let d := judgeAuth lane false (judgeAis lane ftype false d)
  if l.icvBad + 1 < hLoss (huntOf d lane) then d
  else
    let l := lmLane d lane
    let bars := if l.test && hBar (huntOf d lane) ≠ 0 then
        (l.barred.filter (fun b => b.1 != l.pos) ++ [(l.pos, rawNow d)]) |> fun b => b.drop (b.length - 8)
      else l.barred
    toHunt lane 3 (setLm lane { l with barred := bars } d)

/-- A frame with a key, whose context is in the cache, is decrypted and checked, unless it is skipped (R165, R597). A
TEST frame on a lane that is not in test mode is treated as a frame whose ICV fails. DEDUCED (log 26). -/
def checkNow (at' lane i epoch : Nat) (x : SaRec) (f : Bytes) (skip : Bool) (o : Otp) (d : Dev) : Dev :=
  let ftype := hdrType f
  let test := ftype == 3 && (lmLane d lane).test
  match lmSlice (objKey 3 lane) lane skip d with
  | (none, d) => pushFrameAt at' lane (hdrFc f) .lost [] o d
  | (some n, d) =>
    let g := lmTagged (192 + lane) lane 0 d
    match lmContext n i x g.1 o g.2 with
    | (none, d) => pushFrameAt at' lane (hdrFc f) .lost [] o d
    | (some c, d) =>
      let y := x.under c
      let tag := lmRxTag c.hash y test epoch f
      let s : Sample := ⟨n, i, x.gen, x.owner, if test then 8176 else 32, f.take 8176, tag, 0, none, none⟩
      let ok := (ftype != 3 || test) && tag == slice f 8176 16
      let d := pushFrameAt at' lane (hdrFc f) (if ok then .passed else .failed) (lmOpen y test epoch f) o (lmGlean g.1 s o d)
      if ok then icvPass lane i ftype x f d else icvFail lane ftype d

/-- A frame whose epoch was known when it came goes on where its SA's context is in the cache; else it waits in the
miss store of its sector, behind those of its SA (R31, R197, R320). -/
def checkFrame (lane i epoch : Nat) (x : SaRec) (f : Bytes) (skip : Bool) (o : Otp) (d : Dev) : Dev :=
  let hit := cacheLookup i d
  if hit.1 && !d.lm.missing.any (fun m => m.sa == i) then checkNow (rawNow d) lane i epoch x f skip o hit.2
  else if missFull d (sectorOf lane) then
    pushFrame lane (hdrFc f) .lost [] o { hit.2 with dsp := { hit.2.dsp with missDrops := hit.2.dsp.missDrops + 1 } }
  else
    let d := fetchStart i hit.2
    { d with lm := { d.lm with missing := d.lm.missing ++ [⟨lane, i, x.gen, epoch, rawNow d, skip, f⟩] } }

/-- A hit (R165, R192, R197, R216). `epoch` is the epoch as it was known before this frame. -/
def headerHit (lane : Nat) (epoch : Option Nat) (f : Bytes) (skip : Bool) (o : Otp) (d : Dev) : Dev :=
  let ftype := hdrType f
  let l := lmLane d lane
  let d := setLm lane { l with
    miss := 0, rxSheaf := hdrSheaf f, rxMember := hdrMember f, lastFc := hdrFc f, lastAt := rawNow d } d
  let sa := (saOn d (objKey 3 lane) (hdrKey f)).bind (fun i => (saOf d i).map (fun x => (i, x)))
  let d := hitChannels lane f d
  let d := judgeKey lane (ftype == 1 || sa.isNone) ((ftype == 0 || ftype == 2) && sa.isSome) d
  if 4 ≤ ftype then
    let l := lmLane d lane
    pushFrame lane (hdrFc f) .lost [] o (setLm lane { l with discarded := l.discarded + 1 } d)
  else match sa, epoch with
    | some (i, x), some e =>
      if ftype = 1 || !trafficOn d then pushFrame lane (hdrFc f) .lost [] o d else checkFrame lane i e x f skip o d
    | _, _ => pushFrame lane (hdrFc f) .lost [] o d

/-- The frame at the lane's position in SYNC. The expected FC advances whatever its header shows (R192, R200). -/
def syncFrame (lane : Nat) (f : Bytes) (skip : Bool) (o : Otp) (d : Dev) : Dev :=
  let l := lmLane d lane
  let want := l.fc
  let hit := hdrFits f && hdrFc f == want && !(l.test && hdrType f == 1)
  let next := (want + 1) % 2 ^ 48
  let e := if next = 0 then l.epoch.map (fun e => (e + 1) % 65536) else l.epoch
  let d := setLm lane { l with pm := if hdrCrcOk f then l.pm else pmAdd l.pm 2 1 } d
  let d := if hit then headerHit lane l.epoch f skip o d else headerMiss lane want o d
  let m := lmLane d lane
  if m.sync then
    setLm lane { m with fc := next, epoch := if m.epoch = l.epoch then e else m.epoch } d
  else d

/-- A received header and frame are examined (R191, R192). -/
def frameReceive (lane pos : Nat) (f : Bytes) (skip : Bool) (dt : Nat) (o : Otp) (d : Dev) : Dev :=
  let d := passTime dt d
  let l := lmLane d lane
  if !txRuns d || !isLmLane d lane || lanes o ≤ lane || f.length ≠ 8192 || 8192 ≤ pos then d
  else if l.sync then (if pos = l.pos then defectsAndPaths (syncFrame lane f skip o) d else d)
  else defectsAndPaths (huntFrame lane pos f) d

def execEsurdelFrameReceive (lane pos : Nat) (bytes : Bytes) (skip : Bool) (dt : Nat) (s : State) :
    Host.Outcome State Fault Refusal :=
  run (frameReceive lane pos bytes skip dt) s

/-! Contexts that come from the Granary (R320). -/

/-- A received line-mode frame of the miss store goes on; one whose SA has gone or changed since is lost. -/
def missGo (o : Otp) (d : Dev) (m : LmMiss) : Dev :=
  match (saOf d m.sa).filter (fun x => x.gen == m.gen && x.state != 4) with
  | some x => checkNow m.arrival m.lane m.sa m.epoch x m.frame m.skip o d
  | none => pushFrameAt m.arrival m.lane (hdrFc m.frame) .lost [] o d

/-- A context line fails its verification: nothing of it is released, the device halts (R349, R355). -/
def contextFails (sa : Nat) (o : Otp) (d : Dev) : Dev :=
  let pfn := (contextFrame d sa).pfn
  granaryHalt 1 (pfn / 2 ^ 19) (pfn * 4096 + 64 * (2 * sa % 64)) o d

/-- The context of an SA has come from the Granary and verifies: the frames that waited for it go on in order (R320,
R349). DESIGN CHOICE (log 57). -/
def fetchDone (sa : Nat) (o : Otp) (d : Dev) : Dev :=
  let here := fun (f : Flight) => f.stage == .missing && f.sa == sa
  let waiting := d.fm.flights.filter here
  let lines := d.lm.missing.filter (fun m => m.sa == sa)
  if waiting.isEmpty && lines.isEmpty && !d.dsp.fetching.contains sa then d
  else if !contextSound d sa then contextFails sa o d
  else
    let d := { d with
      fm := { d.fm with flights := d.fm.flights.filter (fun f => f.rx || !here f) }
      lm := { d.lm with missing := d.lm.missing.filter (fun m => m.sa != sa) }
      dsp := { d.dsp with fetching := d.dsp.fetching.filter (· != sa) } }
    let d := waiting.foldl (fun d f =>
      let f := { f with glean := gleanStage 2 d f.glean }
      if f.rx then rxGo o f d else assign o f d) (cacheFetch sa d)
    if lines.isEmpty then d else defectsAndPaths (lines.foldl (missGo o)) d

def execContextFetchDone (sa : Nat) (s : State) : Host.Outcome State Fault Refusal := run (fetchDone sa) s

/-- A barred position is released once it has been barred for BAR frame periods (R195). -/
def barExpiry (lane pos dt : Nat) (_ : Otp) (d : Dev) : Dev :=
  let d := passTime dt d
  let l := lmLane d lane
  let past := fun (b : Nat × Nat) => b.1 == pos && periodsSince d (laneType d lane) (hBar (huntOf d lane)) b.2
  if l.barred.any past then setLm lane { l with barred := l.barred.filter (fun b => b.1 != pos) } d else d

/-- DESIGN CHOICE (log 3). -/
def execBarExpiry (lane : Nat) (pos : Timed) (s : State) : Host.Outcome State Fault Refusal := run (barExpiry lane pos.val pos.dt) s

end Sys2Proof.Machine
end

