-- ==== Sys2Proof/Machine/Release.lean ====
section
/-!
DEFINITION. The release of received containers (R178, R188, R198, R199, R220 to R222), the received superframe boundary
(R202, R203), the Marshalling yard and the fast switch (R392 to R395).
-/
namespace Sys2Proof.Machine

/-! One client. -/

/-- The edges of the replacement that container fc reaches are passed (R221). DEDUCED (log 29). -/
def passEdges (fc : Nat) : Bool → List (Option Nat × Bool) → Bool × List (Option Nat × Bool)
  | now, [] => (now, [])
  | now, (e, v) :: t =>
    match e with
    | none => passEdges fc v t
    | some g => if 0 ≤ fcDiff fc g then passEdges fc v t else (now, (e, v) :: t)

/-- The slots of a container, from the member frames by index. DEDUCED (log 29). -/
def containerSlots (r : List Word) (frames : Table RxFrame) : List (Option (FrameFate × Bytes)) :=
  (List.range (descN r)).map (fun k =>
    let s := descFirst r + k
    (tget frames (s / 8)).map (fun f => (f.fate, slotAt f.payload (s % 8))))

/-- What the slots' JC bytes count (R178, R225). DEDUCED (log 29). -/
def jcCount (p : Pm) (s : Bytes) : Pm :=
  let v := jcVote (beAt s 0 1)
  let p := if v.1 = 2 then pmAdd p 0 1 else if v.1 = 1 then pmAdd p 1 1 else p
  let p := if v.2.1 then pmAdd p 2 1 else p
  if v.2.2 then pmAdd p 3 1 else p

/-- JCE from a container's justification control errors (R216). DEDUCED (log 29). -/
def judgeJce (err : Bool) (x : LmClient) : LmClient :=
  let h := (err :: x.jce).take 8
  let x := { x with jce := h, clean := if err then 0 else x.clean + 1 }
  if 3 ≤ (h.filter id).length then { x with declared := x.declared ||| 512 }
  else if 64 ≤ x.clean then { x with declared := x.declared - (x.declared &&& 512) }
  else x

/-- Client data of a CBR container. -/
def cbrData (r : List Word) (slots : List Bytes) : Bytes :=
  let all := slots.flatMap (fun s => slotPayload (jcVote (beAt s 0 1)).1 s)
  all.take (all.length - descF r)

/-- The lane type of a Sheaf. -/
def sheafType (d : Dev) (i : Nat) : Nat :=
  match tget d.lm.sheaves i with | some s => laneType d ((s.members.head?).getD 0) | none => 0

/-- A client frame in progress at an Ethernet egress is ended with an Error control character (R198, R199). -/
def endFrame (c : Nat) (d : Dev) : Dev :=
  let x := lmClient d c
  if x.inFrame then out (.errorChar c) (setClient c { x with inFrame := false } d) else d

/-- An Ethernet egress takes up blocks and sends those of one frame period (R182). -/
def egressSend (c : Nat) (r : List Word) (new : List (BitVec 66)) (d : Dev) : Dev :=
  let x := lmClient d c
  let f := fillIdle (egressBlocks (sheafType d (descSheaf r)) (descRate r)) x.inFrame (x.egress ++ new)
  out (.blocks c f.1) (setClient c { x with egress := f.2, inFrame := f.1.foldl frameOpen x.inFrame } d)

/-- What a lost container gives (R198). -/
def lostSend (c : Nat) (r : List Word) (d : Dev) : Dev :=
  if descCbr r then out (.client c (List.replicate (cbrNominal r) 0xFF#8)) d else egressSend c r [] (endFrame c d)

/-- What a fast switch holds (R395). -/
def heldOutput (c : Nat) (r : List Word) (x : LmClient) : Output :=
  if descCbr r then .client c ((List.range (cbrNominal r)).map (fun i => x.last.getD (i % 16) 0#8)) else .idle c

/-- The client output is replaced for the length of a container; what waited at an Ethernet egress goes (R220). -/
def replaceSend (c : Nat) (r : List Word) (d : Dev) : Dev :=
  out (replacement c r) (setClient c { lmClient d c with egress := [], inFrame := false } d)

/-- The 257b blocks of a received container (R184). -/
def containerBlocks (r : List Word) (bs : List Bytes) : List (BitVec 257) := unpackBlocks (descN r) (bs.flatMap (slotPayload 0))

/-- A container that holds client data is delivered (R178, R182, R183, R199). DEDUCED (log 30). -/
def deliverData (c : Nat) (r : List Word) (slots : List (FrameFate × Bytes)) (d : Dev) : Dev :=
  let x := lmClient d c
  let bs := slots.map (·.2)
  let failing := slots.any (fun s => s.1 == .failed)
  if descCbr r then
    let data := cbrData r bs
    out (.client c data) (setClient c { x with last := if failing then x.last else data.drop (data.length - 16) } d)
  else
    let mine := (containerBlocks r bs).filter (fun b => !isChaff b)
    let d := egressSend c r (mine.flatMap (fun b => untranscode (bits257 b))) d
    if failing then endFrame c d else d

/-- One client's container of counter fc; `holding` says that a fast switch holds the output. The container was lost. -/
def clientRelease (fc : Nat) (frames : Table RxFrame) (holding : Bool) (c : Nat) (r : List Word) (d : Dev) : Bool × Dev :=
  let slots := (containerSlots r frames).filterMap id
  let lost := slots.length != descN r || slots.any (fun s => s.1 == .lost)
    || (descHold r && slots.any (fun s => s.1 == .failed))
  let x := lmClient d c
  let e := passEdges fc x.replNow x.edges
  let x := { x with replNow := e.1, edges := e.2 }
  let x := if lost then x
    else
      let bs := slots.map (·.2)
      let x := { x with pm := bs.foldl jcCount x.pm }
      let x := if descCbr r then x else { x with pm := pmAdd x.pm 5 ((containerBlocks r bs).filter isChaff).length }
      if descCbr r then judgeJce (bs.any (fun s => (jcVote (beAt s 0 1)).2.2)) x else x
  if lost && holding then (true, out (heldOutput c r x) (setClient c { x with pm := pmAdd x.pm 7 1 } d))
  else if e.1 then (lost, replaceSend c r (setClient c { x with pm := pmAdd x.pm 7 1 } d))
  else if lost then (true, lostSend c r (setClient c { x with pm := pmAdd x.pm 7 1 } d))
  else (false, deliverData c r slots (setClient c x d))

/-- Every client of Sheaf a; whether some container was lost, and whether some was not. -/
def demapAll (a fc : Nat) (frames : Table RxFrame) (holding : Bool) (d : Dev) : (Bool × Bool) × Dev :=
  ((rxClients d).filter (fun c => descSheaf c.2 == a)).foldl (fun x c =>
    let r := clientRelease fc frames holding c.1 c.2 x.2
    ((x.1.1 || r.1, x.1.2 || !r.1), r.2)) ((false, false), d)

/-! The release of a counter value (R188, R190). -/

/-- The released frames by member index. -/
def memberFrames (s : Sheaf) (got : List RxFrame) : Table RxFrame :=
  (List.range s.members.length).foldl (fun t m =>
    match s.members[m]? with
    | some lane => (match got.find? (fun f => f.lane == lane) with | some f => tset t m f | none => t)
    | none => t) []

/-- Frames that no longer wait leave the skew buffer's pages (R189, R345). -/
def skewRead (s : Sheaf) (rest : List RxFrame) (d : Dev) : Dev :=
  if s.d ≤ 20 then d
  else s.members.foldl (fun d lane =>
    let bytes := fun (fs : List RxFrame) => ((fs.filter (fun f => f.lane == lane)).map (·.payload.length)).sum
    let n := bytes s.waiting - bytes rest
    if n = 0 then d else bufRead (skewKey lane) n (bytes rest == 0) d) d

/-- The skew allowance has passed since the first member's frame of a counter arrived (R188). -/
def skewDue (d : Dev) (s : Sheaf) (got : List RxFrame) : Bool :=
  match got with
  | [] => true
  | f :: fs => decide (fs.foldl (fun a g => min a g.arrival) f.arrival + s.d * 1750 ≤ rawNow d)

/-- Fast pair: what the selected path delivers (R395). DEDUCED (log 39). -/
def fastRelease (n : Nat) (p : PathPair) (fc : Nat) (frames : Table RxFrame) (d : Dev) : Dev :=
  let done := match tget p.delivered 0 with | some f => decide (fcDiff fc f ≤ 0) | none => false
  if done then d
  else
    let r := demapAll p.a.carrier fc frames (p.hold.map (·.2) != some true) d
    let p := { p with
      delivered := if r.1.1 then p.delivered else tset p.delivered 0 fc
      hold := if r.1.1 then (match p.hold with | none => some (rawNow d, false) | h => h) else none }
    setPair n p r.2

/-- The instant, in 1/25 TU cycles, at which a unit of a hitless line-mode pair is due, and the schedule (R393).
DEDUCED (log 39). -/
def lineDue (d : Dev) (p : PathPair) (e : PathEnd) (typ fc : Nat) : Nat × Nat :=
  match p.sched with
  | some (f, t) => (fc, ((t : Int) + fcDiff fc f * (periodTu typ : Int)).toNat)
  | none => (fc, (rawNow d + (p.dp * 1000 - e.offset) * 7 / 4) * 25)

/-- A unit of a path reaches the yard of a hitless line-mode pair; it waits in the pages of its path's copies, and a
later copy of a whole unit is discarded (R393, R394). DEDUCED (log 39). -/
def yardLine (n : Nat) (p : PathPair) (b : Bool) (typ fc members : Nat) (frames : Table RxFrame) (o : Otp) (d : Dev) : Dev :=
  let e := p.pathEnd b
  let valid := (frames.filter (fun f => f.2.fate == .passed)).map (·.2)
  let whole := valid.length == members
  let bytes := valid.flatMap (·.payload)
  if e.state ≠ 2 || valid.isEmpty then d
  else if (match tget p.delivered 0 with | some f => decide (fcDiff fc f ≤ 0) | none => false) then
    setPair n { p with late := satInc 32 p.late } d
  else
    let s := lineDue d p e typ fc
    let p := { p with sched := some s }
    match p.units.find? (fun u => u.num == fc) with
    | some u =>
      let st := if u.fromA || u.fromB then none else yardStore o n b bytes d
      let u' := { u with
        fromA := u.fromA || (whole && !b), fromB := u.fromB || (whole && b)
        members := if st.isSome then u.members ++ valid else u.members }
      let p := { p with units := p.units.map (fun v => if v.num == fc then u' else v) }
      pathsRefresh (setPair n (countCopies ((rawNow d - u.first) * 4 / 7) b p) (st.getD d))
    | none =>
      let u : YardUnit := ⟨0, fc, rawNow d, s.2 / 25, whole && !b, whole && b, b, none, valid⟩
      match yardStore o n b bytes d with
      | some d => setPair n { p with units := p.units ++ [u] } d
      | none => setPair n p d

/-- The frames of counter fc leave the reorder stage and the skew compensation of a Sheaf once the skew allowance has
passed (R188); where the mode blocks traffic each client gets its replacement (R12). -/
def sheafRelease (i fc dt : Nat) (o : Otp) (d : Dev) : Dev :=
  let d := passTime dt d
  match tget d.lm.sheaves i with
  | none => d
  | some s =>
    let got := s.waiting.filter (fun f => f.fc == fc)
    let rest := s.waiting.filter (fun f => decide (0 < fcDiff f.fc fc))
    let early := !skewDue d s got
    let d := if early then d
      else skewRead s rest { d with lm := { d.lm with sheaves := tset d.lm.sheaves i { s with waiting := rest } } }
    if early then d
    else if !trafficOn d then
      if egressBlocked d then
        ((rxClients d).filter (fun c => descSheaf c.2 == i)).foldl (fun d c => out (replacement c.1 c.2) d) d
      else d
    else
      let frames := memberFrames s got
      match pathOfSheaf d i with
      | none => pathsRefresh (withDefects (fun d => (demapAll i fc frames false d).2) d)
      | some (n, p, b) =>
        if p.hitless then
          yardLine n p b (laneType d ((s.members.head?).getD 0)) fc s.members.length frames o d
        else if b1 b ≠ p.selected then d
        else pathsRefresh (withDefects (fastRelease n p fc frames) d)

def execSheafRelease (sheaf fc dt : Nat) (s : State) : Host.Outcome State Fault Refusal := run (sheafRelease sheaf fc dt) s

/-! The yard's release (R392, R394). -/

/-- The frames of a unit by member index, a member's frame of the selected path before that of the other. -/
def unitFrames (d : Dev) (p : PathPair) (u : YardUnit) : Table RxFrame :=
  let lanesOf := fun (b : Bool) => pathLanes d p (p.pathEnd b)
  let put := fun (b : Bool) (t : Table RxFrame) =>
    u.members.foldl (fun t f => if (lanesOf b).contains f.lane then tset t ((lanesOf b).idxOf f.lane) f else t) t
  put (p.selected == 1) (put (p.selected == 0) [])

/-- A frame-mode unit goes to its client queue; the replay check of R134 stands behind the yard. -/
def unitToQueue (o : Otp) (f : Flight) (d : Dev) : Dev :=
  if replayLate d f then gleanFinish true f.glean (bumpSc f.sc 7 1 d)
  else countDelivered f (toQueue o f false d)

/-- A unit leaves the yard's pages (R345). -/
def yardRead (d0 : Dev) (n : Nat) (p : PathPair) (u : YardUnit) (d : Dev) : Dev :=
  let bytes := fun (b : Bool) (u : YardUnit) => match u.flight with
    | some f => if u.viaB = b then f.outp.length else 0
    | none => ((u.members.filter (fun f => (pathLanes d0 p (p.pathEnd b)).contains f.lane)).map (·.payload.length)).sum
  let rest := p.units.filter (fun v => !(v.sc == u.sc && v.num == u.num))
  [false, true].foldl (fun d b =>
    if bytes b u = 0 then d else bufRead (yardKey n b) (bytes b u) ((rest.map (bytes b)).sum == 0) d) d

/-- The raw TU count at which a unit of a pair is due: its own, or the schedule's where no copy has come (R393). -/
def unitDue (d : Dev) (p : PathPair) (num : Nat) (unit : Option YardUnit) : Nat :=
  match unit with
  | some u => u.due
  | none => if p.line && p.sched.isSome then (lineDue d p p.a (sheafType d p.a.carrier) num).2 / 25 else 0

/-- A unit's due time has come (R393, R394): nothing is released before it. -/
def yardRelease (n sc num dt : Nat) (o : Otp) (d : Dev) : Dev :=
  let d := passTime dt d
  match tget d.pth.pairs n with
  | none => d
  | some p =>
    if !p.hitless || !trafficOn d then d
    else
      let unit := p.units.find? (fun u => u.sc == sc && u.num == num)
      if rawNow d < unitDue d p num unit then d else
      let d := match unit with | some u => yardRead d n p u d | none => d
      let q := { p with units := p.units.filter (fun u => !(u.sc == sc && u.num == num)) }
      if p.line then
        let d := setPair n { q with delivered := tset q.delivered 0 num } d
        let frames := match unit with | some u => unitFrames d p u | none => []
        pathsRefresh (withDefects (fun d => (demapAll p.a.carrier num frames false d).2) d)
      else
        let d := setPair n { q with delivered := tset q.delivered sc (max num (tgetD q.delivered sc 0)) } d
        match unit.bind (·.flight) with
        | some f => unitToQueue o f d
        | none => d

def execYardRelease (pair sc num dt : Nat) (s : State) : Host.Outcome State Fault Refusal := run (yardRelease pair sc num dt) s

/-- 14,000 cc of a hold have passed (R395). -/
def holdExpiry (n dt : Nat) (_ : Otp) (d : Dev) : Dev :=
  let d := passTime dt d
  match tget d.pth.pairs n with
  | some p => match p.hold with
    | some (t, false) => if t + 14000 ≤ rawNow d then setPair n { p with hold := some (t, true) } d else d
    | _ => d
  | none => d

def execFastHoldExpiry (pair : Timed) (s : State) : Host.Outcome State Fault Refusal := run (holdExpiry pair.val pair.dt) s

/-! The received superframe boundary (R202, R203). -/

/-- The second in progress of a client will not have run whole (R228). -/
def partialSecond (c : Nat) (d : Dev) : Dev :=
  let x := lmClient d c
  setClient c { x with pm := { x.pm with partl := true } } d

/-- A client comes into force at the demapper: a defect that stands replaces it from its first container on; its second
is partial (R228). -/
def clientBegins (c : Nat) (r : List Word) (d : Dev) : Dev :=
  let x := { lmClient d c with declared := 0, jce := [], clean := 0, edges := [], last := [], egress := [], inFrame := false }
  let d := setClient c x d
  let b := primary (clientDeclared d c r)
  let act := decide (1 ≤ b) && decide (b ≤ 9)
  partialSecond c (setClient c { x with replaced := act, replNow := act } d)

/-- A client whose record changes while it is mapped goes on: its own defects stay declared, JCE of a CBR client only
(R215, R216). -/
def clientGoesOn (a c : Nat) (r : List Word) (d : Dev) : Dev :=
  let x := lmClient d c
  let x := if descCbr r then x else { x with declared := x.declared &&& 256, jce := [], clean := 0 }
  clientEdge a (setClient c x d) (c, r)

/-- Received records that change are in force; a client that a commit unmaps loses its defects without an event, and its
second is partial (R231). -/
def rxInForce (d0 d : Dev) : Dev :=
  let was := fun (c : Nat) => (rxClients d0).find? (fun x => x.1 == c)
  let d := d0.lm.rxNow.foldl (fun d c =>
    if descValid c.2 && !(rxClients d).any (fun x => x.1 == c.1) then
      partialSecond c.1 (setClient c.1 { lmClient d c.1 with declared := 0, jce := [], clean := 0 } d)
    else d) d
  (rxClients d).foldl (fun d c => match was c.1 with
    | some old =>
      if old.2 = c.2 then d
      else if descSheaf old.2 = descSheaf c.2 && descCbr old.2 == descCbr c.2 then
        clientGoesOn (primary (clientDeclared d0 c.1 old.2)) c.1 c.2 d
      else clientBegins c.1 c.2 d
    | none => clientBegins c.1 c.2 d) d

/-- A received superframe of a Sheaf begins behind the skew compensation. A swap takes the shadow as it stands now
(R203). DESIGN CHOICE (log 64). -/
def rxBoundary (i superframe : Nat) (_ : Otp) (d : Dev) : Dev :=
  if !txRuns d || (tget d.lm.sheaves i).isNone then d
  else
    let d0 := d
    let c := tget d.lm.commits i
    let swaps := match c with | some c => c.rx == some superframe | none => false
    let d := if swaps then { d with lm := { d.lm with rxCopy := takeRows i d.lm.rxCopy d.lm.shadow } } else d
    let d := rxInForce d0 { d with lm := { d.lm with rxNow := takeRows i d.lm.rxNow d.lm.rxCopy } }
    match c, swaps with
    | some c, true => commitSwapped i { c with rx := none } (emit 0 0x0484 (wd (2 ^ 16 + i)) (wd (superframe % 2 ^ 32)) d)
    | _, _ => d

def execRxSuperframeBoundary (sheaf superframe : Nat) (s : State) : Host.Outcome State Fault Refusal :=
  run (rxBoundary sheaf superframe) s

end Sys2Proof.Machine
end

