-- ==== Sys2Proof/Machine/LineCmd.lean ====
section
/-!
DEFINITION. The commands of line mode (chapters 05 and 06) and the instants at which lane defects are declared and
cleared (R216).
-/
namespace Sys2Proof.Machine

/-! Ports (R159, R206). -/

/-- A lane begins in line mode: its groups are placed; a lane without its locks has LOL from the start. -/
def laneBegins (o : Otp) (d : Dev) (m : Nat) : Dev :=
  let l := lmLane d m
  let d := setLm m { l with syncAt := rawNow d, pm := { l.pm with partl := true } } d
  let d := placeGroup (192 + m) o (placeGroup (128 + m) o d)
  if (laneOf d m).lock then d else setDefect m 2 true d

/-- A lane leaves line mode: HUNT with cause 5, its defects cleared without an event, its groups and keys gone; TTI, test
mode and latched seconds stay (R192, R231, R236). -/
def laneEnds (d : Dev) (m : Nat) : Dev :=
  let d := toHunt m 5 d
  let l := lmLane d m
  let d := setLm m { LmLane.init with
    test := l.test, testNext := l.testNext, tti := l.tti, ttiNext := l.ttiNext, pm := { l.pm with partl := true } } d
  let d := dropGroup (192 + m) (dropGroup (128 + m) d)
  let d := (destroyObj (objKey 3 m) (destroyObj (objKey 2 m) d).2).2
  { d with kc := { d.kc with
    chains := tdel (tdel d.kc.chains (objKey 2 m)) (objKey 3 m), cellIn := tdel d.kc.cellIn m } }

def lmPortLanes (d : Dev) (p : Nat) : List Nat := match portOf d (lk 0 p) with | some q => portLanes p q | none => []

/-- A line port that can carry line mode: configured, with RS FEC, not bound in frame mode nor the path B of a pair. -/
def lmPortOk (o : Otp) (d : Dev) (p : Nat) : Bool :=
  decide (p < lanes o) && (match portOf d (lk 0 p) with | some q => q.fec != 0 | none => false) && !lineBound d p
    && !pathUsesLine d p

/-- DEDUCED (log 28). -/
def portEnable (p profile : Nat) (o : Otp) (d : Dev) : Dev :=
  let fresh := !inLineMode d p
  let d := { d with lm := { d.lm with ports := tset d.lm.ports p profile } }
  if fresh then defectsAndPaths (fun d => (lmPortLanes d p).foldl (laneBegins o) d) d else d

def cmdLmPortEnable : Cmd where
  code := 0x0400
  modes := runModes
  lenOk := lenIs 1
  bad := fun o d r => firstBad [(0, (rw r 0 &&& ~~~0x003F0003#32) == 0 && lmPortOk o d (rf r 0 21 16))]
  act := fun o d r => (portEnable (rf r 0 21 16) (rf r 0 1 0) o d, stOk, [])

def execLmPortEnable (r : NcsReq) (s : State) : Host.Outcome State Fault Refusal := run (command cmdLmPortEnable r) s

/-- DEDUCED (log 28). -/
def portDisable (p : Nat) (d : Dev) : Dev :=
  let d := (lmPortLanes d p).foldl laneEnds d
  { d with
    lm := { d.lm with ports := tdel d.lm.ports p }
    kc := { d.kc with cells := tdel d.kc.cells p, cellOut := tdel d.kc.cellOut p, msgIn := tdel d.kc.msgIn p } }

def cmdLmPortDisable : Cmd where
  code := 0x0401
  modes := runModes
  lenOk := lenIs 1
  bad := fun _ d r => firstBad [(0, (rw r 0 &&& ~~~0x003F0000#32) == 0 && inLineMode d (rf r 0 21 16))]
  busy := fun _ d r => (lmPortLanes d (rf r 0 21 16)).any (fun m =>
    (sheafOf d m).isSome || chainRuns d (fun k => 2 ≤ objKind k && objNum k == m))
  act := fun _ d r => (portDisable (rf r 0 21 16) d, stOk, [])

def execLmPortDisable (r : NcsReq) (s : State) : Host.Outcome State Fault Refusal := run (command cmdLmPortDisable r) s

/-! Sheaves (R187, R189, R207). -/

/-- M of a request: the field holds 0 to 63, so 64 is written as 0. -/
def reqM (r : NcsReq) : Nat := if rf r 0 21 16 = 0 then 64 else rf r 0 21 16

/-- Byte i of the lane list. -/
def reqLane (r : NcsReq) (i : Nat) : Nat := rf r (2 + i / 4) (8 * (i % 4) + 7) (8 * (i % 4))

/-- DEDUCED (log 25). -/
def reqMembers (r : NcsReq) : List Nat := (List.range (reqM r)).map (reqLane r)

/-- A member fits R187 beside the members before it. -/
def memberOk (o : Otp) (d : Dev) (r : NcsReq) (i : Nat) : Bool :=
  let m := reqLane r i
  if i < reqM r then
    decide (m < lanes o) && isLmLane d m && (sheafOf d m).isNone && laneType d m == laneType d (reqLane r 0)
      && !((reqMembers r).take i).contains m
  else m == 0

/-- DEDUCED (log 28). -/
def cmdLmSheafCreate : Cmd where
  code := 0x0402
  modes := runModes
  blank := false
  lenOk := fun r => r.len == 2 + (reqM r + 3) / 4
  bad := fun o d r => firstBad
    ([(0, (rw r 0 &&& ~~~0x003F03FF#32) == 0 && decide (reqM r ≤ lanes o) && (tget d.lm.sheaves (rf r 0 9 0)).isNone),
      (1, rf r 1 31 12 == 0 && decide (rf r 1 11 0 ≤ 4000) && (reqM r != 1 || rf r 1 11 0 == 0))]
     ++ (List.range ((reqM r + 3) / 4 * 4)).map (fun i => (2 + i / 4, memberOk o d r i)))
  act := fun _ d r =>
    (refit { d with lm := { d.lm with sheaves := tset d.lm.sheaves (rf r 0 9 0) ⟨rf r 1 11 0, reqMembers r, []⟩ } }, stOk, [])

def execLmSheafCreate (r : NcsReq) (s : State) : Host.Outcome State Fault Refusal := run (command cmdLmSheafCreate r) s

/-- A valid descriptor of one of the tables names a Sheaf. -/
def namesSheaf (d : Dev) (i : Nat) : Bool :=
  [d.lm.shadow, d.lm.txCopy, d.lm.rxCopy].any (fun t => t.any (fun c => descValid c.2 && descSheaf c.2 == i))

/-- The Sheaf goes, with what was still in force of clients unmapped before. -/
def sheafDelete (i : Nat) (d : Dev) : Dev :=
  let keep := fun (t : Table (List Word)) => t.filter (fun c => !(descValid c.2 && descSheaf c.2 == i))
  let d := match tget d.lm.sheaves i with | some s => skewRead s [] d | none => d
  refit { d with lm := { d.lm with
    sheaves := tdel d.lm.sheaves i, txNow := keep d.lm.txNow, rxNow := keep d.lm.rxNow
    uncommitted := d.lm.uncommitted.filter (· != i), commits := tdel d.lm.commits i } }

/-- DEDUCED (log 28). -/
def cmdLmSheafDelete : Cmd where
  code := 0x0403
  modes := runModes
  blank := false
  lenOk := lenIs 1
  bad := fun _ d r => firstBad [(0, rf r 0 31 10 == 0 && (tget d.lm.sheaves (rf r 0 9 0)).isSome)]
  busy := fun _ d r => namesSheaf d (rf r 0 9 0) || pathUsesSheaf d (rf r 0 9 0)
  act := fun _ d r => (sheafDelete (rf r 0 9 0) d, stOk, [])

def execLmSheafDelete (r : NcsReq) (s : State) : Host.Outcome State Fault Refusal := run (command cmdLmSheafDelete r) s

/-! Clients (R181, R185, R202, R208). -/

/-- A client port that a descriptor may name: configured, not bound in frame mode. -/
def clientPortOk (o : Otp) (d : Dev) (c : Nat) : Bool :=
  decide (c < lanes o) && (portOf d (lk 1 c)).isSome && !clientBound d c

/-- A Sheaf that a descriptor may name: not the Sheaf B of a pair (R377). -/
def mapSheafOk (d : Dev) (i : Nat) : Bool :=
  (tget d.lm.sheaves i).isSome && (match pathOfSheaf d i with | some (_, _, b) => !b | none => true)

/-- TYPE fits the kind of the client port. -/
def typeFits (d : Dev) (c typ : Nat) : Bool :=
  match portOf d (lk 1 c) with
  | some q => (typ == 1 && q.cbr) || (typ == 2 && !q.cbr)
  | none => false

/-- RATE of an Ethernet client is its port's speed. -/
def ethRateOk (d : Dev) (c rate : Nat) : Bool :=
  match portOf d (lk 1 c) with
  | some q => [25, 50, 100, 200, 400, 800, 1600].contains (portGbps q) && rate == portGbps q * 1000000
  | none => false

/-- N and F of a client. -/
def clientSlots (d : Dev) (i typ rate : Nat) : Option (Nat × Nat) :=
  if typ = 1 then some (cbrSlots (sheafType d i) rate) else (ethSlots (sheafType d i) rate).map (fun n => (n, 0))

/-- Slots of a Sheaf that valid shadow records of other clients than c take. -/
def slotTaken (d : Dev) (i c s : Nat) : Bool :=
  d.lm.shadow.any (fun x => x.1 != c && descValid x.2 && descSheaf x.2 == i && decide (descFirst x.2 ≤ s)
    && decide (s < descFirst x.2 + descN x.2))

def sheafSlots (d : Dev) (i : Nat) : Nat := match tget d.lm.sheaves i with | some s => 8 * s.members.length | none => 0

/-- The lowest run of n free slots. -/
def freeRun (d : Dev) (i c n : Nat) : Option Nat :=
  if n = 0 || sheafSlots d i < n then none
  else firstNat 0 (sheafSlots d i - n + 1) (fun f => (List.range n).all (fun k => !slotTaken d i c (f + k)))

/-- A descriptor record. -/
def descRecord (typ : Nat) (hold : Bool) (i rate first n f : Nat) : List Word :=
  [wd (2 ^ 31 + typ * 2 ^ 29 + flag hold 28 + i), wd rate, wd (first * 2 ^ 16 + n), wd f]

/-- A record goes into the shadow and both active copies. -/
def putRecord (c : Nat) (r : List Word) (d : Dev) : Dev :=
  { d with lm := { d.lm with
    shadow := tset d.lm.shadow c r, txCopy := tset d.lm.txCopy c r, rxCopy := tset d.lm.rxCopy c r } }

/-- The record that LM_CLIENT_MAP makes, where a run of slots is free. -/
def mapRecord (d : Dev) (r : NcsReq) : Option (List Word) :=
  let c := rf r 0 29 24
  let i := rf r 0 9 0
  match clientSlots d i (rf r 1 30 29) (rw r 2).toNat with
  | none => none
  | some (n, f) => (freeRun d i c n).map (fun a => descRecord (rf r 1 30 29) (bit (rw r 1) 28) i (rw r 2).toNat a n f)

/-- DEDUCED (log 28). -/
def cmdLmClientMap : Cmd where
  code := 0x0404
  modes := runModes
  blank := false
  lenOk := lenIs 3
  bad := fun o d r =>
    let c := rf r 0 29 24
    let rate := (rw r 2).toNat
    firstBad
      [(0, (rw r 0 &&& ~~~0x3F0003FF#32) == 0 && clientPortOk o d c && mapSheafOk d (rf r 0 9 0)
          && !(match tget d.lm.shadow c with | some x => descValid x | none => false)),
       (1, (rw r 1 &&& ~~~0x70000000#32) == 0 && typeFits d c (rf r 1 30 29)),
       (2, if rf r 1 30 29 = 2 then ethRateOk d c rate else decide (1 ≤ rate))]
  busy := fun _ d r => d.lm.uncommitted.contains (rf r 0 9 0)
  full := fun o d r => match mapRecord d r with
    | none => true
    | some x => !reservationsFit o (putRecord (rf r 0 29 24) x d)
  act := fun _ d r => match mapRecord d r with
    | none => (d, stNoResource, [])
    | some x => (partialSecond (rf r 0 29 24) (putRecord (rf r 0 29 24) x d), stOk, [x.getD 2 0, x.getD 3 0])

def execLmClientMap (r : NcsReq) (s : State) : Host.Outcome State Fault Refusal := run (command cmdLmClientMap r) s

/-- R202, R231: the record is cleared in all three copies, the client's own defects with it. -/
def clientUnmap (c : Nat) (d : Dev) : Dev :=
  let d := { d with lm := { d.lm with
    shadow := tdel d.lm.shadow c, txCopy := tdel d.lm.txCopy c, rxCopy := tdel d.lm.rxCopy c } }
  partialSecond c (setClient c { lmClient d c with declared := 0, jce := [], clean := 0 } d)

def shadowSheaf (d : Dev) (c : Nat) : Option Nat :=
  match tget d.lm.shadow c with | some x => if descValid x then some (descSheaf x) else none | none => none

def cmdLmClientUnmap : Cmd where
  code := 0x0405
  modes := runModes
  blank := false
  lenOk := lenIs 1
  bad := fun _ d r => firstBad [(0, (rw r 0 &&& ~~~0x3F000000#32) == 0 && (shadowSheaf d (rf r 0 29 24)).isSome)]
  busy := fun _ d r => match shadowSheaf d (rf r 0 29 24) with | some i => d.lm.uncommitted.contains i | none => false
  act := fun _ d r => (clientUnmap (rf r 0 29 24) d, stOk, [])

def execLmClientUnmap (r : NcsReq) (s : State) : Host.Outcome State Fault Refusal := run (command cmdLmClientUnmap r) s

/-! Status and trace (R209, R210). -/

/-- The six words of R209. The transmit words hold the counter of the lane's type whether or not the lane is in line
mode, type 0 where no port has it. DESIGN CHOICE (log 64). -/
def lmLaneWords (d : Dev) (m : Nat) : List Word :=
  let l := lmLane d m
  let tx := tgetD d.lm.txFc (laneType d m) (0, 0)
  let st := if l.sync then 2 else if l.trackers.isEmpty then 0 else 1
  let s := sheafOf d m
  let fc := if l.sync then l.fc else 0
  let skew := match s with
    | some (i, _) => if l.sync then (match tget d.lm.sheaves i with | some x => skewNs d x m | none => 0) else 0
    | none => 0
  [wd (st * 2 ^ 30 + huntNumber d m * 2 ^ 28 + flag l.test 27 + flag l.epoch.isSome 26 + flag s.isSome 25
     + (match s with | some (i, k) => i * 2 ^ 15 + k * 2 ^ 9 | none => 0) + m),
   wd (tx.2 * 2 ^ 16 + tx.1 / 2 ^ 32), lo32 tx.1, wd (l.epoch.getD 0 * 2 ^ 16 + fc / 2 ^ 32), lo32 fc,
   wd (min skew 0xFFFFFFFF)]

/-- DEDUCED (log 28). -/
def cmdLmLaneStatus : Cmd where
  code := 0x0406
  lenOk := lenIs 1
  bad := fun o _ r => firstBad [(0, rf r 0 31 6 == 0 && decide (rf r 0 5 0 < lanes o))]
  act := fun _ d r => (d, stOk, lmLaneWords d (rf r 0 5 0))

def execLmLaneStatus (r : NcsReq) (s : State) : Host.Outcome State Fault Refusal := run (command cmdLmLaneStatus r) s

def cmdLmTraceSet : Cmd where
  code := 0x0407
  modes := runModes
  blank := false
  lenOk := lenIs 17
  bad := fun _ d r => firstBad [(0, rf r 0 31 6 == 0 && isLmLane d (rf r 0 5 0))]
  act := fun _ d r =>
    (setLm (rf r 0 5 0) { lmLane d (rf r 0 5 0) with ttiNext := some (payloadBytes r 1 64) } d, stOk, [])

def execLmTraceSet (r : NcsReq) (s : State) : Host.Outcome State Fault Refusal := run (command cmdLmTraceSet r) s

/-- DEDUCED (log 28). -/
def cmdLmTraceGet : Cmd where
  code := 0x0408
  blank := false
  lenOk := lenIs 1
  bad := fun o _ r => firstBad [(0, rf r 0 30 6 == 0 && decide (rf r 0 5 0 < lanes o))]
  act := fun _ d r =>
    let l := lmLane d (rf r 0 5 0)
    let t := if bit (rw r 0) 31 then l.ttiAcc else l.tti
    (d, stOk, beWords (t ++ zeros (64 - t.length)))

def execLmTraceGet (r : NcsReq) (s : State) : Host.Outcome State Fault Refusal := run (command cmdLmTraceGet r) s

/-! Descriptors (R201, R203, R211). -/

/-- The record of a request. -/
def reqRecord (r : NcsReq) : List Word := (List.range 4).map (fun i => rw r (i + 1))

/-- The checks of R201, by payload word; a CBR record with RATE 0 is refused. DESIGN CHOICE (log 64). -/
def recordChecks (o : Otp) (d : Dev) (c : Nat) (x : List Word) : List (Nat × Bool) :=
  let v := descValid x
  let typ := fld (x.getD 0 0) 30 29
  let i := descSheaf x
  [(0, decide (c < lanes o) && (!v || clientPortOk o d c)),
   (1, fld (x.getD 0 0) 27 10 == 0 && (!v || (mapSheafOk d i && typeFits d c typ))),
   (2, !v || (if typ = 2 then ethRateOk d c (descRate x) else decide (1 ≤ descRate x))),
   (3, fld (x.getD 2 0) 31 25 == 0 && fld (x.getD 2 0) 15 10 == 0
      && (!v || (decide (1 ≤ descN x) && decide (descN x ≤ 512) && decide (descFirst x + descN x ≤ sheafSlots d i)
          && (List.range (descN x)).all (fun k => !slotTaken d i c (descFirst x + k))))),
   (4, fld (x.getD 3 0) 31 10 == 0 && (!v || (decide (descF x ≤ 1015) && (typ != 2 || descF x == 0))))]

/-- The shadow takes a record; the Sheaves it leaves and enters have uncommitted writes, also where one direction of a
commit has swapped before (R203). -/
def descWrite (c : Nat) (x : List Word) (d : Dev) : Dev :=
  let is := (shadowSheaf d c).toList ++ (if descValid x then [descSheaf x] else [])
  let mark := fun (k : DescCommit) => if k.tx.isNone || k.rx.isNone then { k with late := true } else k
  { d with lm := { d.lm with
    shadow := tset d.lm.shadow c x, uncommitted := is.foldl (fun l i => addNat i l) d.lm.uncommitted
    commits := is.foldl (fun t i => tmod t i mark) d.lm.commits } }

def cmdLmDescWrite : Cmd where
  code := 0x0410
  expert := true
  modes := runModes
  blank := false
  lenOk := lenIs 5
  bad := fun o d r => firstBad ((0, rf r 0 31 6 == 0) :: recordChecks o d (rf r 0 5 0) (reqRecord r))
  full := fun o d r => !reservationsFit o (descWrite (rf r 0 5 0) (reqRecord r) d)
  act := fun _ d r => (descWrite (rf r 0 5 0) (reqRecord r) d, stOk, [])

def execLmDescWrite (r : NcsReq) (s : State) : Host.Outcome State Fault Refusal := run (command cmdLmDescWrite r) s

def cmdLmDescRead : Cmd where
  code := 0x0411
  expert := true
  blank := false
  lenOk := lenIs 1
  bad := fun o _ r => firstBad [(0, rf r 0 29 6 == 0 && decide (rf r 0 31 30 ≤ 2) && decide (rf r 0 5 0 < lanes o))]
  act := fun _ d r =>
    let t := match rf r 0 31 30 with | 0 => d.lm.shadow | 1 => d.lm.txCopy | _ => d.lm.rxCopy
    (d, stOk, tgetD t (rf r 0 5 0) [0, 0, 0, 0])

def execLmDescRead (r : NcsReq) (s : State) : Host.Outcome State Fault Refusal := run (command cmdLmDescRead r) s

/-- A target lies from 2 to 65,536 superframes after the current one, modulo 2^40. -/
def targetOk (cur t : Nat) : Bool :=
  let n := (t + 2 ^ 40 - cur % 2 ^ 40) % 2 ^ 40
  decide (2 ≤ n) && decide (n ≤ 65536)

/-- The received superframe of the member that is furthest. -/
def rxSuperframe (d : Dev) (s : Sheaf) : Nat :=
  match s.members with
  | [] => 0
  | m :: ms => ms.foldl (fun a x => if 0 < fcDiff (lmLane d x).fc a then (lmLane d x).fc else a) (lmLane d m).fc / 256

def reqTarget (r : NcsReq) (i : Nat) : Nat := rf r i 7 0 * 2 ^ 32 + (rw r (i + 1)).toNat

/-- DEDUCED (log 28). -/
def cmdLmDescCommit : Cmd where
  code := 0x0412
  expert := true
  modes := runModes
  blank := false
  lenOk := lenIs 5
  bad := fun _ d r =>
    let i := rf r 0 9 0
    match tget d.lm.sheaves i with
    | none => some 0
    | some s =>
      let sync := s.members.all (fun m => (lmLane d m).sync)
      firstBad
        [(0, rf r 0 31 10 == 0),
         (1, rf r 1 31 8 == 0 && targetOk ((tgetD d.lm.txFc (sheafType d i) (0, 0)).1 / 256) (reqTarget r 1)),
         (3, rf r 3 31 8 == 0 && (!sync || targetOk (rxSuperframe d s) (reqTarget r 3)))]
  busy := fun _ d r => match tget d.lm.sheaves (rf r 0 9 0) with
    | some s => s.members.any (fun m => !(lmLane d m).sync)
    | none => false
  act := fun _ d r =>
    let c : DescCommit := ⟨some (reqTarget r 1), some (reqTarget r 3), false⟩
    ({ d with lm := { d.lm with commits := tset d.lm.commits (rf r 0 9 0) c } }, stOk, [])

def execLmDescCommit (r : NcsReq) (s : State) : Host.Outcome State Fault Refusal := run (command cmdLmDescCommit r) s

/-! Hunt profiles and test mode (R212, R213). -/

def cmdLmHuntWrite : Cmd where
  code := 0x0413
  expert := true
  modes := runModes
  blank := false
  lenOk := lenIs 2
  bad := fun _ _ r => firstBad
    [(0, rf r 0 31 2 == 0),
     (1, (rw r 1 &&& ~~~0x00FF0FFF#32) == 0 && hLoss (rw r 1) != 0 && hMiss (rw r 1) != 0 && hConfirm (rw r 1) != 0)]
  act := fun _ d r => ({ d with lm := { d.lm with hunt := tset d.lm.hunt (rf r 0 1 0) (rw r 1) } }, stOk, [])

def execLmHuntWrite (r : NcsReq) (s : State) : Host.Outcome State Fault Refusal := run (command cmdLmHuntWrite r) s

def cmdLmHuntRead : Cmd where
  code := 0x0414
  expert := true
  blank := false
  lenOk := lenIs 1
  bad := fun _ _ r => firstBad [(0, rf r 0 31 2 == 0)]
  act := fun _ d r => (d, stOk, [huntWord d (rf r 0 1 0)])

def execLmHuntRead (r : NcsReq) (s : State) : Host.Outcome State Fault Refusal := run (command cmdLmHuntRead r) s

/-- Permitted only in DEPLOYED (R213, R236). -/
def onlyDeployed (o : Otp) : Option Nat := if o.life = .deployed then none else some 4

def cmdLmTestMode : Cmd where
  code := 0x0415
  expert := true
  modes := runModes
  blank := false
  lenOk := lenIs 1
  forbids := fun o _ _ => onlyDeployed o
  bad := fun _ d r => firstBad [(0, rf r 0 30 6 == 0 && isLmLane d (rf r 0 5 0))]
  act := fun _ d r =>
    (setLm (rf r 0 5 0) { lmLane d (rf r 0 5 0) with testNext := some (bit (rw r 0) 31) } d, stOk, [])

def execLmTestMode (r : NcsReq) (s : State) : Host.Outcome State Fault Refusal := run (command cmdLmTestMode r) s

/-! The instants of R216. Each acts where its criterion has held as long as R216 asks. -/

def lofSet (d : Dev) : Nat := fld d.lm.prm0 23 16
def lofClr (d : Dev) : Nat := fld d.lm.prm0 31 24

/-- What a defect's criterion asks of a lane, and since when it has held: n frame periods or cc. -/
def losHolds (present : Bool) (n : Nat) (d : Dev) (m : Nat) : Bool :=
  (laneOf d m).signal == present && decide ((laneOf d m).signalAt + n ≤ rawNow d)
def lockHolds (d : Dev) (m : Nat) : Bool := (laneOf d m).lock && decide ((laneOf d m).lockAt + 175000 ≤ rawNow d)
def syncHolds (sync : Bool) (n : Nat) (d : Dev) (m : Nat) : Bool :=
  (lmLane d m).sync == sync && periodsSince d (laneType d m) n (lmLane d m).syncAt
def epochUnknown (d : Dev) (m : Nat) : Bool := (lmLane d m).epoch.isNone && syncHolds true 256 d m
def fitHolds (fit : Bool) (n : Nat) (d : Dev) (m : Nat) : Bool :=
  fitOf d m == some fit && (lmLane d m).fit == some fit && periodsSince d (laneType d m) n (lmLane d m).fitAt

/-- Declare or clear a lane defect where its criterion holds. -/
def defectRow (code : Nat) (on : Bool) (cond : Dev → Nat → Bool) (lane dt : Nat) (_ : Otp) (d : Dev) : Dev :=
  let d := passTime dt d
  if isLmLane d lane && cond d lane then defectsAndPaths (setDefect lane code on) d else d

def execLosDeclare (lane : Timed) (s : State) : Host.Outcome State Fault Refusal :=
  run (defectRow 1 true (losHolds false 3500) lane.val lane.dt) s
def execLosClear (lane : Timed) (s : State) : Host.Outcome State Fault Refusal :=
  run (defectRow 1 false (losHolds true 175000) lane.val lane.dt) s
def execLolClear (lane : Timed) (s : State) : Host.Outcome State Fault Refusal :=
  run (defectRow 2 false lockHolds lane.val lane.dt) s
def execLofDeclare (lane : Timed) (s : State) : Host.Outcome State Fault Refusal :=
  run (fun o d => defectRow 3 true (syncHolds false (lofSet d)) lane.val lane.dt o d) s
def execLofClear (lane : Timed) (s : State) : Host.Outcome State Fault Refusal :=
  run (fun o d => defectRow 3 false (syncHolds true (lofClr d)) lane.val lane.dt o d) s
def execLosfDeclare (lane : Timed) (s : State) : Host.Outcome State Fault Refusal :=
  run (defectRow 4 true epochUnknown lane.val lane.dt) s
def execLoaDeclare (lane : Timed) (s : State) : Host.Outcome State Fault Refusal :=
  run (defectRow 5 true (fitHolds false 8) lane.val lane.dt) s
def execLoaClear (lane : Timed) (s : State) : Host.Outcome State Fault Refusal :=
  run (defectRow 5 false (fitHolds true 64) lane.val lane.dt) s

/-! Defect and counter commands (R233 to R236). -/

/-- The active receive record of a client port. -/
def activeRx (d : Dev) (c : Nat) : Option (List Word) :=
  match tget d.lm.rxCopy c with | some x => if descValid x then some x else none | none => none

/-- An object word of R233 names an object that is there. -/
def objHere (d : Dev) (w : Word) : Bool :=
  if bit w 31 then (activeRx d (fld w 5 0)).isSome else isLmLane d (fld w 5 0)

/-- The three words of R233. -/
def defectWords (d : Dev) (w : Word) : List Word :=
  let n := fld w 5 0
  if bit w 31 then
    let dec := clientDeclared d n ((activeRx d n).getD [])
    [wd dec, wd (reported dec), wd (primary dec * 2 ^ 16 + b1 ((lmClient d n).replaced && trafficOn d))]
  else
    let l := lmLane d n
    [wd l.declared, wd (reported l.declared), wd (flag l.farBdi 31 + l.farBdc * 2 ^ 24 + primary l.declared * 2 ^ 16)]

def cmdLmDefectGet : Cmd where
  code := 0x0440
  lenOk := lenIs 1
  bad := fun _ d r => firstBad [(0, rf r 0 30 6 == 0 && objHere d (rw r 0))]
  act := fun _ d r => (d, stOk, defectWords d (rw r 0))

def execLmDefectGet (r : NcsReq) (s : State) : Host.Outcome State Fault Refusal := run (command cmdLmDefectGet r) s

/-- The words of R234. -/
def pmWords (d : Dev) (w : Word) : List Word :=
  let n := fld w 5 0
  let p := if bit w 31 then (lmClient d n).pm else (lmLane d n).pm
  let k := if bit w 31 then 8 else 5
  let show' := fun (tag : Nat) (held : Bool) (part : Bool) (ovf : Nat) (acc : List Nat) (map : Nat) =>
    [wd (tag / 2 ^ 32 % 65536), lo32 tag, wd (flag held 31 + flag part 30 + ovf)]
      ++ (List.range k).map (fun i => wd (acc.getD i 0)) ++ [wd map]
  if bit w 30 then show' (secOf (timeNow d)) false p.partl p.ovf p.acc p.map
  else match p.hist[fld w 26 24]? with
    | some s => show' s.tag true s.partl s.ovf s.acc s.map
    | none => show' 0 false false 0 [] 0

def cmdLmPmGet : Cmd where
  code := 0x0441
  lenOk := lenIs 1
  bad := fun _ d r => firstBad [(0, (rw r 0 &&& ~~~0xC700003F#32) == 0 && objHere d (rw r 0))]
  act := fun _ d r => (d, stOk, pmWords d (rw r 0))

def execLmPmGet (r : NcsReq) (s : State) : Host.Outcome State Fault Refusal := run (command cmdLmPmGet r) s

def cmdLmDefectParamWrite : Cmd where
  code := 0x0450
  expert := true
  modes := runModes
  blank := false
  lenOk := lenIs 2
  bad := fun _ _ r => firstBad
    [(0, rf r 0 31 24 != 0 && rf r 0 23 16 != 0 && rf r 0 15 12 == 0 && rf r 0 11 0 != 0),
     (1, rf r 1 31 8 == 0 && rf r 1 7 4 != 0 && rf r 1 3 0 != 0)]
  act := fun _ d r => ({ d with lm := { d.lm with prm0 := rw r 0, prm1 := rw r 1 } }, stOk, [])

def execLmDefectParamWrite (r : NcsReq) (s : State) : Host.Outcome State Fault Refusal := run (command cmdLmDefectParamWrite r) s

def cmdLmDefectParamRead : Cmd where
  code := 0x0451
  expert := true
  blank := false
  lenOk := lenIs 0
  act := fun _ d _ => (d, stOk, [d.lm.prm0, d.lm.prm1])

def execLmDefectParamRead (r : NcsReq) (s : State) : Host.Outcome State Fault Refusal := run (command cmdLmDefectParamRead r) s

def cmdLmMaintSet : Cmd where
  code := 0x0452
  expert := true
  modes := runModes
  blank := false
  lenOk := lenIs 1
  forbids := fun o _ _ => onlyDeployed o
  bad := fun _ d r => firstBad [(0, rf r 0 29 6 == 0 && isLmLane d (rf r 0 5 0))]
  act := fun _ d r =>
    (setLm (rf r 0 5 0) { lmLane d (rf r 0 5 0) with forceAis := bit (rw r 0) 31, forceBdi := bit (rw r 0) 30 } d, stOk, [])

def execLmMaintSet (r : NcsReq) (s : State) : Host.Outcome State Fault Refusal := run (command cmdLmMaintSet r) s

/-! One-second counters (R227, R228). -/

/-- A second is latched with its tag; the next one begins with the bits that stand now. DEDUCED (log 29). -/
def latchPm (tag now : Nat) (part : Bool) (p : Pm) : Pm :=
  { acc := [], ovf := 0, map := now, hist := (⟨tag, p.partl || part, p.ovf, p.acc, p.map⟩ :: p.hist).take 8, partl := false }

/-- Every accumulator of the device is latched (R227); `part` says that the second did not run whole (R228).
DEDUCED (log 28). -/
def latchAll (tag : Nat) (part : Bool) (d : Dev) : Dev :=
  let ls := d.lm.lanes.filter (fun l => isLmLane d l.1 || l.2.pm.partl)
  let cs := d.lm.clients.filter (fun c => (activeRx d c.1).isSome || c.2.pm.partl)
  if ls.isEmpty && cs.isEmpty then d
  else
    let anyPart := part || ls.any (·.2.pm.partl) || cs.any (·.2.pm.partl)
    let anyOvf := ls.any (·.2.pm.ovf != 0) || cs.any (·.2.pm.ovf != 0)
    let d := ls.foldl (fun d l =>
      let now := reported l.2.declared + (if l.2.farBdi then 2 ^ 16 else 0)
      setLm l.1 { l.2 with pm := latchPm tag now part l.2.pm } d) d
    let d := cs.foldl (fun d c =>
      let now := match activeRx d c.1 with | some r => reported (clientDeclared d c.1 r) | none => 0
      setClient c.1 { c.2 with pm := latchPm tag now part c.2.pm } d) d
    emit 0 0x04C2 (lo32 tag) (wd (flag anyOvf 1 + b1 anyPart)) d

end Sys2Proof.Machine
end

