-- ==== Sys2Proof/Machine/Entropy.lean ====
section
/-!
DEFINITION. The entropy sources and the DRBG (R246 to R248, R263): the continuous tests of a source, its samples, the
instances' seeds, the events of the sources.
-/
namespace Sys2Proof.Machine

/-! The continuous tests (R247). -/

/-- Cutoff of the repetition count test, window of the adaptive proportion test. -/
def rctCutoff : Nat := 41
def aptWindow : Nat := 1024

/-- The cutoff that SP 800-90B prescribes: 1 + the critical value of the binomial distribution of 1,024 samples with
p = 2^-H, H = 0.5, at 1 - 2^-20. DEDUCED (log 62). -/
def aptCutoff : Nat := 793

/-- A further sample: the tests after it, and which one fails, 1 repetition count, 2 adaptive proportion, 0 none. -/
def Health.sample (h : Health) (b : Bool) : Health × Nat :=
  let run := if h.run != 0 && b == h.last then h.run + 1 else 1
  let ref := if h.seen = 0 then b else h.ref
  let same := if h.seen = 0 then 1 else if b == h.ref then h.same + 1 else h.same
  let fail := if rctCutoff ≤ run then 1 else if aptCutoff ≤ same then 2 else 0
  (⟨b, run, ref, (h.seen + 1) % aptWindow, same⟩, fail)

/-- Samples one after the other, up to the first failure. -/
def Health.samples : Health → List Bool → Health × Nat
  | h, [] => (h, 0)
  | h, b :: t =>
    let r := h.sample b
    if r.2 = 0 then r.1.samples t else r

/-- The start-up test: both tests over 1,024 consecutive samples. -/
def startupOk (bs : List Bool) : Bool :=
  decide (aptWindow ≤ bs.length) && (Health.init.samples (bs.take aptWindow)).2 == 0

/-! The sources (R248). -/

/-- EVT_RNG_HEALTH. -/
def rngEvent (failed : Bool) (test source : Nat) (d : Dev) : Dev :=
  emit 0 0x06E2 (wd (flag failed 16 + test * 2 ^ 8 + source)) (wd d.sl.sinceReseed) d

def sourceOf (d : Dev) (i : Nat) : Source := if i = 0 then d.sl.source0 else d.sl.source1
def setSource (i : Nat) (x : Source) (d : Dev) : Dev :=
  if i = 0 then { d with sl := { d.sl with source0 := x } } else { d with sl := { d.sl with source1 := x } }

/-- A source after a continuous test failed: its samples since the last reseed are discarded, it restarts. -/
def Source.restart (x : Source) (test : Nat) : Source :=
  { x with
    state := 1, fails := 0, health := Health.init, pool := []
    rct := if test = 1 then satInc 16 x.rct else x.rct
    apt := if test = 1 then x.apt else satInc 16 x.apt }

/-- Samples of a source arrive: a healthy one keeps them for the next reseed unless a test fails on them.
DESIGN CHOICE (log 33). -/
def takeSamples (i : Nat) (bs : List Bool) (d : Dev) : Dev :=
  let x := sourceOf d i
  let r := x.health.samples bs
  if x.state != 0 || i > 1 || !d.sl.keyDrbg.up then d
  else if r.2 = 0 then setSource i { x with health := r.1, pool := x.pool ++ bs } d
  else rngEvent false r.2 i (setSource i (x.restart r.2) d)

def execEntropyTestFail (source : Nat) (samples : List Bool) (s : State) : Host.Outcome State Fault Refusal :=
  run (fun _ d => takeSamples source samples d) s

/-- A restarted source ends its start-up test; the third failure in a row marks it failed. -/
def startupTest (i : Nat) (bs : List Bool) (_ : Otp) (d : Dev) : Dev :=
  let x := sourceOf d i
  if i ≤ 1 && x.state = 1 then
    if startupOk bs then setSource i { x with state := 0, fails := 0 } d
    else if x.fails + 1 < 3 then setSource i { x with fails := x.fails + 1 } d
    else rngEvent true 3 i (setSource i { x with state := 2, fails := 3 } d)
  else d

def execSourceStartupTestDone (source : Nat) (samples : List Bool) (s : State) : Host.Outcome State Fault Refusal :=
  run (startupTest source samples) s

/-! The seeds of the instances (R246, R247). -/

/-- Samples as bytes, the first one most significant. -/
def packBits : List Bool → Bytes
  | a :: b :: c :: d :: e :: f :: g :: h :: t =>
    BitVec.ofNat 8 ([a, b, c, d, e, f, g, h].foldl (fun n x => 2 * n + (if x then 1 else 0)) 0) :: packBits t
  | _ => []

/-- n samples of a source from place k of those since the last reseed; what it has not brought yet is free.
DESIGN CHOICE (log 33). -/
def poolSamples (i k n : Nat) (d : Dev) : List Bool × Dev :=
  let got := ((sourceOf d i).pool.drop k).take n
  let m := n - got.length
  let x := draw m d
  (got ++ (List.range m).map (fun j => x.1.getLsbD j), x.2)

/-- The entropy input of the key instance, 0, or of the line instance, 1: 1,024 samples of each source where both are
healthy, else 2,048 of the healthy one; each instance takes its own. DEDUCED (log 62). -/
def entropyInput (k : Nat) (d : Dev) : Bytes × Dev :=
  let ok := [0, 1].filter (fun i => (sourceOf d i).state == 0)
  let n := if ok.length = 2 then 1024 else 2048
  let r := ok.foldl (fun (a : List Bool × Dev) i =>
    let x := poolSamples i (k * n) n a.2
    (a.1 ++ x.1, x.2)) ([], d)
  (packBits r.1, r.2)

/-- One instance is reseeded: its count of requests restarts. -/
def reseedDrbg (line : Bool) (d : Dev) : Dev :=
  let e := entropyInput (if line then 1 else 0) d
  let x := drbgOf line e.2
  setDrbg line { x with work := x.work.reseed e.1, requests := 0 } e.2

/-- The samples since the last reseed start anew. -/
def emptyPools (d : Dev) : Dev :=
  { d with sl := { d.sl with
    source0 := { d.sl.source0 with pool := [] }, source1 := { d.sl.source1 with pool := [] } } }

/-- The reseed instant: both instances are reseeded from the samples of the tick where a source is healthy, otherwise
the reseed is skipped (R247, R248). -/
def drbgReseed (_ : Otp) (d : Dev) : Dev :=
  if d.sl.keyDrbg.up && (d.sl.source0.state = 0 || d.sl.source1.state = 0) then
    let d := emptyPools (reseedDrbg true (reseedDrbg false d))
    { d with sl := { d.sl with sinceReseed := 0 } }
  else d

def execDrbgReseed (s : State) : Host.Outcome State Fault Refusal := run drbgReseed s

/-- An instance is instantiated from the start-up samples of the sources that passed and a free nonce.
DESIGN CHOICE (log 33). -/
def instantiate (line : Bool) (seed : Bytes) (d : Dev) : Dev :=
  let n := drawBytes 32 d
  setDrbg line ⟨true, DrbgKey.instantiate (seed ++ n.1), 0⟩ n.2

/-- The start-up tests of a start, and the instances with what passed (R94 step 3, R248). -/
def startNoise (s0 s1 : List Bool) (d : Dev) : Dev :=
  let source := fun (bs : List Bool) =>
    { Source.init with state := if startupOk bs then 0 else 2, fails := if startupOk bs then 0 else 1 }
  let seed := fun (bs : List Bool) => if startupOk bs then packBits (bs.take aptWindow) else []
  let d := { d with sl := { d.sl with
    source0 := source s0, source1 := source s1
    startFail := if startupOk s0 then (if startupOk s1 then none else some 1) else some 0 } }
  let all := seed s0 ++ seed s1
  instantiate true all (instantiate false all d)

/-- An instance has reached its reseed interval of 2^32 - 1 generate requests (R247, R248). -/
def intervalReached (d : Dev) : Bool :=
  decide (2 ^ 32 - 1 ≤ d.sl.keyDrbg.requests) || decide (2 ^ 32 - 1 ≤ d.sl.lineDrbg.requests)

def cmdRngStatus : Cmd where
  code := 0x0662
  smb := true
  lenOk := lenIs 0
  act := fun _ d _ =>
    let s0 := d.sl.source0
    let s1 := d.sl.source1
    (d, stOk, [wd (flag d.sl.lineDrbg.up 9 + flag d.sl.keyDrbg.up 8 + s1.state * 4 + s0.state),
      wd (s0.rct * 2 ^ 16 + s0.apt), wd (s1.rct * 2 ^ 16 + s1.apt), wd d.sl.sinceReseed, wd d.sl.keyDrbg.requests])

def execRngStatus (r : NcsReq) (s : State) : Host.Outcome State Fault Refusal := run (command cmdRngStatus r) s

end Sys2Proof.Machine
end

