-- ==== Sys2Proof/Machine/Tamper.lean ====
section
/-!
DEFINITION. Tamper and environment monitors (chapter 17): sources and their responses, the double decisions,
flags and log, the authorised unlock, the TAMP_ registers and commands.
-/
namespace Sys2Proof.Machine

/-! Sources (R541, R543). -/

/-- Power state of a log entry: 0 main power, 1 DORMANT, 2 VBAT alone (R549). -/
def powerCode (d : Dev) : Nat :=
  match d.sys.phase with
  | .off => 2
  | .dormant => 1
  | _ => 0

/-- A source is watched in a power state (R541). -/
def watched (p i : Nat) : Bool :=
  match p with
  | 0 => decide (i < 12)
  | 1 => [0, 1, 2, 3, 5, 6, 7, 9, 11].contains i
  | _ => [0, 1, 2, 5, 6, 11].contains i

/-- A source can fire: it exists, is not fused off, is watched now, and the always-on domain has power.
DESIGN CHOICE (log 55). -/
def canFire (o : Otp) (d : Dev) (i : Nat) : Bool :=
  decide (i < 12) && !o.fused.getLsbD i && watched (powerCode d) i && d.sys.aoGood

/-! The log (R549, R563). -/

/-- MODE in a log entry: 0 in DORMANT, on VBAT and during a start. -/
def entryMode (d : Dev) : Nat :=
  match d.sys.phase with
  | .up | .sleeping => modeCode d
  | _ => 0

/-- EVT_TAMPER of a log entry. -/
def tamperEvent (e : TampEntry) (d : Dev) : Dev :=
  emit 0 0x0D80 (wd (fld e.w0 27 24 * 2 ^ 24 + fld e.w0 11 0)) e.rtc d

/-- A log entry is made; kinds 1, 2 and 4 are reported now, or after the next mode entry (R563). DEDUCED (log 49). -/
def logEntry (kind resp sources detectors : Nat) (d : Dev) : Dev :=
  let e : TampEntry := ⟨wd (kind * 2 ^ 28 + resp * 2 ^ 26 + powerCode d * 2 ^ 24 + entryMode d * 2 ^ 20 + sources),
    wd detectors, d.sys.rtc, d.tamp.seq + 1⟩
  let told := kind == 1 || kind == 2 || kind == 4
  let d := { d with tamp := { d.tamp with
    log := (e :: d.tamp.log).take 32, seq := e.seq, lastRtc := e.rtc
    later := if told && d.sys.phase != .up then d.tamp.later ++ [e] else d.tamp.later } }
  if told && d.sys.phase == .up && d.sb.up then tamperEvent e d else d

/-- The firmware copies new entries into the flash ring, the newest first (R549). Entries that are provisional wait
for their numbers. -/
def copyLog (d : Dev) : Dev :=
  let fresh := d.tamp.log.filter (fun e => !d.tamp.ring.contains e)
  { d with tamp := { d.tamp with ring := (fresh ++ d.tamp.ring).take 4096 } }

def logCopy (_ : Otp) (d : Dev) : Dev :=
  if d.sys.phase == .up && d.sb.up && d.sys.aoGood && !d.tamp.provisional then copyLog d else d

def execTamperLogCopy (s : State) : Host.Outcome State Fault Refusal := run logCopy s

/-! Responses (R544 to R546, R550). -/

/-- LOCK+ERASE overwrites every key; LOCK does not. -/
def eraseIf (resp : Nat) (d : Dev) : Dev := if resp = 3 then eraseKeys d else d

/-- The device is in a mode that LOCKED can follow. -/
def canLock (d : Dev) : Bool :=
  d.sys.phase == .up && (d.sys.mode == .staging || d.sys.mode == .secure || d.sys.mode == .service)

/-- The start was begun by an enabled wake source while a source that had fired in DORMANT waited for its second
decision: its cause is 0x08 all the same (R114). -/
def causeTamper (sources : Nat) (d : Dev) : Dev :=
  let old := if d.sys.startCause = 0x08 then d.sys.startData else 0
  if [0x05, 0x06, 0x07, 0x08].contains d.sys.startCause then
    { d with sys := { d.sys with
      startCause := 0x08, startData := old ||| wd sources, cause := if d.sys.cause = 0x21 then 0x21 else 0x08 } }
  else d

/-- A locking response outside STAGING, SECURE and SERVICE: a start will end in LOCKED, DORMANT is left. -/
def lockLater (resp sources : Nat) (asleep : Bool) (o : Otp) (d : Dev) : Dev :=
  match d.sys.phase with
  | .starting =>
    let d := if asleep then causeTamper sources d else d
    eraseIf resp { d with sys := { d.sys with startLocked := true }, ks := { d.ks with unwrapped := false } }
  | .sleeping =>
    let before := match d.sys.wakeLatch with | some (0x08, w) => w | _ => 0
    eraseIf resp { d with sys := { d.sys with wakeLatch := some (0x08, before ||| wd sources) } }
  | .dormant => beginStart 0x08 (wd sources) 2 o (eraseIf resp d)
  | _ => eraseIf resp d

/-- A LOCK or LOCK+ERASE acts, for a cause of R114, in whatever the device is doing. A device in DORMANT wakes. -/
def lockAct (resp cause : Nat) (data : Word) (sources : Nat) (asleep : Bool) (o : Otp) (d : Dev) : Otp × Dev :=
  let d := setLock true d
  if canLock d then
    let r := lockEntry cause data o d
    (r.1, eraseIf resp r.2)
  else (o, lockLater resp sources asleep o d)

/-- The random delay of a second decision in TU cycles: 0 to 63 cc from the key instance, or, asleep, as many periods
of the always-on 16 MHz oscillator by its own entropy (R547). -/
def secondDelay (asleep : Bool) (d : Dev) : Nat × Dev :=
  if asleep || !d.sl.keyDrbg.up then
    let r := draw 6 d
    (if asleep then (r.1.toNat * 1750 + 15) / 16 else r.1.toNat, r.2)
  else
    let r := keyBytes 1 d
    (beNat r.1 % 64, r.2)

/-- A source fires: its condition holds, the nonce is withdrawn, a pending unlock will fail. A LOG response acts at
once; a locking one waits for the second decision (R545 to R547, R551). DEDUCED (log 49). -/
def fire (i detectors : Nat) (selfTest : Bool) (o : Otp) (d : Dev) : Dev :=
  if !canFire o d i then d
  else
    let m := BitVec.ofNat 12 (2 ^ i)
    let withdraw := fun (u : Unlock) => { u with fired := true }
    let d := { d with tamp := { d.tamp with
      active := if selfTest then d.tamp.active else d.tamp.active ||| m, nonce := none
      unlock := d.tamp.unlock.map withdraw } }
    let resp := responseOf o d i
    if resp = 1 then
      logEntry (if selfTest then 4 else 1) 1 (2 ^ i) detectors
        (withHw (fun d => { d with tamp := { d.tamp with sticky := d.tamp.sticky ||| m, fired := d.tamp.fired ||| m } }) d)
    else
      let asleep := d.sys.phase == .dormant || d.sys.phase == .sleeping
      let x := secondDelay asleep d
      { x.2 with tamp := { x.2.tamp with
        decisions := x.2.tamp.decisions ++ [⟨i, detectors, resp, selfTest, asleep, rawNow d + x.1⟩] } }

/-- The detectors of source i that tripped, as in word 1 of an entry. -/
def detectorBits (i : Nat) (a b : Bool) : Nat := flag a (2 * i) + flag b (2 * i + 1)

def execTamperSourceFire (source : Nat) (a b : Bool) (s : State) : Host.Outcome State Fault Refusal :=
  run (fun o d => if a || b then fire source (detectorBits source a b) false o d else d) s

/-- The stimulus of R542: a detector that fails to respond fires its source. -/
def selfTest (failed : BitVec 24) (o : Otp) (d : Dev) : Dev :=
  (List.range 12).foldl (fun d i =>
    let n := respField failed i * 4 ^ i
    if n = 0 then d else fire i n true o d) d

def execDetectorSelfTest (failed : BitVec 24) (s : State) : Host.Outcome State Fault Refusal := run (selfTest failed) s

/-- The second decision on a source (R546, R547): flag, log entry, response. -/
def secondOnSource (i second : Nat) (o : Otp) (d : Dev) : Otp × Dev :=
  match d.tamp.decisions.find? (fun x => x.source == i && decide (x.due ≤ rawNow d)) with
  | none => (o, d)
  | some x =>
    let agree := second == x.response
    let resp := if agree then x.response else if x.response = 3 || second = 3 then 3 else 2
    let m := BitVec.ofNat 12 (2 ^ i)
    let d := withHw (fun d => { d with tamp := { d.tamp with
      decisions := d.tamp.decisions.erase x, sticky := d.tamp.sticky ||| m, fired := d.tamp.fired ||| m
      disagree := d.tamp.disagree || !agree } }) d
    let kind := if agree then (if x.selfTest then 4 else 1) else 2
    let d := logEntry kind resp (2 ^ i) x.detectors d
    if agree then lockAct resp 0x20 (wd (2 ^ i)) (2 ^ i) x.asleep o d else lockAct resp 0x21 (wd i) (2 ^ i) x.asleep o d

/-! The authorised unlock (R551 to R553). -/

def stNonceStale : Nat := 0x8D00
def stFlagsChanged : Nat := 0x8D01
def stTamperActive : Nat := 0x8D02

def unlockFinish (u : Unlock) (st : Nat) (w3 : Word) (d : Dev) : Dev :=
  finish u.page u.tag 0x0D03 st w3 { d with tamp := { d.tamp with unlock := none } }

/-- The way out of LOCKED (R553): keys are recovered and, after an erase, the Granary is initialised; the device enters
STAGING. -/
def unlockLeave (u : Unlock) (erased : Bool) (flags : Nat) (sealOk journalOk : Bool) (o : Otp) (ram : List Host.Cell)
    (d : Dev) : Otp × List Host.Cell × Dev :=
  let r := ksRecover sealOk journalOk o d
  let d := if erased then granaryInit r.1 r.2 else r.2
  let d := recoveryEvents r.1 (changeMode .staging 0x22 0 0 d)
  (r.1, if erased then [] else ram, unlockFinish u stOk (wd flags) d)

/-- The flags, the lock state and the erase mark clear, with their entry in the log. -/
def unlockClear (d : Dev) : Dev :=
  logEntry 3 0 d.tamp.sticky.toNat 0 { d with tamp := { d.tamp with sticky := 0, erased := false, lock := false } }

/-- An unlock that passes (R553): with a halt cause recorded the device enters HALTED, else it leaves LOCKED. -/
def unlockPass (u : Unlock) (sealOk journalOk : Bool) (o : Otp) (ram : List Host.Cell) (d : Dev) :
    Otp × List Host.Cell × Dev :=
  if d.sys.haltCause ≠ 0 then
    let d := unlockClear d
    (o, ram, goHalted d.sys.haltCause { d with tamp := { d.tamp with unlock := none } })
  else unlockLeave u d.tamp.erased d.tamp.sticky.toNat sealOk journalOk o ram (unlockClear d)

/-- A verdict's decisions disagree: the device stays LOCKED; the status is open (R547, R552). DEDUCED (log 49). -/
def unlockDisagree (u : Unlock) (d : Dev) : Dev :=
  let d := withHw (fun d => { d with tamp := { d.tamp with disagree := true } }) (logEntry 2 2 0 0 d)
  let st := draw 16 (changeMode .locked 0x21 0 0x21 d)
  unlockFinish u st.1.toNat 0 st.2

/-- The verdict's second decision: 1 agrees. Where the two disagree the device stays LOCKED (R547, R552). -/
def secondOnUnlock (second : Nat) (sealOk journalOk : Bool) (o : Otp) (ram : List Host.Cell) (d : Dev) :
    Otp × List Host.Cell × Dev :=
  match d.tamp.unlock with
  | none => (o, ram, d)
  | some u =>
    if !d.sb.up || !(d.sys.mode == .locked) || rawNow d < u.due then (o, ram, d)
    else if u.fired then (o, ram, unlockFinish u stFlagsChanged 0 d)
    else if u.verdict ≠ stOk then (o, ram, unlockFinish u u.verdict 0 d)
    else if second = 1 then unlockPass u sealOk journalOk o ram d
    else (o, ram, unlockDisagree u d)

/-- DEDUCED (log 49). -/
def secondDecision (what second : Nat) (sealOk journalOk : Bool) (dt : Nat) (o : Otp) (ram : List Host.Cell) (d : Dev) :
    Otp × List Host.Cell × Dev :=
  let d := passTime dt d
  if what = 0x21 then secondOnUnlock second sealOk journalOk o ram d
  else
    let dormant := d.sys.phase == .dormant
    let r := secondOnSource what second o d
    (r.1, if dormant && r.2.sys.phase == .starting then [] else ram, r.2)

def execTamperSecondDecision (what : Nat) (second : Timed) (sealOk journalOk : Bool) (s : State) :
    Host.Outcome State Fault Refusal :=
  runAll (secondDecision what second.val sealOk journalOk second.dt) s

/-- Length, fixed fields, method and identity of an unlock message (check 1 of R552). -/
def unlockForm (o : Otp) (m : Bytes) : Bool :=
  let method := beAt m 5 1
  decide (m.length = 96 + sigLen method) && beAt m 0 4 == 0x5A554E4C && beAt m 4 1 == 1 && decide (method ≤ 3)
    && beAt m 6 2 == 0 && beAt m 75 1 == 0 && beAt m 80 16 == 0 && decide (beAt m 72 2 < 4096)
    && (if o.life = .blank then method == 0 && beAt m 8 32 == 0 else method != 0 && slice m 8 32 == identityOf o)

/-- A source with a locking response has its condition holding. -/
def lockingActive (o : Otp) (d : Dev) : Bool :=
  (List.range 12).any (fun i => d.tamp.active.getLsbD i && decide (2 ≤ responseOf o d i))

/-- Flags, halt cause and newest sequence number are those acknowledged (check 4). -/
def unlockCurrent (d : Dev) (m : Bytes) : Bool :=
  beAt m 72 2 == d.tamp.sticky.toNat && beAt m 74 1 == d.sys.haltCause && beAt m 76 4 == d.tamp.seq.toNat

/-- The message of a TAMP_UNLOCK just accepted is checked (R552): a failure of checks 1 to 4 ends it; the verdict on
its signatures waits for its second decision. DEDUCED (log 49). -/
def unlockJudge (o : Otp) (r : NcsReq) (d : Dev) : Dev :=
  let m := r.buf.take (bufLen r 0)
  let stop := fun st => finish r.page r.tag 0x0D03 st 0 d
  if !unlockForm o m then stop stBadField
  else if lockingActive o d then stop stTamperActive
  else if !(d.tamp.nonce == some (slice m 40 32)) then stop stNonceStale
  else if !unlockCurrent d m then stop stFlagsChanged
  else
    let good := beAt m 5 1 == 0 || signedBy d (beAt m 5 1) 0 m
    let x := secondDelay false d
    { x.2 with tamp := { x.2.tamp with
      nonce := none
      unlock := some ⟨r.page, r.tag, d.tamp.sticky.toNat, if good then stOk else stAuthFail, false, rawNow d + x.1⟩ } }

def cmdTampUnlock : Cmd where
  code := 0x0D03
  modes := [.locked]
  event := true
  lenOk := lenIs 3
  bad := fun _ _ r => firstBad (bufBad r 0)
  busy := fun _ d _ => d.tamp.unlock.isSome
  act := fun _ d _ => (d, stAccepted, [])
  after := fun o r _ d => unlockJudge o r d

def execTampUnlock (r : NcsReq) (s : State) : Host.Outcome State Fault Refusal := run (command cmdTampUnlock r) s

def cmdTampNonceGet : Cmd where
  code := 0x0D02
  modes := [.locked]
  lenOk := lenIs 0
  act := fun _ d _ =>
    let k := keyBytes 32 d
    ({ k.2 with tamp := { k.2.tamp with nonce := some k.1, nonceAt := rawNow d } }, stOk, bytesWords 8 k.1)

def execTampNonceGet (r : NcsReq) (s : State) : Host.Outcome State Fault Refusal := run (command cmdTampNonceGet r) s

/-- 600 s have passed since the nonce was given (R551). -/
def nonceExpiry (_ : Otp) (d : Dev) : Dev :=
  if d.tamp.nonceAt + usCycles 600000000 ≤ rawNow d then { d with tamp := { d.tamp with nonce := none } } else d

/-- DESIGN CHOICE (log 3). -/
def execUnlockNonceExpiry (s : State) : Host.Outcome State Fault Refusal := run nonceExpiry s

/-! Registers (R555). -/

def conditionCleared (i : Nat) (_ : Otp) (d : Dev) : Dev :=
  { d with tamp := { d.tamp with active := d.tamp.active &&& ~~~(BitVec.ofNat 12 (2 ^ i)) } }

def execTamperConditionCleared (source : Nat) (s : State) : Host.Outcome State Fault Refusal :=
  run (conditionCleared source) s

def tampEventWord (d : Dev) : Word := wd (flag d.tamp.disagree 16 + d.tamp.fired.toNat)

/-- A read of TAMP_EVENT returns it and clears it. -/
def tampEventRead (_ : Otp) (d : Dev) : Dev :=
  if reachable d 0 then out (.readValue (tampEventWord d)) { d with tamp := { d.tamp with fired := 0, disagree := false } } else d

def execTampEventRead (s : State) : Host.Outcome State Fault Refusal := run tampEventRead s

def tampStatusWord (d : Dev) : Word :=
  wd (flag (d.sys.mode == .locked) 31 + flag d.tamp.erased 30 + flag (d.sys.haltCause != 0) 29 + flag d.tamp.minOnly 28
    + flag d.tamp.nonce.isSome 27 + d.sys.haltCause)

/-- DESIGN CHOICE (log 55). -/
def tampResponseWord (o : Otp) (d : Dev) : Word := wd (((List.range 12).map (fun i => responseOf o d i * 4 ^ i)).sum)

def tampWords (o : Otp) (d : Dev) : List Word :=
  [tampStatusWord d, wd d.tamp.sticky.toNat, wd d.tamp.active.toNat, wd o.fused.toNat, tampResponseWord o d, d.tamp.seq]

def cmdTampStatusGet : Cmd where
  code := 0x0D00
  smb := true
  lenOk := lenIs 0
  act := fun o d _ => (d, stOk, tampWords o d)

def execTampStatusGet (r : NcsReq) (s : State) : Host.Outcome State Fault Refusal := run (command cmdTampStatusGet r) s

/-- Entries in the always-on domain and in flash together, the newest first. -/
def wholeLog (d : Dev) : List TampEntry := d.tamp.log.filter (fun e => !d.tamp.ring.contains e) ++ d.tamp.ring

def logWords (d : Dev) (n off : Nat) : List Word :=
  let es := (wholeLog d).drop off
  wd (wholeLog d).length :: (List.range n).flatMap (fun i => match es[i]? with
    | some e => [e.w0, e.w1, e.rtc, e.seq]
    | none => [0, 0, 0, 0])

def cmdTampLogGet : Cmd where
  code := 0x0D01
  lenOk := lenIs 1
  bad := fun _ _ r => firstBad
    [(0, rf r 0 31 24 == 0 && rf r 0 15 12 == 0 && decide (1 ≤ rf r 0 23 16) && decide (rf r 0 23 16 ≤ 60))]
  act := fun _ d r => (d, stOk, logWords d (rf r 0 23 16) (rf r 0 11 0))

def execTampLogGet (r : NcsReq) (s : State) : Host.Outcome State Fault Refusal := run (command cmdTampLogGet r) s

/-- A value of TAMP_RESPONSE_SET for source i is allowed (R560). -/
def responseOk (o : Otp) (w : Word) (i : Nat) : Bool :=
  let v := fld w (2 * i + 1) (2 * i)
  if o.fused.getLsbD i then v == 0 else v != 0 && decide (respField o.minimum i ≤ v)

def cmdTampResponseSet : Cmd where
  code := 0x0D10
  expert := true
  modes := [.staging]
  lenOk := lenIs 1
  bad := fun o _ r => firstBad [(0, rf r 0 31 24 == 0 && (List.range 12).all (responseOk o (rw r 0)))]
  act := fun _ d r =>
    let m := BitVec.ofNat 24 (rf r 0 23 0)
    ({ d with tamp := { d.tamp with set := m, copy := m, minOnly := false } }, stOk, [])

def execTampResponseSet (r : NcsReq) (s : State) : Host.Outcome State Fault Refusal := run (command cmdTampResponseSet r) s

/-- The detectors stimulated respond, or do not: the answer of each is a free bit (R561). DEDUCED (log 49). -/
def cmdTampTest : Cmd where
  code := 0x0D11
  expert := true
  modes := [.staging]
  lenOk := lenIs 1
  bad := fun o _ r => firstBad
    [(0, rf r 0 31 10 == 0 && rf r 0 7 4 == 0 && decide (rf r 0 3 0 < 12) && !o.fused.getLsbD (rf r 0 3 0))]
  act := fun _ d r =>
    let x := draw 2 d
    (x.2, stOk, [wd (x.1.toNat &&& rf r 0 9 8)])

def execTampTest (r : NcsReq) (s : State) : Host.Outcome State Fault Refusal := run (command cmdTampTest r) s

end Sys2Proof.Machine
end

