-- ==== Sys2Proof/Machine/Start.lean ====
section
/-!
DEFINITION. Starts, resets, wakes and the loss of power (chapter 03, R93 to R101, R88, R89; R632, R647): the start
sequence, the mode entry, the reset pins, DORMANT, the always-on domain.
-/
namespace Sys2Proof.Machine

/-! The start sequence (R94). A step that a halt has ended does nothing further. -/

/-- The start goes on: the device has not halted. -/
def startGoes (d : Dev) : Bool := !(d.sys.mode == .halted)

/-- A halt cause has been recorded in a start that ends in LOCKED: the Granary and key-store steps that remain are
skipped (R89). The start begins its record empty and restores an older one at its end. -/
def startHeld (d : Dev) : Bool := d.sys.haltCause != 0

/-- A log entry of kind 6 is there already for this start of the always-on domain. -/
def coldLogged (d : Dev) : Bool := d.tamp.log.any (fun e => fld e.w0 31 28 == 6)

/-- After a loss of the always-on domain the responses are those of the flash copy (R544, R550). -/
def reloadResponses (copyOk : Bool) (d : Dev) : Dev :=
  if !d.tamp.provisional || coldLogged d then d
  else
    let d := if copyOk then { d with tamp := { d.tamp with set := d.tamp.copy, minOnly := false } }
      else logEntry 5 0 0 0 { d with tamp := { d.tamp with minOnly := true } }
    logEntry 6 0 0 0 d

/-- Steps 1 to 3: every domain is powered, the boot ROM reads the lock state twice (R547), the noise sources run
their start-up tests (R248), the DRBG is instantiated. -/
def startBoot (x : StartOutcome) (o : Otp) (d : Dev) : Dev :=
  let d := reloadResponses x.copyOk d
  let lock := mustLock o d || d.sys.startLocked || (d.tamp.provisional && decide (2 ≤ responseOf o d 11)) || !x.bootAgree
  let d := setLock lock { d with sys := { d.sys with startRun := true, startLocked := lock } }
  let d := if x.bootAgree then d
    else
      let d := logEntry 2 2 0 0 { d with sys := { d.sys with cause := 0x21 } }
      withHw (fun d => { d with tamp := { d.tamp with disagree := true } }) d
  if startupOk x.source0 || startupOk x.source1 then startNoise x.source0 x.source1 d else haltEntry 0x31 o d

/-- Slice domains: the Sidings are powered and seeded; in-service positions carry no work yet (R585 to R587). -/
def startSlices (o : Otp) (d : Dev) : Dev :=
  ((List.range (sectors o)).flatMap sectorSidings).foldl (fun d n => slicePowerUp n o d) d

/-- A channel fails HBM training (R363): it is retired if its stack has no retired channel; else the start halts with
detail 8. -/
def startChannel (p : Otp × Dev) (c : Nat) : Otp × Dev :=
  if !startGoes p.2 || startHeld p.2 || c ≥ channels p.1 || p.1.retired.contains c then p
  else if p.1.retired.any (fun r => r / 16 == c / 16) then (p.1, granaryHalt 8 c 0 p.1 p.2)
  else
    let o := { p.1 with retired := p.1.retired ++ [c] }
    (o, { p.2 with grn := { p.2.grn with regions := startRegions o, retiredAtStart := p.2.grn.retiredAtStart ++ [c] } })

/-- DEDUCED (log 20). -/
def startChannels (cs : List Nat) (o : Otp) (d : Dev) : Otp × Dev := cs.foldl startChannel (o, d)

/-- Step 5: the Granary. DEDUCED (log 20). -/
def startGranary (x : StartOutcome) (o : Otp) (d : Dev) : Otp × Dev :=
  if !startGoes d || startHeld d then (o, d)
  else
    let r := startChannels x.channels o d
    if !startGoes r.2 || startHeld r.2 then r
    else if x.granaryOk then (r.1, granaryInit r.1 r.2)
    else (r.1, granaryHalt 8 0x3F 0 r.1 r.2)

/-- An image slot passes the loader's checks (R568). The image of manufacture has no recorded signer; it is accepted. -/
def slotPasses (ok : Bool) (o : Otp) (i : Image) : Bool :=
  ok && decide (o.floor ≤ i.sec) && (i.signer.isEmpty || signerAccepted o i.signer)

/-- The control record after the image slot started: IDLE but where an update was confirmed, whose burns are done
now (R576). -/
def startImage (o : Otp) (d : Dev) : Otp × Dev :=
  let d := runImage d.fw.image d
  match d.fw.state with
  | 5 =>
    let i := d.fw.image
    let d := dropStaleRecall i { d with fw := { d.fw with confirmed := satInc 32 d.fw.confirmed, left := 0 } }
    (fwBurn i o, fwEnter 0 d)
  | 2 => (o, fwEnter 0 { d with fw := { d.fw with recallValid := false } })
  | 0 => (o, d)
  | _ => (o, fwEnter 0 d)

/-- The recall slot starts (R96): the image slot is to be restored from it; the event reports a fall-back at a start
(R583). -/
def startRecallImage (d : Dev) : Dev :=
  let d := fwEnter 6 (runImage d.fw.recallImg d)
  { d with
    fw := { d.fw with report := some 4, stateAt := 0 }
    sys := { d.sys with startRecall := true, maintFw := true }
    sb := { d.sb with restartReason := 4 } }

/-- Steps 4, 6 and 7: which image runs (R96, R576). DESIGN CHOICE (log 8). DEDUCED (log 19). -/
def startFirmware (x : StartOutcome) (o : Otp) (d : Dev) : Otp × Dev :=
  if !startGoes d then (o, d)
  else
    let d := loadRecord { d with fw := { d.fw with loaderMeas := Config.loaderMeas, update := none } }
    let fallBack := d.fw.recallValid && slotPasses x.recallOk o d.fw.recallImg
    let image := d.fw.whole && slotPasses x.imageOk o d.fw.image
    let torn := d.fw.state == 3 || d.fw.state == 4
    if image && !torn then startImage o d
    else if fallBack then (o, startRecallImage d)
    else (o, haltEntry 0x32 o d)

/-- Step 8: the lockstep self-check, the tests of the slices, the default tables; the starting frame counters
(R161). DESIGN CHOICE (log 8). -/
def startChecks (x : StartOutcome) (o : Otp) (d : Dev) : Dev :=
  if !startGoes d then d
  else
    let d := if x.lockstep then d else haltEntry 0x31 o d
    if !startGoes d then d
    else
      let d := [0, 1, 2, 3].foldl (fun d t =>
        let n := lineBytes 5 d
        { n.2 with lm := { n.2.lm with txFc := tset n.2.lm.txFc t (beNat n.1 * 256, 0) } }) d
      { d with sl := { d.sl with failedAtStart := (x.slices.filter (fun p => katFail o p.2 != 0)).map (·.1) } }

/-- Provisional entries are numbered after the newest entry in flash (R549). -/
def renumberLog (d : Dev) : Dev :=
  if !d.tamp.provisional then d
  else
    let base : Word := match d.tamp.ring with | e :: _ => e.seq | [] => 0
    let n := d.tamp.log.length
    let log := d.tamp.log.mapIdx (fun i e => { e with seq := base + wd (n - i) })
    let pairs := d.tamp.log.zip log
    let renumbered := fun (e : TampEntry) => match pairs.find? (fun p => p.1 == e) with | some p => p.2 | none => e
    { d with tamp := { d.tamp with
      log := log, seq := base + wd n, provisional := false, later := d.tamp.later.map renumbered } }

/-- Step 9: the tamper log, then the key store, which waits for the unlock where the start ends in LOCKED (R505). -/
def startKeys (x : StartOutcome) (o : Otp) (d : Dev) : Otp × Dev :=
  if !startGoes d then (o, d)
  else
    let d := copyLog (renumberLog d)
    if startHeld d then (o, d)
    else if identityBad o then (o, haltEntry 0x31 o d)
    else
      let d := x.badCounters.foldl (badCounter o) d
      if d.sys.startLocked && !(o.life == .retired) then (o, d) else ksRecover x.sealOk x.journalOk o d

/-- R94, one command. DESIGN CHOICE (log 8). DEDUCED (log 16). -/
def startSequence (x : StartOutcome) (o : Otp) (d : Dev) : Otp × Dev :=
  if !(d.sys.phase == .starting) || d.sys.startRun then (o, d)
  else
    let kept := d.sys.haltCause
    let d := startBoot x o { d with sys := { d.sys with haltCause := 0 } }
    let d := if startGoes d then startSlices o d else d
    let r := startGranary x o d
    let r := startFirmware x r.1 r.2
    let r := startKeys x r.1 (startChecks x r.1 r.2)
    let d := r.2
    (r.1, { d with sys := { d.sys with
      haltCause := if d.sys.haltCause = 0 then kept else d.sys.haltCause, linkUp := d.sys.perst } })

def execStartSequence (x : StartOutcome) (s : State) : Host.Outcome State Fault Refusal := runOtp (startSequence x) s

/-! The mode entry (R95, R96, R76, R248, R252, R363, R505, R563, R576). -/

/-- The measured time of a start in µs lies at its fixed instant. -/
def entryTimeOk (d : Dev) (us : Nat) : Bool :=
  let t := if d.sys.startRecall then 500000 else 250000
  decide (t - 100 ≤ us) && decide (us ≤ t + 100)

/-- What waited for the mode entry is reported. -/
def entryReports (o : Otp) (d : Dev) : Dev :=
  let d := match d.sl.startFail with | some i => rngEvent true 3 i d | none => d
  let d := recoveryEvents o d
  let waiting := d.tamp.later
  let d := waiting.foldl (fun d e => tamperEvent e d) { d with tamp := { d.tamp with later := [] } }
  let d := d.grn.retiredAtStart.foldl (fun d c => retireEvent 0 c 0 d) { d with grn := { d.grn with retiredAtStart := [] } }
  let d := match d.fw.report with
    | some r => fwState d.fw.state r { d with fw := { d.fw with report := none } }
    | none => d
  let bad := d.sl.failedAtStart
  let d := { d with sl := { d.sl with failedAtStart := [], startFail := none } }
  let order := bad.filter isSiding ++ bad.filter (fun n => !isSiding n)
  order.foldl (fun d n => sliceOut 1 n o d) d

/-- DEDUCED (log 16). -/
def modeEntry (us : Word) (o : Otp) (d : Dev) : Dev :=
  if !(d.sys.phase == .starting && d.sys.startRun && startGoes d && entryTimeOk d us.toNat) then d
  else
    let m := if d.sys.startLocked then Mode.locked else Mode.staging
    let data := if d.sys.cause = 0x21 then 0x20 else d.sys.startData
    let d := { d with
      sys := { d.sys with phase := .up, mode := m, ticks := 0, sub := 0, startUs := us }
      tamp := { d.tamp with decisions := decisionsLeft d } }
    let d := setSbUp true d
    let d := emitAll evtSbRestarted (wd d.sb.restartReason) d.fw.runVersion d
    let d := emitAll 0x01A0 (wd (d.sys.cause * 2 ^ 24 + m.code)) data d
    entryReports o (driveAlert d)

def execModeEntry (us : Word) (s : State) : Host.Outcome State Fault Refusal := run (modeEntry us) s

/-! Resets (R98, R107). -/

/-- RST_N makes a device reset where the rails are in range and the always-on domain has power (R98, R647). -/
def rstReset (o : Otp) (d : Dev) : Dev := if d.sys.mainGood && d.sys.aoGood then beginStart 0x03 0 1 o d else d

/-- A start or reset that does not take place leaves the Granary windows alone. -/
def runStart (f : Otp → Dev → Dev) (s : State) : Host.Outcome State Fault Refusal :=
  runAll (fun o ram d =>
    let d' := f o d
    (o, if d'.sys.phase == .up || d'.sys.phase == .sleeping then ram else [], d')) s

def execRstNReset (s : State) : Host.Outcome State Fault Refusal := runStart rstReset s

/-- The Signal box executes the reset, so never in HALTED (R100). -/
def resetTrigger (o : Otp) (d : Dev) : Dev :=
  match d.sys.resetPending with
  | some (0, page) => if d.sys.mode = .halted then d else beginStart 0x04 (wd page) 1 o d
  | _ => d

def execSysResetTrigger (s : State) : Host.Outcome State Fault Refusal := runStart resetTrigger s

/-- The endpoint trains: at the release of PERST_N where the start has reached its link (R97). -/
def perstRelease (_ : Otp) (d : Dev) : Dev :=
  let up := match d.sys.phase with | .up => true | .starting => d.sys.startRun | _ => false
  { d with sys := { d.sys with perst := true, linkUp := d.sys.linkUp || up } }

def execPerstNRelease (s : State) : Host.Outcome State Fault Refusal := run perstRelease s

/-- A page window returns to its reset values; the grants of its page stay, its accepted commands run on without their
EVT_CMD_DONE (R98). SB_UP, MODE and LIFE of NCS_STATE are the device's own. -/
def windowReset (p : Nat) (d : Dev) : Dev :=
  let g := pageOf d p
  let run := (g.accepted.filter (·.fin.isNone)).map (fun a => (p, a.tag, a.code))
  setPage p { Page.init with expert := g.expert } { d with sb := { d.sb with orphans := d.sb.orphans ++ run } }

/-- PERST_N driven low, where it stays until its release (R97), or a hot reset, which only a link that is up carries:
which of the two the row is on such a link is free. DESIGN CHOICE (log 78). -/
def perstLow (d : Dev) : Dev :=
  let x := if d.sys.linkUp then draw 1 d else (1#1, d)
  if x.1 = 1#1 then { x.2 with sys := { x.2.sys with perst := false, linkUp := false } } else x.2

/-- Page windows and the IRQ_, PCF_ and DMA_ registers return to their reset values (R98). A running DMA channel and a
snapshot being written end with the registers that describe them. DEDUCED (log 15). -/
def hotReset (_ : Otp) (d : Dev) : Dev :=
  let d := (List.range 65).foldl (fun d p => windowReset p d) (perstLow d)
  { d with
    sb := { d.sb with irqEnable := false, coalesce := 0, hwMask := 0x1F#5, held := [], spacing := [] }
    tel := { d.tel with
      snapEn := false, snapNow := false, gleanEn := Tel.init.gleanEn, gleanK := Tel.init.gleanK, snapN := Tel.init.snapN
      sect := Tel.init.sect, event := 0, irqEn := 0, ringLo := 0, ringHi := 0, ringSize := Tel.init.ringSize
      ringWr := 0, ringRd := 0, lostSnaps := 0, lostRecords := 0, seq := 0, ticks := 0, writing := none, due := false
      lostS7 := if d.tel.writing.isSome then satInc 16 d.tel.lostS7 else d.tel.lostS7, dma := []
      dmaEvent := 0, dmaIrqEn := 0 } }

def execPcieHotReset (s : State) : Host.Outcome State Fault Refusal := run hotReset s

/-- Virtual function n serves page n (R41): its function-level reset. -/
def vfFlr (vf : Nat) (_ : Otp) (d : Dev) : Dev := if d.sys.linkUp && 1 ≤ vf && vf ≤ 64 then windowReset vf d else d

def execVfFlr (vf : Nat) (s : State) : Host.Outcome State Fault Refusal := run (vfFlr vf) s

/-! Wakes (R81, R89, R93, R101). -/

/-- A wake source fires: in DORMANT the start begins; while DORMANT is being entered it is latched, the first one
stands. DEDUCED (log 18). -/
def wake (enabled : Bool) (cause : Nat) (data : Word) (o : Otp) (d : Dev) : Dev :=
  if !(enabled && d.sys.aoGood) then d
  else match d.sys.phase with
    | .dormant => beginStart cause data 2 o d
    | .sleeping => { d with sys := { d.sys with wakeLatch := match d.sys.wakeLatch with | some w => some w | none => some (cause, data) } }
    | _ => d

/-- The RTC has counted on to a value (it never counts back). DEDUCED (log 18). -/
def rtcAt (v : Word) (d : Dev) : Dev :=
  if d.sys.phase == .dormant || d.sys.phase == .off then
    { d with sys := { d.sys with rtc := if d.sys.rtc ≤ v then v else d.sys.rtc } }
  else d

def wakePin (rtc : Word) (o : Otp) (d : Dev) : Dev := wake d.sys.wakePin 0x05 0 o (rtcAt rtc d)

def execWakeNWake (rtc : Word) (s : State) : Host.Outcome State Fault Refusal := runStart (wakePin rtc) s

/-- The address is acknowledged, the first data byte is not (R81). DEDUCED (log 15). -/
def wakeSmb (rtc : Word) (o : Otp) (d : Dev) : Dev :=
  let d := rtcAt rtc d
  wake d.sys.wakeSmb 0x06 0 o (if d.sys.phase == .dormant && d.sys.aoGood then out .smbNack d else d)

def execSmbAddressMatchWake (rtc : Word) (s : State) : Host.Outcome State Fault Refusal := runStart (wakeSmb rtc) s

/-- DEDUCED (log 18). -/
def wakeAlarm (o : Otp) (d : Dev) : Dev :=
  if d.sys.wakeRtc && d.sys.phase == .dormant then wake true 0x07 d.sys.rtcAlarm o (rtcAt d.sys.rtcAlarm d) else d

def execRtcAlarmWake (s : State) : Host.Outcome State Fault Refusal := runStart wakeAlarm s

/-- The end of step 4 of R101: the journal commit is done, every switched domain is off, the wake sources are armed;
a latched wake, or an alarm at or before now, starts at once. DEDUCED (log 18). -/
def dormantReached (o : Otp) (d : Dev) : Otp × Dev :=
  if !(d.sys.phase == .sleeping) then (o, d)
  else
    let r := sealCommit o d
    let latch := r.2.sys.wakeLatch
    let d := rest .dormant r.1 r.2
    (r.1, match latch with
      | some (cause, data) => beginStart cause data 2 r.1 d
      | none => if d.sys.wakeRtc && d.sys.rtcAlarm ≤ d.sys.rtc then beginStart 0x07 d.sys.rtc 2 r.1 d else d)

def execDormantReached (s : State) : Host.Outcome State Fault Refusal :=
  runAll (fun o ram d => let r := dormantReached o d; (r.1, if d.sys.phase == .sleeping then [] else ram, r.2)) s

/-! Power (R88, R89, R93, R99, R632, R647). -/

/-- Main power is lost: everything of the switched domains is gone. -/
def mainLoss (o : Otp) (d : Dev) : Dev := rest .off o { d with sys := { d.sys with mainGood := false } }

def execMainPowerLoss (s : State) : Host.Outcome State Fault Refusal := runFresh mainLoss s

/-- Main power returns with the always-on domain kept: a start as for a device reset. -/
def mainReturn (rtc : Word) (o : Otp) (d : Dev) : Dev :=
  if d.sys.phase == .off && d.sys.aoGood then
    beginStart 0x03 0 1 o { rtcAt rtc d with sys := { (rtcAt rtc d).sys with mainGood := true } }
  else d

def execMainPowerReturn (rtc : Word) (s : State) : Host.Outcome State Fault Refusal := runStart (mainReturn rtc) s

/-- What the always-on domain holds is lost (R98, R647); the copies in flash stay. -/
def aoLoss (o : Otp) (d : Dev) : Dev :=
  let d := { d with
    sys := { d.sys with
      aoGood := false, rtc := 0, rtcMs := 0, haltCause := 0, wakePin := false, wakeSmb := false, wakeRtc := false
      rtcAlarm := 0 }
    ks := { d.ks with kv := [], sealV := [], jPrep := false, jSlot := 0, jCtr := 0, jDigest := [] }
    grn := { d.grn with halt := none }
    tamp := { d.tamp with
      sticky := 0, set := 0, log := [], seq := 0, lastRtc := 0, erased := false, lock := false, minOnly := false, active := 0
      fired := 0, decisions := [], nonce := none, later := [] } }
  let d := driveAlert d
  if d.sys.phase = .dormant then rest .off o d else d

def execVddAoVbatLoss (s : State) : Host.Outcome State Fault Refusal := run aoLoss s

/-- The always-on domain starts from no power: its RTC at 0, the straps sampled; without main power before, the start
begins (R93). -/
def aoColdStart (o : Otp) (d : Dev) : Dev :=
  if d.sys.aoGood then d
  else
    let d := { d with
      sys := { d.sys with aoGood := true, rtc := 0, rtcMs := 0 }
      tamp := { d.tamp with provisional := true }
      pwr := { d.pwr with strap := d.pwr.strapNow } }
    if d.sys.phase = .off then beginStart 0x02 0 1 o { d with sys := { d.sys with mainGood := true } } else driveAlert d

def execAoColdStart (s : State) : Host.Outcome State Fault Refusal := runStart aoColdStart s

end Sys2Proof.Machine
end

