-- ==== Sys2Proof/Machine/Power.lean ====
section
/-!
DEFINITION. Power, clocks and thermal control (chapter 19): domains, droop, the throttle curve, sensors, temperature,
the PMU_ registers and commands; the power happenings of R647; the reseed limit of R248.
-/
namespace Sys2Proof.Machine

/-- The core and its power management run: past power-up, not in DORMANT, not HALTED. -/
def pmuRuns (d : Dev) : Bool :=
  match d.sys.phase with
  | .up => !(d.sys.mode == .halted)
  | .sleeping => true
  | _ => false

/-- Sensors of a sector in service. -/
def sensorOf (d : Dev) (s i : Nat) : Sensor := tgetD d.pwr.sensors (s * 16 + i) Sensor.init
def setSensor (s i : Nat) (x : Sensor) (d : Dev) : Dev := { d with pwr := { d.pwr with sensors := tset d.pwr.sensors (s * 16 + i) x } }
def sensorsIn (d : Dev) (s : Nat) : Nat := ((List.range 16).filter (fun i => !(sensorOf d s i).out)).length

/-! The throttle curve (R592, R593). -/

def curveDepth (c : List Word) (i : Nat) : Nat := fld (c.getD i 0) 23 16
def curveStretch (c : List Word) (i : Nat) : Nat := fld (c.getD i 0) 3 0
def curveHyst (c : List Word) : Nat := fld (c.getD 8 0) 15 8
def curveHold (c : List Word) : Nat := fld (c.getD 8 0) 7 0

/-- Used entries: those with a DEPTH. -/
def curveUsed (c : List Word) : Nat := ((List.range 8).filter (fun i => curveDepth c i != 0)).length

/-- Entries whose DEPTH a sag has reached. -/
def curveLevel (c : List Word) (sag : Nat) : Nat :=
  ((List.range 8).filter (fun i => curveDepth c i != 0 && decide (curveDepth c i ≤ sag))).length

/-- The stretch with so many entries reached; at least 1/16 with fewer than 4 sensors in service (R591). -/
def stretchFor (d : Dev) (s level : Nat) : Nat :=
  max (if level = 0 then 0 else curveStretch d.pwr.curve (level - 1)) (if sensorsIn d s < 4 then 1 else 0)

/-- The sag of a sector in mV over its sensors in service: the setpoint of 750 mV less the trim less the reading
(R590). -/
def sagOf (d : Dev) (s : Nat) (readings : List Nat) : Nat :=
  (List.range 16).foldl (fun m i =>
    let x := sensorOf d s i
    if x.out then m else max m (750 - x.trim - (readings.getD i 750 : Nat)).toNat) 0

/-- A sag lies below the DEPTH of an entry less HYST. -/
def released (d : Dev) (level sag : Nat) : Bool :=
  decide (sag + curveHyst d.pwr.curve < curveDepth d.pwr.curve (level - 1))

/-- A sector stands at an entry of the curve; reaching the last used one is marked (R601). The time below the release
point runs on where the entry stays and the sag was and is below it. -/
def setLevel (s level sag : Nat) (d : Dev) : Dev :=
  let x := powerOf d s
  let top := decide (level = curveUsed d.pwr.curve) && decide (x.level < level)
  let calm := level == x.level && released d level sag && released d level x.sag
  let d := setPower s { x with
    calmAt := if calm then x.calmAt else rawNow d
    sag := sag, level := level, stretch := stretchFor d s level, sagTick := max x.sagTick (min sag 255) } d
  if top then withHw (fun d => { d with pwr := { d.pwr with event := d.pwr.event ||| BitVec.ofNat 10 (2 ^ (4 + s)) } }) d else d

/-- The sensors of a sector come to readings in mV: the stretch rises to the highest used entry that the sag has reached.
DEDUCED (log 50). -/
def stretchRise (s : Nat) (readings : List Nat) (dt : Nat) (o : Otp) (d : Dev) : Dev :=
  let d := passTime dt d
  let sag := sagOf d s readings
  if s < sectors o && pmuRuns d then setLevel s (max (powerOf d s).level (curveLevel d.pwr.curve sag)) sag d else d

def execStretchRise (sector : Nat) (readings : List Nat) (dt : Nat) (s : State) : Host.Outcome State Fault Refusal :=
  run (stretchRise sector readings dt) s

/-- With these readings and the sag below DEPTH less HYST of the entry for HOLD cc, the stretch falls one entry.
DEDUCED (log 50). -/
def stretchFall (s : Nat) (readings : List Nat) (dt : Nat) (o : Otp) (d : Dev) : Dev :=
  let d := passTime dt d
  let sag := sagOf d s readings
  if !(decide (s < sectors o) && pmuRuns d) then d
  else
    let d := setLevel s (max (powerOf d s).level (curveLevel d.pwr.curve sag)) sag d
    let x := powerOf d s
    if 1 ≤ x.level && released d x.level sag && x.calmAt + curveHold d.pwr.curve ≤ rawNow d then setLevel s (x.level - 1) sag d
    else d

def execStretchFall (sector : Nat) (readings : List Nat) (dt : Nat) (s : State) : Host.Outcome State Fault Refusal :=
  run (stretchFall sector readings dt) s

/-- The armed swap applies, and every sector's stretch is decided again (R594). -/
def curveSwap (o : Otp) (d : Dev) : Dev :=
  if !(d.pwr.armed && pmuRuns d) || d.sys.ticks ≤ d.pwr.armedAt then d
  else
    let d := { d with pwr := { d.pwr with curve := d.pwr.shadow, armed := false } }
    (List.range (sectors o)).foldl (fun d s => setLevel s (curveLevel d.pwr.curve (powerOf d s).sag) (powerOf d s).sag d) d

def execPwrCurveSwap (s : State) : Host.Outcome State Fault Refusal := run curveSwap s

/-! Sensors (R591). -/

/-- Put a number into a rising list. -/
def insertNat (n : Nat) : List Nat → List Nat
  | [] => [n]
  | m :: t => if n ≤ m then n :: m :: t else m :: insertNat n t

/-- Twice the median of a list of readings. -/
def median2 (l : List Nat) : Nat :=
  let s := l.foldr insertNat []
  s.getD ((s.length - 1) / 2) 0 + s.getD (s.length / 2) 0

/-- The trim of one sensor moves 1 mV toward the difference found, within −12 to +12 mV: 750 mV less the expected drop,
which load line and current give, less the mean reading. Its reading is held against the median of its sector.
DEDUCED (log 50). -/
def trimOne (rs : List SensorTick) (d : Dev) (r : SensorTick) : Dev :=
  let x := sensorOf d r.sector r.sensor
  if x.out || 16 ≤ r.sensor then d
  else
    let difference : Int := 750 - r.drop - r.reading
    let t := if x.trim < difference then x.trim + 1 else if difference < x.trim then x.trim - 1 else x.trim
    let t := max (-12) (min 12 t)
    let med := median2 ((rs.filter (fun q => q.sector == r.sector)).map (·.reading))
    let off := decide (med + 80 < 2 * r.reading) || decide (2 * r.reading + 80 < med)
    setSensor r.sector r.sensor { x with
      trim := t, limitTicks := if t = 12 || t = -12 then x.limitTicks + 1 else 0
      offTicks := if off then x.offTicks + 1 else 0 } d

def sensorTrim (rs : List SensorTick) (o : Otp) (d : Dev) : Dev :=
  if pmuRuns d then (rs.filter (fun r => decide (r.sector < sectors o))).foldl (trimOne rs) d else d

def execSensorTrim (readings : List SensorTick) (s : State) : Host.Outcome State Fault Refusal := run (sensorTrim readings) s

/-- A sensor 1,000 ticks at a limit or off the median leaves service, with EVT_PWR_SENSOR (R605). DEDUCED (log 50). -/
def sensorOut (s i : Nat) (o : Otp) (d : Dev) : Dev :=
  let x := sensorOf d s i
  if !(pmuRuns d && decide (s < sectors o) && decide (i < 16) && !x.out && (decide (1000 ≤ x.limitTicks) || decide (1000 ≤ x.offTicks))) then d
  else
    let d := setSensor s i { x with out := true } d
    let y := powerOf d s
    let d := setPower s { y with stretch := stretchFor d s y.level } d
    let d := withHw (fun d => { d with pwr := { d.pwr with event := d.pwr.event ||| 0x200#10 } }) d
    emit 0 0x0F81 (wd (s * 2 ^ 16 + i)) (wd (sensorsIn d s)) d

def execSensorOutOfService (sector sensor : Nat) (s : State) : Host.Outcome State Fault Refusal :=
  run (sensorOut sector sensor) s

/-! Temperature (R599). -/

/-- A reading above its threshold, or back 5 °C below it, is reported (R605). -/
def thermalOne (stack : Bool) (n : Nat) (t : Int) (d : Dev) : Dev :=
  let x := powerOf d n
  let thr : Int := if stack then d.pwr.thrStack else d.pwr.thrJunction
  let was := if stack then x.hotStack else x.hot
  let now := if was then decide (thr - 5 < t) else decide (thr < t)
  if now == was then d
  else
    let d := setPower n (if stack then { x with hotStack := now } else { x with hot := now }) d
    let d := withHw (fun d => { d with pwr := { d.pwr with event := d.pwr.event ||| 0x100#10 } }) d
    emit 0 0x0F82 (wd (flag now 31 + flag stack 8 + n)) (wd (ofSigned 32 t)) d

/-- Four readings as the bytes of a register. -/
def tempWord (ts : List Int) : Word := wd (((List.range 4).map (fun n => ofSigned 8 (ts.getD n 0) * 256 ^ n)).sum)

def thermalRead (js ss : List Int) (power : Word) (o : Otp) (d : Dev) : Dev :=
  if !pmuRuns d then d
  else
    let js := js.take (sectors o)
    let ss := ss.take (sectors o)
    let d := { d with pwr := { d.pwr with temp0 := tempWord js, temp1 := tempWord ss, power := power } }
    let d := (List.range js.length).foldl (fun d n => thermalOne false n (js.getD n 0) d) d
    (List.range ss.length).foldl (fun d n => thermalOne true n (ss.getD n 0) d) d

def execThermalRead (junctions hbms : List Int) (power : Word) (s : State) : Host.Outcome State Fault Refusal :=
  run (thermalRead junctions hbms power) s

/-! Domains (R584 to R587). -/

/-- A domain number that the variant has. -/
def domainIs (o : Otp) (n : Nat) : Bool :=
  if n < 64 then decide (n < lanes o)
  else if n < 128 then decide (n - 64 < lanes o)
  else if n < 272 then decide (n - 128 < slices o)
  else if n < 288 then decide (n - 272 < 4 * sectors o)
  else if n < 300 then decide ((n - 288) % 4 < sectors o)
  else decide (n < 312)

/-- A domain is powered. -/
def domainOn (o : Otp) (d : Dev) (n : Nat) : Bool :=
  domainIs o n && (if n < 64 then (laneOf d (lk 1 n)).state != 0
    else if n < 128 then (laneOf d (lk 0 (n - 64))).state != 0
    else if n < 272 then (sliceOf d (n - 128)).state != 0
    else if n = 304 then d.pke.powered
    else true)

/-- A slice position that work waits for: a group, or a move, names it. -/
def sliceWanted (d : Dev) (n : Nat) : Bool := !sliceUnused d n || d.dsp.moves.any (fun m => m.2.obj.isNone && m.2.dst == n)

/-- A domain's power-up is requested: a slice position that work waits for, the PKE with a job, a lane in its stage 1. -/
def domainAsked (d : Dev) (n : Nat) : Bool :=
  if n < 128 then (laneOf d (if n < 64 then lk 1 n else lk 0 (n - 64))).state == 1
  else if n < 272 then (sliceOf d (n - 128)).state == 0 && sliceWanted d (n - 128)
  else n == 304 && !d.pke.powered && !d.pke.waiting.isEmpty

/-- Power-up time of a domain in TU cycles (R585). -/
def powerUpTime (n : Nat) : Nat := usCycles (if n < 128 then 50 else if n < 272 then 10 else 20)

/-- The PMU starts a requested power-up now, or when fewer than 8 have started in a µs (R585). -/
def rampStart (n : Nat) (d : Dev) : Dev :=
  if !domainAsked d n || (tget d.pwr.ramps n).isSome then d
  else
    let at' := match d.pwr.recent[7]? with | some t => max (rawNow d) (t + 1750) | none => rawNow d
    { d with pwr := { d.pwr with ramps := tset d.pwr.ramps n at', recent := (at' :: d.pwr.recent).take 8 } }

/-- A domain is powered: a slice takes its first seed, the PKE its waiting job; a lane's domain is part of its stage
1. -/
def domainPowered (n : Nat) (o : Otp) (d : Dev) : Dev :=
  let d := countUp n { d with pwr := { d.pwr with ramps := tdel d.pwr.ramps n } }
  if n < 128 then d
  else if n < 272 then slicePowerUp (n - 128) o d
  else { d with pke := { d.pke with powered := true, idle := 0 } }

/-- A requested domain is powered once its time has passed. DEDUCED (log 50). -/
def domainUp (n dt : Nat) (o : Otp) (d : Dev) : Dev :=
  if !(domainIs o n && pmuRuns d) then passTime dt d
  else
    let d := passTime dt (rampStart n d)
    match tget d.pwr.ramps n with
    | some t => if domainAsked d n && t + powerUpTime n ≤ rawNow d then domainPowered n o d else d
    | none => d

def execDomainPowerUpDone (domain : Timed) (s : State) : Host.Outcome State Fault Refusal := run (domainUp domain.val domain.dt) s

/-! The PMU_ registers (R601). -/

/-- A reading stands above its warning threshold. DEDUCED (log 50). -/
def thermWarn (o : Otp) (d : Dev) : Bool :=
  (List.range (sectors o)).any (fun n => decide ((d.pwr.thrJunction : Int) < toSigned 8 (fld d.pwr.temp0 (8 * n + 7) (8 * n)))
    || decide ((d.pwr.thrStack : Int) < toSigned 8 (fld d.pwr.temp1 (8 * n + 7) (8 * n))))

def pmuStatus (o : Otp) (d : Dev) : Word :=
  wd (flag d.pwr.armed 9 + flag (thermWarn o d) 8
    + ((List.range 4).map (fun n => flag (decide (2 ≤ (powerOf d n).stretch)) (4 + n) + flag (decide (1 ≤ (powerOf d n).stretch)) n)).sum)

/-- PMU_SECTn; a sector that the variant lacks has no sensors. -/
def pmuSect (o : Otp) (d : Dev) (n : Nat) : Word :=
  if n < sectors o then wd ((powerOf d n).stretch * 2 ^ 28 + (powerOf d n).sagMax * 2 ^ 16 + sensorsIn d n) else 0

def pmuBelow (d : Dev) (n : Nat) : Word := wd ((powerOf d n).below % 2 ^ 21)

def domainsOn (o : Otp) (d : Dev) (lo hi : Nat) : Nat := ((List.range (hi - lo)).filter (fun i => domainOn o d (lo + i))).length

def pmuDomains (o : Otp) (d : Dev) : Word :=
  wd (domainsOn o d 288 312 * 2 ^ 24 + domainsOn o d 128 272 * 2 ^ 16 + domainsOn o d 272 288 * 2 ^ 8 + domainsOn o d 0 128)

/-! Commands (R602 to R604). -/

def pwrWords (o : Otp) (d : Dev) : List Word :=
  pmuStatus o d :: (List.range 4).map (pmuSect o d) ++ (List.range 4).map (pmuBelow d) ++ [d.pwr.temp0, d.pwr.temp1, d.pwr.power]

def cmdPwrStatus : Cmd where
  code := 0x0F00
  smb := true
  lenOk := lenIs 0
  act := fun o d _ => (d, stOk, pwrWords o d)

def execPwrStatus (r : NcsReq) (s : State) : Host.Outcome State Fault Refusal := run (command cmdPwrStatus r) s

def cmdPwrDomainGet : Cmd where
  code := 0x0F01
  lenOk := lenIs 1
  bad := fun o _ r => firstBad [(0, rf r 0 31 9 == 0 && domainIs o (rf r 0 8 0))]
  act := fun o d r => (d, stOk, [wd (flag (domainOn o d (rf r 0 8 0)) 31 + tgetD d.pwr.ups (rf r 0 8 0) 0)])

def execPwrDomainGet (r : NcsReq) (s : State) : Host.Outcome State Fault Refusal := run (command cmdPwrDomainGet r) s

/-- Entry i of a curve is well formed after the entry before it (R592). -/
def curveEntryOk (c : List Word) (i : Nat) : Bool :=
  let w := c.getD i 0
  let dep := curveDepth c i
  let st := curveStretch c i
  fld w 31 24 == 0 && fld w 15 4 == 0
    && (if dep = 0 then w == 0 && i != 0
      else decide (1 ≤ st) && decide (st ≤ 8)
        && (i == 0 || (curveDepth c (i - 1) != 0 && decide (curveDepth c (i - 1) < dep) && decide (curveStretch c (i - 1) ≤ st))))

def curveCtlOk (w : Word) : Bool := fld w 31 16 == 0 && decide (1 ≤ fld w 15 8) && decide (fld w 15 8 ≤ 31) && decide (1 ≤ fld w 7 0)

def cmdPwrCurveWrite : Cmd where
  code := 0x0F10
  expert := true
  modes := runModes
  blank := false
  lenOk := lenIs 9
  bad := fun _ _ r =>
    let c := r.payload.take 9
    firstBad ((List.range 8).map (fun i => (i, curveEntryOk c i)) ++ [(8, curveCtlOk (c.getD 8 0))])
  act := fun _ d r => ({ d with pwr := { d.pwr with shadow := (List.range 9).map (rw r) } }, stOk, [])

def execPwrCurveWrite (r : NcsReq) (s : State) : Host.Outcome State Fault Refusal := run (command cmdPwrCurveWrite r) s

def cmdPwrCurveRead : Cmd where
  code := 0x0F11
  expert := true
  blank := false
  lenOk := lenIs 1
  bad := fun _ _ r => firstBad [(0, rf r 0 30 0 == 0)]
  act := fun _ d r => (d, stOk, if bit (rw r 0) 31 then d.pwr.shadow else d.pwr.curve)

def execPwrCurveRead (r : NcsReq) (s : State) : Host.Outcome State Fault Refusal := run (command cmdPwrCurveRead r) s

def cmdPwrCurveCommit : Cmd where
  code := 0x0F12
  expert := true
  modes := runModes
  blank := false
  lenOk := lenIs 0
  busy := fun _ d _ => d.pwr.armed
  act := fun _ d _ => ({ d with pwr := { d.pwr with armed := true, armedAt := d.sys.ticks } }, stOk, [])

def execPwrCurveCommit (r : NcsReq) (s : State) : Host.Outcome State Fault Refusal := run (command cmdPwrCurveCommit r) s

def cmdPwrThermSet : Cmd where
  code := 0x0F13
  expert := true
  modes := runModes
  blank := false
  lenOk := lenIs 1
  bad := fun _ _ r => firstBad [(0, rf r 0 31 16 == 0 && decide (60 ≤ rf r 0 15 8) && decide (rf r 0 15 8 ≤ 100)
    && decide (60 ≤ rf r 0 7 0) && decide (rf r 0 7 0 ≤ 130))]
  act := fun _ d r => ({ d with pwr := { d.pwr with thrStack := rf r 0 15 8, thrJunction := rf r 0 7 0 } }, stOk, [])

def execPwrThermSet (r : NcsReq) (s : State) : Host.Outcome State Fault Refusal := run (command cmdPwrThermSet r) s

/-! Ticks (R598, R601, R605). -/

/-- The counts of a tick become those of the last tick, and a tick with losses is reported. -/
def powerTick (o : Otp) (d : Dev) : Dev :=
  (List.range (sectors o)).foldl (fun d n =>
    let x := powerOf d n
    let d := setPower n { x with
      sagMax := x.sagTick, sagTick := min x.sag 255, below := x.belowTick, belowTick := 0, lossTick := 0, lossKind := 0 } d
    if x.lossTick = 0 then d else emit 0 0x0F80 (wd (n * 2 ^ 16 + x.lossKind)) (wd x.lossTick) d) d

/-! Happenings of R647, and the reseed limit (R248). -/

/-- The lane reference is lost: every lane loses lock (R474). -/
def lrefLoss (o : Otp) (d : Dev) : Dev :=
  let d := { d with pwr := { d.pwr with lref := false } }
  if !pmuRuns d then d
  else pathsRefresh ((List.range (lanes o)).foldl (fun d n => lockLost 1 n o (lockLost 0 n o d)) d)

def execLrefLoss (s : State) : Host.Outcome State Fault Refusal := run lrefLoss s

/-- A short dip of a rail: what the device detects is loss of lock on lanes (keys side × 64 + lane) and failures of
Granary reads. -/
def railDip (ls : List Nat) (fs : List ScrubFind) (o : Otp) (d : Dev) : Dev :=
  if !pmuRuns d then d
  else fs.foldl (fun d f => scrub f o d) (pathsRefresh (ls.foldl (fun d k => lockLost (k / 64) (k % 64) o d) d))

def execRailDip (lanes : List Nat) (finds : List ScrubFind) (s : State) : Host.Outcome State Fault Refusal :=
  run (railDip lanes finds) s

/-- An instance has reached its reseed interval without a reseed. DESIGN CHOICE (log 33). -/
def reseedLimit (o : Otp) (d : Dev) : Dev := if pmuRuns d && intervalReached d then haltEntry 0x31 o d else d

def execDrbgReseedLimit (s : State) : Host.Outcome State Fault Refusal := run reseedLimit s

end Sys2Proof.Machine
end

