-- ==== Sys2Proof/Machine/Modes.lean ====
section
/-!
DEFINITION. The system and mode commands (chapter 03, R103 to R112), the return of the Signal box after a stop (R76),
recalibration (R111).
-/
namespace Sys2Proof.Machine

/-! State and mode (R104, R105). -/

def sysWords (o : Otp) (d : Dev) : List Word :=
  let y := d.sys
  [wd (y.cause * 2 ^ 24 + flag y.maintRecal 23 + flag y.maintRetire 22 + flag y.maintRekey 21 + flag y.maintFw 20
      + o.life.code * 2 ^ 8 + modeCode d),
   wd (y.startCause * 2 ^ 24 + y.haltCause * 2 ^ 16), y.rtcAtStart, y.startUs]

def cmdSysGetState : Cmd where
  code := 0x0120
  tenants := true
  smb := true
  retired := true
  lenOk := lenIs 0
  act := fun o d _ => (d, stOk, sysWords o d)

def execSysGetState (r : NcsReq) (s : State) : Host.Outcome State Fault Refusal := run (command cmdSysGetState r) s

/-- The move that SYS_SET_MODE makes (R88, R91, R105). -/
def setMode (target page : Nat) (o : Otp) (d : Dev) : Dev :=
  match d.sys.mode, target with
  | .staging, 2 => changeMode (if anyMaint d then .service else .secure) 0x01 0 (wd page) d
  | .secure, 1 => leaveTraffic true o (changeMode .staging 0x01 0 (wd page) d)
  | _, _ => d

def cmdSysSetMode : Cmd where
  code := 0x0121
  modes := runModes
  retired := true
  lenOk := lenIs 1
  forbids := fun o _ r => if rw r 0 = 2 && (o.life == .blank || o.life == .retired) then some 4 else none
  bad := fun _ _ r => firstBad [(0, rw r 0 == 1 || rw r 0 == 2)]
  busy := fun _ d r => d.sys.mode == .service && rw r 0 == 1
  act := fun o d r => (setMode (rw r 0).toNat r.page o d, stOk, [])

def execSysSetMode (r : NcsReq) (s : State) : Host.Outcome State Fault Refusal := run (command cmdSysSetMode r) s

/-! Sleep and reset (R101, R106, R107). -/

/-- After its response the Signal box stops, on the way into DORMANT. -/
def enterSleep (st : Nat) (d : Dev) : Dev :=
  if st = stOk then setSbUp false { d with sys := { d.sys with phase := .sleeping, sleepTicks := 0 } } else d

/-- A tick on the way into DORMANT: the link goes down within 5 ms of the response (R101 step 2), at which boundary is
open. DESIGN CHOICE (log 71). -/
def sleepTick (d : Dev) : Dev :=
  if d.sys.phase == .sleeping && d.sys.linkUp then
    let x := draw 1 d
    let n := d.sys.sleepTicks + 1
    { x.2 with sys := { d.sys with sleepTicks := n, linkUp := decide (n < 5) && x.1 == 0 } }
  else d

def cmdSysSleep : Cmd where
  code := 0x0122
  smb := true
  modes := [.staging]
  retired := true
  lenOk := lenIs 2
  bad := fun _ _ r => firstBad [(0, rf r 0 31 3 == 0 && rf r 0 2 0 != 0)]
  busy := fun _ d _ => decide (d.fw.state ≠ 0) || d.fw.update.isSome
  act := fun _ d r =>
    let w := rw r 0
    ({ d with sys := { d.sys with
      wakePin := bit w 0, wakeSmb := bit w 1, wakeRtc := bit w 2, wakeLatch := none
      rtcAlarm := if bit w 2 then rw r 1 else d.sys.rtcAlarm } }, stOk, [])
  after := fun _ _ st d => enterSleep st d

def execSysSleep (r : NcsReq) (s : State) : Host.Outcome State Fault Refusal := run (command cmdSysSleep r) s

/-- The issuing page as R114 gives it. -/
def causePage (p : Nat) : Nat := if p = 65 then 0xFF else p

/-- DEDUCED (log 15). -/
def cmdSysReset : Cmd where
  code := 0x0123
  smb := true
  retired := true
  lenOk := lenIs 1
  bad := fun _ _ r => firstBad [(0, rw r 0 == 1)]
  act := fun _ d r =>
    ({ d with sys := { d.sys with resetPending := match d.sys.resetPending with
      | some x => some x
      | none => some (2, causePage r.page) } }, stOk, [])

def execSysReset (r : NcsReq) (s : State) : Host.Outcome State Fault Refusal := run (command cmdSysReset r) s

/-! Management restart (R73 to R76, R108). -/

def cmdSysMgmtRestart : Cmd where
  code := 0x0124
  expert := true
  modes := runModes
  retired := true
  event := true
  lenOk := lenIs 0
  busy := fun _ d _ => anyMaint d
  act := fun _ d _ => (d, stAccepted, [])
  after := fun _ r st d => if st = stAccepted then finish r.page r.tag 0x0124 stOk 0 (sbStop 5 d) else d

def execSysMgmtRestart (r : NcsReq) (s : State) : Host.Outcome State Fault Refusal :=
  run (command cmdSysMgmtRestart r) s

/-- The EVT_CMD_DONE of the commands of page p that ended while the Signal box was down. -/
def carriedDone (p : Nat) (d : Dev) : Dev :=
  (pageOf d p).accepted.foldl (fun d a => match a.fin with
    | some (st, w3) =>
      let g := pageOf d p
      let rest := g.accepted.filter (fun x => !(x.tag == a.tag && x.code == a.code))
      emitTag p evtCmdDone a.tag (wd (a.code * 2 ^ 16 + st)) w3 (setPage p { g with accepted := rest } d)
    | none => d) d

/-- A KA_START carried across the restart sends its current message again (R295). DEDUCED (log 17). -/
def kaAgain (o : Otp) (d : Dev) : Dev :=
  d.kc.peers.foldl (fun d x =>
    if x.2.state = 1 && x.2.cmd.isSome && !x.2.sent.isEmpty then
      kaSend x.2 x.2.sent o (setPeer x.1 { x.2 with waited := 0 } d)
    else d) d

/-- The EVT_LIFE_CHANGED of a life-cycle write that was done while the Signal box was down (R109). -/
def lifeHeldEvent (d : Dev) : Dev :=
  match d.sys.lifeHeld with
  | some (old, new) => lifeEvent old new { d with sys := { d.sys with lifeHeld := none } }
  | none => d

def sbComesUp (o : Otp) (d : Dev) : Dev :=
  if !(d.sys.phase == .up) || d.sys.mode == .halted || d.sb.up then d
  else
    let d := setSbUp true d
    let d := emitAll evtSbRestarted (wd d.sb.restartReason) d.fw.runVersion d
    kaAgain o (lifeHeldEvent ((List.range 65).foldl (fun d p => carriedDone p d) d))

def execSbRestartComplete (s : State) : Host.Outcome State Fault Refusal := run sbComesUp s

/-! Life cycle (R92, R109). -/

def cmdSysAdvanceLife : Cmd where
  code := 0x0125
  expert := true
  modes := [.staging]
  retired := true
  event := true
  lenOk := lenIs 2
  bad := fun o _ r => firstBad
    [(0, match o.life with | .provisioned => rw r 0 == 2 | .deployed => rw r 0 == 3 | _ => false),
     (1, rw r 1 == 0x4C494645#32)]
  busy := fun _ d _ => d.sys.lifePending.isSome
  act := fun _ d r =>
    ({ d with sys := { d.sys with
      lifePending := some (if rw r 0 = 2 then .deployed else .retired, r.page, r.tag) } }, stAccepted, [])

def execSysAdvanceLife (r : NcsReq) (s : State) : Host.Outcome State Fault Refusal :=
  run (command cmdSysAdvanceLife r) s

/-- RETIRED erases every persistent slot from 2 on and derives nothing from the device secret any more (R92, R511). -/
def retireKeys (d : Dev) : Dev :=
  let flash := d.ks.flash.filter (fun s => decide (s.1 < 2))
  { d with ks := { d.ks with flash := flash, kv := [], sealV := [], jPrep := false, journal := none, internal := false } }

/-- The life cycle after a burn: the states follow each other in one direction only (R14). -/
def lifeForward (a b : Life) : Life := if a.code < b.code then b else a

/-- The OTP write of SYS_ADVANCE_LIFE is done (R109, R113); its event follows the command's EVT_CMD_DONE. A device that
SYS_SET_MODE took to SECURE before the write of RETIRED was done stays in SECURE: how it is left is not stated.
DESIGN CHOICE (log 72). -/
def lifeWritten (o : Otp) (d : Dev) : Otp × Dev :=
  match d.sys.lifePending with
  | some (life, page, tag) =>
    if !(d.sys.phase == .up) || d.sys.mode == .halted then (o, d)
    else
      let d := { d with sys := { d.sys with lifePending := none } }
      let d := if life = .retired then retireKeys d else d
      let d := finish page tag 0x0125 stOk 0 d
      ({ o with life := lifeForward o.life life },
        if d.sb.up then lifeEvent o.life life d else { d with sys := { d.sys with lifeHeld := some (o.life, life) } })
  | none => (o, d)

/-- DESIGN CHOICE (log 3). -/
def execLifeOtpWriteDone (s : State) : Host.Outcome State Fault Refusal := runOtp lifeWritten s

/-! SYS_CLEAR_CONFIG (R110). -/

/-- Every port, SA, table and schedule at its start default. Counts, frame counters (R161) and key generations (R271)
go on, as do network time, key slots, the Granary's quotas and parameters, the thermal thresholds and the shadow setting
of the slices. DESIGN CHOICE (log 73). -/
def clearConfig (d : Dev) : Dev :=
  let blank := fun (x : Slice) => { x.wipe with dir := 0 }
  { d with
    fm := { Fm.init with nextFlight := d.fm.nextFlight }
    ln := { Lanes.init with jtagDrive := d.ln.jtagDrive }
    lm := { Lm.init with txFc := d.lm.txFc }
    kc := { Kc.init with installs := d.kc.installs, order := d.kc.order, discarded := d.kc.discarded, nextSched := d.kc.nextSched }
    sl := { d.sl with slices := d.sl.slices.map (fun p => (p.1, blank p.2)) }
    dsp := { Dsp.init with
      hits := d.dsp.hits, misses := d.dsp.misses, missDrops := d.dsp.missDrops, prefetches := d.dsp.prefetches
      movesDone := d.dsp.movesDone, nextMove := d.dsp.nextMove }
    grn := (freeBuffers d).grn
    pth := Paths.init
    sch := Sch.init
    tu := { d.tu with ptpOut := [], capture := [], captureNext := [] }
    pwr := { d.pwr with curve := curveReset, shadow := curveReset, armed := false } }

def cmdSysClearConfig : Cmd where
  code := 0x0126
  expert := true
  modes := [.staging]
  retired := true
  lenOk := lenIs 0
  busy := fun _ d _ => anyMaint d || anyAccepted d
  act := fun _ d _ => (clearConfig d, stOk, [])

def execSysClearConfig (r : NcsReq) (s : State) : Host.Outcome State Fault Refusal :=
  run (command cmdSysClearConfig r) s

/-! Recalibration (R111, R112). -/

def setRecal (x : Recal) (d : Dev) : Dev := { d with sys := { d.sys with recal := some x } }

/-- Phase 1 comes to slice n: it is tested, with the work of an ACTIVE slice on an idle Siding, or skipped and
counted; a slice out of service is passed over. -/
def recalTry (n : Nat) (x : Recal) (o : Otp) (d : Dev) : Dev :=
  let st := (sliceOf d n).state
  let test := fun (d : Dev) => setRecal { x with slice := some n } (setState n 6 d)
  let skip := setRecal { x with skipped := x.skipped + 1 } d
  match st with
  | 7 => d
  | 0 => test (slicePowerUp n o (countUp (128 + n) d))
  | 1 =>
    if sliceUnused d n then test d
    else if idleSidings o d = 0 then skip
    else match pickSiding o d (sliceSector n) with
      | some m => test (takeOver o n m d)
      | none => skip
  | 2 | 3 => test (clearSiding o n d)
  | _ => skip

/-- Phase 1 goes on from slice k to the next one it can test. -/
def recalFrom (k : Nat) (o : Otp) (d : Dev) : Dev :=
  ((List.range (slices o)).filter (fun n => decide (k ≤ n))).foldl (fun d n => match d.sys.recal with
    | some x => if x.slice.isSome then d else recalTry n x o d
    | none => d) d

/-- Phase 3: d_live of every lane that holds its locks is set again from its clock-crossing fill, a free value
(R446). DEDUCED (log 50). -/
def recalDelays (d : Dev) : Dev :=
  let keys := (d.ln.lanes.filter (fun l => l.2.lock)).flatMap (fun l => [dk (l.1 / 64) 0 (l.1 % 64), dk (l.1 / 64) 1 (l.1 % 64)])
  keys.foldl (fun d k =>
    let x := draw 32 d
    { x.2 with tu := { x.2.tu with
      dLive := tset x.2.tu.dLive k x.1.toInt, dCount := tdel x.2.tu.dCount k, dBlock := tdel x.2.tu.dBlock k
      dCal := tdel x.2.tu.dCal k } }) d

/-- Phase 3 and the end. -/
def recalLast (d : Dev) : Dev :=
  match d.sys.recal with
  | some x => recalEnd stOk (if x.delays then recalDelays d else d)
  | none => d

/-- Phase 2: every droop sensor is in service with its trim at 0. -/
def recalDroop (x : Recal) (o : Otp) (d : Dev) : Dev :=
  let back := (d.pwr.sensors.filter (fun s => s.2.out && decide (s.1 < 16 * sectors o))).length
  let d := setRecal { x with droop := true, droopTicks := 0, returned := back } { d with pwr := { d.pwr with sensors := [] } }
  (List.range (sectors o)).foldl (fun d s => setLevel s (powerOf d s).level (powerOf d s).sag d) d

/-- The phases after slice k - 1. -/
def recalNext (k : Nat) (o : Otp) (d : Dev) : Dev :=
  let d := match d.sys.recal with
    | some x => if x.slices then recalFrom k o d else d
    | none => d
  match d.sys.recal with
  | some x => if x.slice.isSome then d else if x.sensors then recalDroop x o d else recalLast d
  | none => d

def cmdSysRecalibrate : Cmd where
  code := 0x0127
  expert := true
  modes := runModes
  retired := true
  event := true
  lenOk := lenIs 1
  bad := fun _ _ r => firstBad [(0, rf r 0 31 3 == 0 && rf r 0 2 0 != 0)]
  busy := fun _ d _ => d.sys.recal.isSome
  act := fun _ d r =>
    let w := rw r 0
    (maintStart 3 (setRecal ⟨r.page, r.tag, bit w 0, bit w 1, bit w 2, none, false, 0, false, 0, 0, 0⟩ d), stAccepted, [])
  after := fun o _ st d => if st = stAccepted then recalNext 0 o d else d

def execSysRecalibrate (r : NcsReq) (s : State) : Host.Outcome State Fault Refusal :=
  run (command cmdSysRecalibrate r) s

/-- The test of the slice in hand ends (R111, R251, R267). -/
def recalTested (runs : List (Bool × Bool)) (o : Otp) (d : Dev) : Dev :=
  match d.sys.recal with
  | some x => match x.slice with
    | some n =>
      let pass := katFail o runs == 0
      let d := testEnded n pass o (setRecal { x with slice := none, failed := if pass then x.failed else x.failed + 1 } d)
      if x.stopping then recalEnd stLocked d else recalNext (n + 1) o (bulkAssign o d)
    | none => d
  | none => d

def execRecalSliceTestDone (runs : List (Bool × Bool)) (s : State) : Host.Outcome State Fault Refusal := run (recalTested runs) s

/-- Phase 2 has run for 100 ticks. -/
def recalDroopEnd (_ : Otp) (d : Dev) : Dev :=
  match d.sys.recal with
  | some x => if x.droop && 100 ≤ x.droopTicks then recalLast (setRecal { x with droop := false } d) else d
  | none => d

def execRecalDroopPhaseEnd (s : State) : Host.Outcome State Fault Refusal := run recalDroopEnd s

/-- A tick of recalibration. -/
def recalTick (d : Dev) : Dev :=
  match d.sys.recal with
  | some x => if x.droop then setRecal { x with droopTicks := x.droopTicks + 1 } d else d
  | none => d

end Sys2Proof.Machine
end

