-- ==== Sys2Proof/Machine/Paths.lean ====
section
/-!
DEFINITION. Path pairs (chapter 11): commands, the claim frames of frame mode, guard, holdoff.
-/
namespace Sys2Proof.Machine

/-! Commands (R399 to R404). -/

/-- The lanes and rates of two Sheaves fit a pair (R376). -/
def pairSheavesOk (d : Dev) (a b : Nat) : Bool :=
  match tget d.lm.sheaves a, tget d.lm.sheaves b with
  | some x, some y => a != b && x.members.length == y.members.length && sheafType d a == sheafType d b
      && !pathUsesSheaf d a && !pathUsesSheaf d b && !namesSheaf d b
  | _, _ => false

/-- Two line ports fit a pair (R376). -/
def pairPortsOk (o : Otp) (d : Dev) (a b : Nat) : Bool :=
  match portOf d (lk 0 a), portOf d (lk 0 b) with
  | some x, some y => a != b && decide (a < lanes o) && decide (b < lanes o) && lineBound d a && !lineBound d b
      && !inLineMode d b && portGbps x == portGbps y && !pathUsesLine d a && !pathUsesLine d b
  | _, _ => false

/-- The claim SC is a transmit SC of a SecY on port A. -/
def claimScOk (d : Dev) (a sc : Nat) : Bool :=
  match tget d.fm.scs sc with
  | some x => x.tx && (match tget d.fm.secys x.secy with | some y => y.line == a | none => false)
  | none => false

/-- The pair a request makes. -/
def reqPair (d : Dev) (r : NcsReq) : PathPair :=
  let line := bit (rw r 0) 31
  let a := if line then rf r 2 25 16 else rf r 2 21 16
  let b := if line then rf r 2 9 0 else rf r 2 5 0
  { line := line
    hitless := bit (rw r 0) 30
    profile := rf r 0 29 28
    dp := rf r 1 11 0
    a := { PathEnd.init with carrier := a, txPrio := rf r 3 3 0, heard := rawNow d }
    b := { PathEnd.init with carrier := b, txPrio := rf r 3 7 4, heard := rawNow d }
    selected := 0
    force := none
    claimSc := rf r 4 17 0
    switches := 0
    late := 0
    units := []
    delivered := []
    invalid := 0
    holdoff := none
    hold := none
    claimAt := none
    bSends := !line
    sched := none }

def cmdPathPairCreate : Cmd where
  code := 0x0800
  modes := runModes
  blank := false
  lenOk := lenIs 5
  bad := fun o d r =>
    let line := bit (rw r 0) 31
    firstBad
      [(0, rf r 0 27 5 == 0 && decide (rf r 0 4 0 < pairsMax o) && (tget d.pth.pairs (rf r 0 4 0)).isNone),
       (1, rf r 1 31 12 == 0 && (if bit (rw r 0) 30 then decide (1 ≤ rf r 1 11 0) && decide (rf r 1 11 0 ≤ 4000) else rf r 1 11 0 == 0)),
       (2, if line then (rw r 2 &&& ~~~0x03FF03FF#32) == 0 && pairSheavesOk d (rf r 2 25 16) (rf r 2 9 0)
           else (rw r 2 &&& ~~~0x003F003F#32) == 0 && pairPortsOk o d (rf r 2 21 16) (rf r 2 5 0)),
       (3, rf r 3 31 8 == 0),
       (4, if line then rw r 4 == 0 else rf r 4 31 18 == 0 && claimScOk d (rf r 2 21 16) (rf r 4 17 0))]
  full := fun o d r => !reservationsFit o (setPair (rf r 0 4 0) (reqPair d r) d)
  act := fun _ d r => (pathsRefresh (setPair (rf r 0 4 0) (reqPair d r) d), stOk, [])

def execPathPairCreate (r : NcsReq) (s : State) : Host.Outcome State Fault Refusal := run (command cmdPathPairCreate r) s

/-- R397, R401: back to path A, then the pair is gone; its stored units are dropped. DEDUCED (log 38). -/
def pairDelete (i : Nat) (d : Dev) : Dev :=
  match tget d.pth.pairs i with
  | none => d
  | some p =>
    let d := yardFree i (withDefects (fun d => { d with pth := { d.pth with pairs := tdel d.pth.pairs i } }) d)
    p.units.foldl (fun d u => match u.flight with | some f => gleanFinish true f.glean d | none => d) d

/-- A pair word names a pair; `extra` are the other bits it may use. -/
def pairWordOk (d : Dev) (w extra : Word) : Bool :=
  (w &&& ~~~(0x1F#32 ||| extra)) == 0 && (tget d.pth.pairs (fld w 4 0)).isSome

def cmdPathPairDelete : Cmd where
  code := 0x0801
  modes := runModes
  blank := false
  lenOk := lenIs 1
  bad := fun _ d r => firstBad [(0, pairWordOk d (rw r 0) 0)]
  act := fun _ d r => (pairDelete (rf r 0 4 0) d, stOk, [])

def execPathPairDelete (r : NcsReq) (s : State) : Host.Outcome State Fault Refusal := run (command cmdPathPairDelete r) s

/-- The request in force, a lockout before a force (R402). -/
def requestCode (p : PathPair) : Nat :=
  if p.a.lockout then 1 else if p.b.lockout then 2 else match p.force with | some 0 => 3 | some _ => 4 | none => 0

/-- The six words of R402. -/
def pathWords (i : Nat) (p : PathPair) : List Word :=
  let off := fun (e : PathEnd) => if p.hitless then wd (min e.offset 0xFFFFFFFF) else 0
  [wd (flag p.line 31 + flag p.hitless 30 + p.selected * 2 ^ 24 + requestCode p * 2 ^ 21 + p.a.state * 2 ^ 18
     + p.b.state * 2 ^ 16 + i),
   wd (claimOf p.a * 2 ^ 16 + claimOf p.b), wd (p.a.accepted * 2 ^ 16 + p.b.accepted), off p.a, off p.b,
   wd (min p.switches 0xFFFF * 2 ^ 16 + min p.late 0xFFFF)]

def cmdPathStatus : Cmd where
  code := 0x0802
  smb := true
  lenOk := lenIs 1
  bad := fun _ d r => firstBad [(0, pairWordOk d (rw r 0) 0)]
  act := fun _ d r => match tget d.pth.pairs (rf r 0 4 0) with
    | some p => (d, stOk, pathWords (rf r 0 4 0) p)
    | none => (d, stOk, [])

def execPathStatus (r : NcsReq) (s : State) : Host.Outcome State Fault Refusal := run (command cmdPathStatus r) s

def stPathRefused : Nat := 0x8800

/-- R391, R403. DEDUCED (log 38). -/
def pathRequest (kind path i : Nat) (d : Dev) : Dev × Nat :=
  match tget d.pth.pairs i with
  | none => (d, stOk)
  | some p =>
    let e := p.pathEnd (path == 1)
    let s := p.pathEnd (path == 0)
    match kind with
    | 0 =>
      let p := { p with a := { p.a with lockout := false }, b := { p.b with lockout := false }, force := none }
      (pathsRefresh (setPair i p d), stOk)
    | 1 => (pathsRefresh (setPair i (p.withEnd (path == 1) { e with lockout := true }) d), stOk)
    | 2 => if e.lockout then (d, stPathRefused) else (pathsRefresh (setPair i { p with force := some path } d), stOk)
    | _ =>
      if e.lockout || p.selected == path || e.state != 2 || decide (e.health < s.health) || p.force == some p.selected then
        (d, stPathRefused)
      else (pathsRefresh (withDefects (switchPath i path 4) d), stOk)

def cmdPathRequest : Cmd where
  code := 0x0803
  modes := runModes
  blank := false
  lenOk := lenIs 1
  bad := fun _ d r => firstBad [(0, pairWordOk d (rw r 0) 0xF0000100#32 && decide (rf r 0 31 28 ≤ 3))]
  act := fun _ d r =>
    let x := pathRequest (rf r 0 31 28) (rf r 0 8 8) (rf r 0 4 0) d
    (x.1, x.2, [])

def execPathRequest (r : NcsReq) (s : State) : Host.Outcome State Fault Refusal := run (command cmdPathRequest r) s

def cmdPathPrioritySet : Cmd where
  code := 0x0804
  modes := runModes
  blank := false
  lenOk := lenIs 1
  bad := fun _ d r => firstBad [(0, pairWordOk d (rw r 0) 0x000F0100#32)]
  act := fun _ d r => match tget d.pth.pairs (rf r 0 4 0) with
    | some p =>
      let b := bit (rw r 0) 8
      (setPair (rf r 0 4 0) (p.withEnd b { p.pathEnd b with txPrio := rf r 0 19 16 }) d, stOk, [])
    | none => (d, stOk, [])

def execPathPrioritySet (r : NcsReq) (s : State) : Host.Outcome State Fault Refusal := run (command cmdPathPrioritySet r) s

def cmdPathProfileWrite : Cmd where
  code := 0x0810
  expert := true
  modes := runModes
  blank := false
  lenOk := lenIs 3
  bad := fun _ _ r => firstBad
    [(0, rf r 0 31 2 == 0), (1, rf r 1 31 16 != 0),
     (2, rf r 2 3 0 == 0 && rf r 2 23 16 != 0 && rf r 2 15 8 != 0 && rf r 2 7 4 != 0)]
  act := fun _ d r =>
    ({ d with pth := { d.pth with profilesNext := tset d.pth.profilesNext (rf r 0 1 0) (rw r 1, rw r 2) } }, stOk, [])

def execPathProfileWrite (r : NcsReq) (s : State) : Host.Outcome State Fault Refusal := run (command cmdPathProfileWrite r) s

def cmdPathProfileRead : Cmd where
  code := 0x0811
  expert := true
  blank := false
  lenOk := lenIs 1
  bad := fun _ _ r => firstBad [(0, rf r 0 31 2 == 0)]
  act := fun _ d r =>
    let p := (tget d.pth.profilesNext (rf r 0 1 0)).getD (pointsProfile d (rf r 0 1 0))
    (d, stOk, [p.1, p.2])

def execPathProfileRead (r : NcsReq) (s : State) : Host.Outcome State Fault Refusal := run (command cmdPathProfileRead r) s

/-! Claim frames (R386, R387). -/

/-- Bytes 0 to 43 of a claim frame. -/
def claimHead (etype pair path an claim sci pn : Nat) : Bytes :=
  let b16 := path * 128 + pair
  beBytes 6 0x035A52434C00 ++ beBytes 6 (sci / 65536) ++ beBytes 2 etype ++ beBytes 1 2 ++ beBytes 1 1 ++ beBytes 1 b16
    ++ beBytes 1 (an * 64) ++ beBytes 2 claim ++ beBytes 8 sci ++ beBytes 8 pn ++ zeros 8

/-- One claim frame on one path, with the next PN of the claim SC. DEDUCED (log 40). -/
def claimSend (i : Nat) (b : Bool) (d : Dev) : Dev :=
  match tget d.pth.pairs i with
  | none => d
  | some p =>
    match tget d.fm.scs p.claimSc, (encodingSa d (objKey 0 p.claimSc)).bind (fun j => (saOf d j).map (fun x => (j, x))) with
    | some sc, some (j, x) =>
      if x.exhausted then d
      else
        let e := p.pathEnd b
        let h := claimHead d.fm.etype i (b1 b) x.an (sentClaim e) sc.sci x.pn
        let f := h ++ gcmTag x.key (fmIv x sc.sci x.pn) h []
        let d := setSa j { x with pn := x.pn + 1 } d
        let d := match tget d.fm.secys sc.secy with | some y => afterPn y j x.pn d | none => d
        out (.frame 1 e.carrier f (fcsOf true f)) (occupy (lk 0 e.carrier) (wireBytes f) d)
    | _, _ => d

/-- The claim period of a frame-mode pair has passed: one claim frame on each path (R386). -/
def claimPeriod (i dt : Nat) (_ : Otp) (d : Dev) : Dev :=
  let d := passTime dt d
  match tget d.pth.pairs i with
  | some p =>
    let due := match p.claimAt with | some t => decide (t + usCycles (pfPeriod d p) ≤ rawNow d) | none => true
    if p.line || !trafficOn d || !due then d
    else claimSend i true (claimSend i false (setPair i { p with claimAt := some (rawNow d) } d))
  | none => d

def execClaimFrameSend (pair : Timed) (s : State) : Host.Outcome State Fault Refusal := run (claimPeriod pair.val pair.dt) s

/-- The receive SC and SA of a claim frame on a pair's port A. -/
def claimSa (d : Dev) (p : PathPair) (f : Bytes) : Option (Nat × SaRec) :=
  match ((secysOf d p.a.carrier).flatMap (fun y => rxScs d y.1)).find? (fun c => c.2.sci == beAt f 20 8) with
  | some c => (saOn d (objKey 1 c.1) (beAt f 17 1 / 64)).bind (fun j => (saOf d j).map (fun x => (j, x)))
  | none => none

/-- A claim frame is valid on a path of a pair (R387). DEDUCED (log 40). -/
def claimValid (d : Dev) (i : Nat) (p : PathPair) (b : Bool) (f : Bytes) : Bool :=
  match claimSa d p f with
  | some (_, x) =>
    gcmTag x.key (fmIv x (beAt f 20 8) (beAt f 28 8)) (f.take 44) [] == slice f 44 16
      && beAt f 15 1 == 1 && beAt f 16 1 % 32 == i && (beAt f 16 1).testBit 7 == b
      && decide ((p.pathEnd b).claimPn < beAt f 28 8)
  | none => false

/-- A valid claim is accepted when two frames in a row carry it (R383). DEDUCED (log 40). -/
def claimTake (i : Nat) (p : PathPair) (b : Bool) (f : Bytes) (d : Dev) : Dev :=
  let e := p.pathEnd b
  let c := beAt f 18 2
  let run := if c = e.cand then e.candRun + 1 else 1
  let e := { e with
    missed := false, heard := rawNow d, claimPn := beAt f 28 8, cand := c, candRun := run, accepted := if 2 ≤ run then c else e.accepted }
  pathsRefresh (setPair i (p.withEnd b e) d)

/-- A claim frame arrives on a line port. DEDUCED (log 40). -/
def claimReceive (l : Nat) (f : Bytes) (dt : Nat) (_ : Otp) (d : Dev) : Dev :=
  let d := passTime dt d
  if !trafficOn d || f.length < 60 || beAt f 12 2 ≠ d.fm.etype || beAt f 14 1 ≠ 2 then d
  else if (match tget d.pth.pairs (beAt f 16 1 % 32) with | some p => p.line | none => true) then
    { d with pth := { d.pth with strayClaims := d.pth.strayClaims + 1 } }
  else match pairOfLine d l with
    | none => d
    | some (i, p, b) =>
      if claimValid d i p b f then claimTake i p b f d else setPair i { p with invalid := p.invalid + 1 } d

def execClaimFrameReceive (port : Nat) (frame : Bytes) (dt : Nat) (s : State) : Host.Outcome State Fault Refusal :=
  run (claimReceive port frame dt) s

/-- CLAIM_MISS claim periods have passed without a valid claim frame on a path (R384). -/
def claimMiss (i path dt : Nat) (_ : Otp) (d : Dev) : Dev :=
  let d := passTime dt d
  match tget d.pth.pairs i with
  | some p =>
    let e := p.pathEnd (path == 1)
    if p.line || 2 ≤ path || rawNow d < e.heard + usCycles (pfMiss d p * pfPeriod d p) then d
    else pathsRefresh (setPair i (p.withEnd (path == 1) { e with missed := true, candRun := 0 }) d)
  | none => d

def execClaimMissExpiry (pair : Nat) (path : Timed) (s : State) : Host.Outcome State Fault Refusal := run (claimMiss pair path.val path.dt) s

/-- GUARD ticks have passed in ALIGNING (R388). -/
def guardExpiry (i path : Nat) (_ : Otp) (d : Dev) : Dev :=
  match tget d.pth.pairs i with
  | some p =>
    let b := path == 1
    let e := p.pathEnd b
    if 2 ≤ path || e.state ≠ 1 || !endFit d p e || d.sys.ticks < e.since + pfGuard d p then d
    else
      let p := p.withEnd b { e with state := 2 }
      pathsRefresh (pathStateEvent i p b 1 (setPair i p d))
  | none => d

def execPathGuardExpiry (pair path : Nat) (s : State) : Host.Outcome State Fault Refusal := run (guardExpiry pair path) s

/-- The fall of the selected path's HEALTH has lasted HOLDOFF: the Points acts on it (R389). -/
def holdoffExpiry (i dt : Nat) (_ : Otp) (d : Dev) : Dev :=
  let d := passTime dt d
  match tget d.pth.pairs i with
  | some p => match p.holdoff with
    | some (_, t) => if rawNow d < t + usCycles (10 * pfHoldoff d p) then d else pathsRefresh (setPair i { p with holdoff := none } d)
    | none => d
  | none => d

/-- DESIGN CHOICE (log 3). -/
def execHoldoffExpiry (pair : Timed) (s : State) : Host.Outcome State Fault Refusal := run (holdoffExpiry pair.val pair.dt) s

end Sys2Proof.Machine
end

