-- ==== Sys2Proof/Machine/Time.lean ====
section
/-!
DEFINITION. Network time and time-stamps (chapter 13): the TU_ registers, the time commands, PPS and ToD,
references, path delays. Steps, re-arms and seconds boundaries are in TimeEvents.
-/
namespace Sys2Proof.Machine

/-- BAR2 answers host accesses (R78, R97). -/
def bar2Ready (d : Dev) : Bool := reachable d 0

/-! Registers (R439, R443, R451). -/

/-- A snapshot of TU_SEC_HI to TU_RAW_HI; the raw count reads 0 under Model T. -/
def snapWords (d : Dev) : List Word :=
  let t := timeNow d
  let raw := if d.tu.modelF then rawNow d % 2 ^ 64 else 0
  stampWords d.tu.epoch t ++ [wd (fracOf t), lo32 raw, hi32 raw]

/-- A write of TU_CTL: the arms, each alarm judged at once where it is armed, and the snapshot. -/
def tuCtlWrite (v : Word) (_ : Otp) (d : Dev) : Dev :=
  if !bar2Ready d then d
  else
    let d := alarms { d with tu := { d.tu with arm := bit v 30, arm32 := bit v 29 } }
    if bit v 31 then { d with tu := { d.tu with snap := snapWords d } } else d

def execTuCtlSnap (v : Word) (s : State) : Host.Outcome State Fault Refusal := run (tuCtlWrite v) s

/-- Setting ALARM_ARM (R439) is a write of TU_CTL. -/
def execTuAlarmArmWrite (v : Word) (s : State) : Host.Outcome State Fault Refusal :=
  run (fun o d => tuCtlWrite v o d) s

/-- Setting ALARM32_ARM (R439) is a write of TU_CTL. -/
def execTuAlarm32ArmWrite (v : Word) (s : State) : Host.Outcome State Fault Refusal :=
  run (fun o d => (tuCtlWrite v o) d) s

/-- A write of an alarm value register; an armed alarm is judged at once (R439). -/
def alarmValueWrite (off : Nat) (v : Word) (_ : Otp) (d : Dev) : Dev :=
  if !bar2Ready d then d
  else match off with
    | 0x030 => alarms { d with tu := { d.tu with almHi := wd (fld v 15 0) } }
    | 0x034 => alarms { d with tu := { d.tu with almLo := v } }
    | 0x038 => alarms { d with tu := { d.tu with almNs := v } }
    | 0x03C => alarms { d with tu := { d.tu with alm32 := v } }
    | _ => d

def execTuAlarmValueWrite (off : Nat) (v : Word) (s : State) : Host.Outcome State Fault Refusal :=
  run (alarmValueWrite off v) s

/-- Network time reaches the native alarm (R439); dt cycles pass first. -/
def execNativeAlarmFire (dt : Nat) (s : State) : Host.Outcome State Fault Refusal :=
  run (fun _ d => alarms (passTime dt d)) s

/-- The 32-bit view reaches TU_ALARM32 (R439); dt cycles pass first. -/
def execAlarm32Fire (dt : Nat) (s : State) : Host.Outcome State Fault Refusal :=
  run (fun _ d => (alarms ∘ passTime dt) d) s

/-- TU_TXQ_ID: pops the oldest stamp into the TXQ registers (R451). -/
def txqRead (_ : Otp) (d : Dev) : Dev :=
  if !bar2Ready d then d
  else match d.tu.txq with
    | [] => out (.readValue 0) d
    | x :: rest =>
      out (.readValue (wd (2 ^ 31 + x.side * 2 ^ 23 + x.port * 2 ^ 16 + x.id)))
        { d with tu := { d.tu with txq := rest, txqRegs := stampWords x.epoch x.t ++ [wd (fracOf x.t)] } }

def execTuTxqIdRead (s : State) : Host.Outcome State Fault Refusal := run txqRead s

/-- TU_TXQ_OVF.FLAG, write 1 to clear, with COUNT (R443). -/
def txqOvfClear (v : Word) (_ : Otp) (d : Dev) : Dev :=
  if bar2Ready d && bit v 31 then { d with tu := { d.tu with ovfFlag := false, ovfCount := 0 } } else d

def execTuTxqOvfClear (v : Word) (s : State) : Host.Outcome State Fault Refusal := run (txqOvfClear v) s

/-- TU_STATUS, write 1 to clear (R451). -/
def tuStatusWrite (v : Word) (d : Dev) : Dev :=
  let u := d.tu
  { d with tu := { u with
    todIn := u.todIn && !bit v 7, ppsIn := u.ppsIn && !bit v 6, refLost := u.refLost && !bit v 5,
    rearmed := u.rearmed && !bit v 2, alarm32 := u.alarm32 && !bit v 1, alarm := u.alarm && !bit v 0 } }

/-! PPS, ToD, references, calibration. -/

/-- The TU and its inputs run: past the mode entry of a start (R432). -/
def tuRuns (d : Dev) : Bool := match d.sys.phase with | .up | .sleeping => true | _ => false

/-- R448: the selected edge is stamped. -/
def ppsInEdge (falling : Bool) (dt : Nat) (_ : Otp) (d : Dev) : Dev :=
  let d := passTime dt d
  if tuRuns d && (falling == bit d.tu.pps 28) then
    withHw (fun d => { d with tu := { d.tu with
      ppsStamp := some (d.tu.epoch, timeNow d), ppsRaw := rawNow d, ppsIn := true } }) d
  else d

def execPpsInEdge (falling : Bool) (dt : Nat) (s : State) : Host.Outcome State Fault Refusal :=
  run (ppsInEdge falling dt) s

/-- R448: the configured width after the rising edge has passed. -/
def ppsOutEnd (dt : Nat) (_ : Otp) (d : Dev) : Dev :=
  let d := passTime dt d
  match d.tu.ppsUntil with
  | some t => if t ≤ rawNow d then out (.pin 0 false) { d with tu := { d.tu with ppsUntil := none } } else d
  | none => d

def execPpsOutPulseEnd (dt : Nat) (s : State) : Host.Outcome State Fault Refusal := run (ppsOutEnd dt) s

/-- A message of R449 is accepted: its form, its CRC, and 1 to 900 ms since the last edge (a millisecond is
1,750,000 TU cycles). DEDUCED (log 44). -/
def todOk (d : Dev) (m : Bytes) : Bool :=
  m.length == 16 && beAt m 0 2 == 0x5A54 && beAt m 2 1 == 1 && beAt m 14 2 == crc16 (m.take 14)
    && d.tu.ppsStamp.isSome && decide (d.tu.ppsRaw + 1750000 ≤ rawNow d)
    && decide (rawNow d ≤ d.tu.ppsRaw + 900 * 1750000)

def todReceive (m : Bytes) (dt : Nat) (_ : Otp) (d : Dev) : Dev :=
  let d := passTime dt d
  if tuRuns d && bit d.tu.pps 29 && todOk d m then
    match d.tu.ppsStamp with
    | some (e, t) =>
      withHw (fun d => { d with tu := { d.tu with
        todIn := true, tod := some ((m.getD 3 0).getLsbD 1, beAt m 4 6, e, t) } }) d
    | none => d
  else d

def execTodMessageReceive (msg : Bytes) (dt : Nat) (s : State) : Host.Outcome State Fault Refusal :=
  run (todReceive msg dt) s

/-- The ToD message of a second (R449). Bit 1 says that the reference is in use; bit 0 is a free value: the
spec does not say when the device calls its time valid. DEDUCED (log 44). -/
def todMessage (d : Dev) (valid : Bool) (sec : Nat) : Bytes :=
  let body := [0x5A#8, 0x54#8, 1#8, BitVec.ofNat 8 (b1 valid + 2 * b1 (d.tu.refUse == d.tu.ref))]
    ++ beBytes 6 sec ++ zeros 4
  body ++ beBytes 2 (crc16 body)

/-- Ten milliseconds after a PPS_OUT edge the message naming its second is sent. -/
def todSend (dt : Nat) (_ : Otp) (d : Dev) : Dev :=
  let d := passTime dt d
  match d.tu.todDue with
  | some (sec, raw) =>
    if raw + 17500000 ≤ rawNow d then
      let v := draw 1 d
      let d := { v.2 with tu := { v.2.tu with todDue := none } }
      if bit d.tu.pps 30 then out (.tod (todMessage d (v.1 == 1#1) sec)) d else d
    else d
  | none => d

def execTodMessageSend (dt : Nat) (s : State) : Host.Outcome State Fault Refusal := run (todSend dt) s

/-- R447: the TU moves to the lane reference; time stays continuous. -/
def turefLost (_ : Otp) (d : Dev) : Dev :=
  let d := { d with tu := { d.tu with turef := 0 } }
  if d.tu.refUse = 0 then d
  else
    emit 0 0x0A83 (wd (2 ^ 8)) 0 (withHw (fun d => { d with tu := { d.tu with refUse := 0, refLost := true } }) d)

def execTurefLost (s : State) : Host.Outcome State Fault Refusal := run turefLost s

/-- R447: the source has been within ±100 ppm for 1 s. -/
def turefRestored (source : Nat) (_ : Otp) (d : Dev) : Dev :=
  if source ≠ 1 && source ≠ 2 then d
  else
    let d := { d with tu := { d.tu with turef := source } }
    if d.tu.ref = source && d.tu.refUse ≠ source then
      emit 0 0x0A83 (wd source) 0 { d with tu := { d.tu with refUse := source } }
    else d

def execTurefRestored (source : Nat) (s : State) : Host.Outcome State Fault Refusal := run (turefRestored source) s

/-- R446: a block of 64 measurements with this mean replaces d_live when it differs by more than 0.25 ns. -/
def dliveUpdate (side dir lane : Nat) (mean : Int) (o : Otp) (d : Dev) : Dev :=
  let k := dk side dir lane
  if side ≤ 1 && dir ≤ 1 && lane < lanes o && 64 ≤ tgetD d.tu.dBlock k 0 then
    let cur := tgetD d.tu.dLive k 0
    let far := decide (250 < mean - cur) || decide (250 < cur - mean)
    { d with tu := { d.tu with
      dLive := if far then tset d.tu.dLive k mean else d.tu.dLive
      dBlock := tset d.tu.dBlock k (tgetD d.tu.dBlock k 0 - 64)
      dCal := tset d.tu.dCal k true } }
  else d

def execDliveUpdate (side dir lane : Nat) (mean : Int) (s : State) : Host.Outcome State Fault Refusal :=
  run (dliveUpdate side dir lane mean) s

/-! Commands (R452 to R462). -/

def cmdTimeGet : Cmd where
  code := 0x0A00
  tenants := true
  smb := true
  lenOk := lenIs 0
  act := fun _ d _ =>
    let t := timeNow d
    let u := d.tu
    (d, stOk, stampWords u.epoch t ++ [wd (fracOf t),
      wd (flag u.stepUsed 31 + flag (!u.modelF) 30 + u.refUse * 2 ^ 28 + flag (u.refUse == u.ref) 27 + flag u.stepMade 26),
      wd (ofSigned 32 u.rateSet)])

def execTimeGet (r : NcsReq) (s : State) : Host.Outcome State Fault Refusal := run (command cmdTimeGet r) s

/-- The signed 64-bit offset of a relative step: words 1 and 2, in ns (R454). -/
def stepOffset (a b : Word) : Int := toSigned 64 (a.toNat * 2 ^ 32 + b.toNat)

/-- The instant to which an align-to-PPS step moves the last edge, less that edge's stamp, in 2^-32 ns. -/
def alignDelta (d : Dev) : Option Int :=
  match d.tu.ppsStamp, d.tu.tod with
  | some (e, t), some (_, sec, e', t') =>
    if e = e' && t = t' && decide (rawNow d ≤ d.tu.ppsRaw + 2000 * 1750000) then some ((sec * secU : Int) - t) else none
  | _, _ => none

/-- What a step of a kind adds to the time, in 2^-32 ns, judged now. -/
def stepDelta (d : Dev) (kind : Nat) (a b c : Word) : Option Int :=
  match kind with
  | 0 => some (stepOffset a b * 2 ^ 32)
  | 1 => some ((instant (fld a 15 0 * 2 ^ 32 + b.toNat) c.toNat : Int) - timeNow d)
  | 2 => alignDelta d
  | _ => none

/-- Checks of words 0 to 3 of R454; `none_` allows kind 3, which carries no step (R461). DEDUCED (log 13). -/
def stepBad (none_ : Bool) (d : Dev) (r : NcsReq) : Option Nat :=
  let kind := rf r 0 1 0
  let off := stepOffset (rw r 1) (rw r 2)
  let here := match stepDelta d kind (rw r 1) (rw r 2) (rw r 3) with
    | some x => decide (0 ≤ (timeNow d : Int) + x)
    | none => false
  firstBad (
    (0, rf r 0 15 2 == 0 && rf r 0 31 16 == d.tu.epoch && (none_ || kind != 3) && (kind != 2 || here))
    :: (match kind with
      | 0 => [(1, decide (-(2 ^ 62) ≤ off) && decide (off ≤ 2 ^ 62) && here), (3, rw r 3 == 0)]
      | 1 => [(1, rf r 1 31 16 == 0), (3, decide ((rw r 3).toNat ≤ 999999999))]
      | 2 => [(1, rw r 1 == 0), (2, rw r 2 == 0), (3, rw r 3 == 0)]
      | _ => []))

/-- A re-arm has been answered and has not acted (R450). -/
def rearmPending (d : Dev) : Bool := d.tu.pend.any (·.rearm)

def pendTime (p : TimePend) (d : Dev) : Dev := { d with tu := { d.tu with pend := d.tu.pend ++ [p] } }

/-- ST_STEP_USED (R463). -/
def stStepUsed : Nat := 0x8A00

def cmdTimeStep : Cmd where
  code := 0x0A01
  modes := runModes
  blank := false
  lenOk := lenIs 4
  bad := fun _ d r => stepBad false d r
  busy := fun _ d _ => rearmPending d
  act := fun _ d r =>
    if d.tu.stepUsed || d.tu.pend.any (fun p => !p.rearm) then (d, stStepUsed, [])
    else (pendTime ⟨false, rf r 0 1 0, rw r 1, rw r 2, rw r 3, (alignDelta d).getD 0, d.sys.ticks⟩ d, stOk, [])

def execTimeStep (r : NcsReq) (s : State) : Host.Outcome State Fault Refusal := run (command cmdTimeStep r) s

def cmdTimeRearm : Cmd where
  code := 0x0A11
  expert := true
  modes := runModes
  blank := false
  lenOk := lenIs 4
  bad := fun _ d r => stepBad true d r
  busy := fun _ d _ => rearmPending d
  act := fun _ d r => (pendTime ⟨true, rf r 0 1 0, rw r 1, rw r 2, rw r 3, (alignDelta d).getD 0, d.sys.ticks⟩ d, stOk, [])

def execTimeRearm (r : NcsReq) (s : State) : Host.Outcome State Fault Refusal := run (command cmdTimeRearm r) s

def cmdTimeRateSet : Cmd where
  code := 0x0A02
  modes := runModes
  blank := false
  lenOk := lenIs 1
  bad := fun _ _ r => firstBad [(0, decide (-32768000 ≤ (rw r 0).toInt) && decide ((rw r 0).toInt ≤ 32768000))]
  act := fun _ d r =>
    ({ d with tu := { d.tu with rateSet := (rw r 0).toInt, rateNext := some (rw r 0).toInt } }, stOk, [])

def execTimeRateSet (r : NcsReq) (s : State) : Host.Outcome State Fault Refusal := run (command cmdTimeRateSet r) s

/-- A port named by [31] side (0 line, 1 client) and [21:16] is bound in frame mode. -/
def boundPort (d : Dev) (w : Word) : Bool :=
  if bit w 31 then clientBound d (fld w 21 16) else lineBound d (fld w 21 16)

def cmdTimePtpSend : Cmd where
  code := 0x0A03
  modes := [.secure, .service]
  blank := false
  lenOk := fun r => decide (2 ≤ r.len) && r.len == 2 + (rf r 1 9 0 + 3) / 4
  bad := fun _ d r => firstBad
    [(0, rf r 0 30 22 == 0 && boundPort d (rw r 0)),
     (1, rf r 1 31 17 == 0 && rf r 1 15 10 == 0 && decide (60 ≤ rf r 1 9 0) && decide (rf r 1 9 0 ≤ 512))]
  act := fun _ d r =>
    let x : PtpOut := ⟨rf r 0 31 31, rf r 0 21 16, rf r 0 15 0, bit (rw r 1) 16, payloadBytes r 2 (rf r 1 9 0)⟩
    ({ d with tu := { d.tu with ptpOut := d.tu.ptpOut ++ [x] } }, stOk, [])

def execTimePtpSend (r : NcsReq) (s : State) : Host.Outcome State Fault Refusal := run (command cmdTimePtpSend r) s

/-- R442, R443: at a frame boundary the oldest host frame of the port leaves; its stamp enters the queue, or is
dropped and counted when the queue holds 256. A frame whose port was unbound, or whose mode was left, is discarded.
DESIGN CHOICE (log 77). -/
def ptpDepart (side port dt : Nat) (_ : Otp) (d : Dev) : Dev :=
  let d := passTime dt d
  match hostFrame d (lk side port) with
  | none => d
  | some x =>
    let sent := { d with tu := { d.tu with ptpOut := d.tu.ptpOut.erase x } }
    let sends := (d.sys.mode == .secure || d.sys.mode == .service) && (if side = 1 then clientBound d port else lineBound d port)
    if !sends then sent
    else if !portFree d (lk side port) then d
    else
    let d := measurePath side 1 port x.frame sent
    let d := out (.frame (if side = 1 then 0 else 1) port x.frame (crc32 x.frame)) (occupy (lk side port) (wireBytes x.frame) d)
    if !x.stamp then d
    else withHw (fun d =>
      if d.tu.txq.length < 256 then
        { d with tu := { d.tu with txq := d.tu.txq ++ [⟨side, port, x.id, d.tu.epoch, stampNow d side 1 port⟩] } }
      else { d with tu := { d.tu with ovfFlag := true, ovfCount := satInc 16 d.tu.ovfCount } }) d

def execPtpSendDepart (side port : Nat) (dt : Nat) (s : State) : Host.Outcome State Fault Refusal :=
  run (ptpDepart side port dt) s

/-- The response of R457 and the device with the oldest entry removed. -/
def ptpRecv (d : Dev) : Dev × List Word :=
  match d.tu.ring with
  | [] => ({ d with tu := { d.tu with ringDropped := false } }, [wd (flag d.tu.ringDropped 30)])
  | x :: rest =>
    ({ d with tu := { d.tu with ring := rest, ringDropped := false } },
     wd (2 ^ 31 + flag d.tu.ringDropped 30 + x.side * 2 ^ 23 + x.port * 2 ^ 16 + rest.length)
       :: (stampWords x.epoch x.t ++ [wd (x.frame.length * 2 ^ 16 + fracOf x.t)] ++ beWords x.frame))

def cmdTimePtpRecv : Cmd where
  code := 0x0A04
  blank := false
  lenOk := lenIs 0
  act := fun _ d _ => ((ptpRecv d).1, stOk, (ptpRecv d).2)

def execTimePtpRecv (r : NcsReq) (s : State) : Host.Outcome State Fault Refusal := run (command cmdTimePtpRecv r) s

def cmdTimeCaptureSet : Cmd where
  code := 0x0A05
  modes := runModes
  blank := false
  lenOk := lenIs 3
  bad := fun _ d r => firstBad
    [(0, rf r 0 28 22 == 0 && rf r 0 15 0 == 0 && boundPort d (rw r 0)), (2, rf r 2 15 0 == 0)]
  act := fun _ d r =>
    let mac := (rw r 1).toNat * 2 ^ 16 + rf r 2 31 16
    let v := if bit (rw r 0) 30 then some (if bit (rw r 0) 29 then some mac else none) else none
    ({ d with tu := { d.tu with
      captureNext := d.tu.captureNext ++ [(lk (rf r 0 31 31) (rf r 0 21 16), v)] } }, stOk, [])

def execTimeCaptureSet (r : NcsReq) (s : State) : Host.Outcome State Fault Refusal := run (command cmdTimeCaptureSet r) s

def cmdTimePpsSet : Cmd where
  code := 0x0A06
  modes := runModes
  blank := false
  lenOk := lenIs 1
  bad := fun _ _ r => firstBad [(0, rf r 0 27 19 == 0 && decide (1 ≤ rf r 0 18 0) && decide (rf r 0 18 0 ≤ 500000))]
  act := fun _ d r => ({ d with tu := { d.tu with ppsNext := some (rw r 0) } }, stOk, [])

def execTimePpsSet (r : NcsReq) (s : State) : Host.Outcome State Fault Refusal := run (command cmdTimePpsSet r) s

def cmdTimeTodGet : Cmd where
  code := 0x0A07
  lenOk := lenIs 0
  act := fun _ d _ => (d, stOk, match d.tu.tod with
    | some (locked, sec, e, t) =>
      [wd (2 ^ 31 + flag locked 30 + sec / 2 ^ 32 % 65536), lo32 sec] ++ stampWords e t
    | none => [0, 0, 0, 0, 0])

def execTimeTodGet (r : NcsReq) (s : State) : Host.Outcome State Fault Refusal := run (command cmdTimeTodGet r) s

def cmdTimeModelSet : Cmd where
  code := 0x0A10
  expert := true
  modes := [.staging]
  blank := false
  lenOk := lenIs 1
  bad := fun _ _ r => firstBad [(0, rf r 0 31 1 == 0)]
  act := fun _ d r => ({ d with tu := { d.tu with modelNext := some (!bit (rw r 0) 0) } }, stOk, [])

def execTimeModelSet (r : NcsReq) (s : State) : Host.Outcome State Fault Refusal := run (command cmdTimeModelSet r) s

/-- The lane selector of R452. -/
def selKey (w : Word) : Nat := dk (fld w 31 31) (fld w 30 30) (fld w 5 0)
def selOk (o : Otp) (w : Word) : Bool := fld w 29 6 == 0 && decide (fld w 5 0 < lanes o)

def cmdTimeDelaySet : Cmd where
  code := 0x0A12
  expert := true
  modes := runModes
  blank := false
  lenOk := lenIs 2
  bad := fun o _ r => firstBad
    [(0, selOk o (rw r 0)), (1, decide (-100000 ≤ (rw r 1).toInt) && decide ((rw r 1).toInt ≤ 100000))]
  act := fun _ d r =>
    ({ d with tu := { d.tu with dUserNext := tset d.tu.dUserNext (selKey (rw r 0)) (rw r 1).toInt } }, stOk, [])

def execTimeDelaySet (r : NcsReq) (s : State) : Host.Outcome State Fault Refusal := run (command cmdTimeDelaySet r) s

def cmdTimeDelayGet : Cmd where
  code := 0x0A13
  expert := true
  blank := false
  lenOk := lenIs 1
  bad := fun o _ r => firstBad [(0, selOk o (rw r 0))]
  act := fun _ d r =>
    let k := selKey (rw r 0)
    let typ := match portOfLane d (lk (rf r 0 31 31) (rf r 0 5 0)) with
      | some p => ((portOf d p).map (·.typ)).getD 0
      | none => 0
    let s32 := fun (i : Int) => wd (ofSigned 32 i)
    (d, stOk, [s32 (Config.dFix typ (rf r 0 30 30)), s32 (tgetD d.tu.dLock k 0), s32 (tgetD d.tu.dLive k 0),
      s32 (tgetD d.tu.dUser k 0), wd (flag (tgetD d.tu.dCal k false) 31 + tgetD d.tu.dCount k 0)])

def execTimeDelayGet (r : NcsReq) (s : State) : Host.Outcome State Fault Refusal := run (command cmdTimeDelayGet r) s

def cmdTimeRefSet : Cmd where
  code := 0x0A14
  expert := true
  modes := [.staging]
  blank := false
  lenOk := lenIs 1
  bad := fun _ _ r => firstBad [(0, rf r 0 31 2 == 0 && decide (rf r 0 1 0 ≠ 3))]
  full := fun _ d r => decide (rf r 0 1 0 ≠ 0) && decide (d.tu.turef ≠ rf r 0 1 0)
  act := fun _ d r => ({ d with tu := { d.tu with ref := rf r 0 1 0, refUse := rf r 0 1 0 } }, stOk, [])

def execTimeRefSet (r : NcsReq) (s : State) : Host.Outcome State Fault Refusal := run (command cmdTimeRefSet r) s

/-- What TICK_BOUNDARY puts in force of the time settings: rate and model (R434, R460), capture (R458),
d_user (R462). -/
def timeSettings (d : Dev) : Dev :=
  let d := rebase d
  let u := d.tu
  { d with tu := { u with
    rate := u.rateNext.getD u.rate, rateNext := none, modelF := u.modelNext.getD u.modelF, modelNext := none,
    capture := u.captureNext.foldl (fun t p => match p.2 with | some v => tset t p.1 v | none => tdel t p.1) u.capture,
    captureNext := [], dUser := u.dUserNext.foldl (fun t p => tset t p.1 p.2) u.dUser, dUserNext := [] } }

end Sys2Proof.Machine
end

