-- ==== Sys2Proof/Machine/Telemetry.lean ====
section
/-!
DEFINITION. Telemetry (chapter 20): slot counters as they are read (R606), snapshots (R610 to R613), the PCF_
registers (R619), the telemetry commands (R621).
-/
namespace Sys2Proof.Machine

/-! Slot counters. -/

/-- Core clock cycles that a slice has counted. DEDUCED (log 54). -/
def slotCycles (d : Dev) (n : Nat) : Nat :=
  let x := slotOf d n
  x.counted + match x.since with | some c => (powerOf d (sliceSector n)).cc - c | none => 0

/-- Delivered, wasted, back-blocked and front-starved (R606). -/
def slotCounts (d : Dev) (n : Nat) : List (BitVec 64) :=
  let x := slotOf d n
  [BitVec.ofNat 64 x.delivered, BitVec.ofNat 64 x.wasted, BitVec.ofNat 64 x.blocked,
   BitVec.ofNat 64 (slotCycles d n - x.delivered - x.wasted - x.blocked)]

def cmdTelSlotGet : Cmd where
  code := 0x1000
  lenOk := lenIs 1
  bad := fun o _ r => firstBad [(0, rf r 0 31 8 == 0 && decide (rf r 0 7 0 < slices o))]
  act := fun _ d r => (d, stOk, (slotCounts d (rf r 0 7 0)).flatMap two)

def execTelSlotGet (r : NcsReq) (s : State) : Host.Outcome State Fault Refusal := run (command cmdTelSlotGet r) s

/-! Sections (R611). -/

/-- A section mask selects section i. -/
def sectionOn (mask : Word) (i : Nat) : Bool := bit mask i

/-- Bodies of a fixed length. -/
def sectionSize (i : Nat) : Nat :=
  match i with
  | 1 => 4608
  | 2 => 48
  | 3 => 41472
  | 4 => 5632
  | 5 => 1838080
  | 6 => 16777216
  | 7 => 41943040
  | 8 => 64
  | _ => 0

/-- Counters as the bytes of a body of n of them; an object that is not there reads 0. -/
def counterBytes (n : Nat) (c : Counters) : Bytes := (List.range n).flatMap (fun i => leBytes 8 (c.getD i 0).toNat)

/-- The body of section i. -/
def sectionBody (o : Otp) (d : Dev) (i : Nat) : Bytes :=
  match i with
  | 1 => (List.range 144).flatMap (fun n => counterBytes 4 (slotCounts d n))
  | 2 => wordBytes (dspStats d)
  | 3 => (List.range 576).flatMap (fun n => counterBytes 9 (queueCounts (queueOf d n)))
  | 4 => (List.range 64).flatMap (fun n => wordBytes (if isLmLane d n then pmWords d (wd (2 ^ 30 + n)) ++ [0] else List.replicate 10 0))
      ++ (List.range 64).flatMap (fun n => wordBytes
        (if (activeRx d n).isSome then pmWords d (wd (2 ^ 31 + 2 ^ 30 + n)) else List.replicate 12 0))
  | 5 => (List.range 64).flatMap (fun n => counterBytes 6 ((statsAt d 0 n).getD []))
      ++ (List.range 16384).flatMap (fun n => counterBytes 14 ((statsAt d 1 n).getD []))
  | 6 => (List.range 262144).flatMap (fun n => counterBytes 8 ((statsAt d 2 n).getD []))
  | 7 => (List.range 1048576).flatMap (fun n => counterBytes 5 ((statsAt d 3 n).getD []))
  | 8 => wordBytes (pwrWords o d ++ stampWords d.tu.epoch (timeNow d) ++ [wd (fracOf (timeNow d))])
  | 9 => d.tel.records.flatMap wordBytes
  | _ => []

/-- A section with its header. -/
def sectionBytes (o : Otp) (d : Dev) (i : Nat) : Bytes :=
  let b := sectionBody o d i
  wordBytes [wd i, wd b.length, 0, 0] ++ b

/-- The next multiple of 64. -/
def pad64 (n : Nat) : Nat := (n + 63) / 64 * 64

/-- The sections of a mask, in ascending order. -/
def sectionsOf (mask : Word) : List Nat := ((List.range 9).map (· + 1)).filter (sectionOn mask)

/-- The snapshot that is latched now (R611). -/
def snapshotBytes (o : Otp) (d : Dev) : Bytes :=
  let t := d.tel
  let body := (sectionsOf t.sect).flatMap (sectionBytes o d)
  let len := pad64 (64 + body.length)
  wordBytes ([0x5A534E50#32, t.seq, wd len, t.sect] ++ stampWords d.tu.epoch (timeNow d)
      ++ [wd (t.lostR7 * 2 ^ 16 + t.lostS7)] ++ List.replicate 8 0)
    ++ body ++ zeros (len - 64 - body.length)

/-! The host ring (R612, R613). -/

/-- Bytes in use. -/
def telUsed (t : Tel) : Nat := (t.ringWr - t.ringRd).toNat

/-- Offset at which the next snapshot begins. -/
def telOffset (t : Tel) : Nat := t.ringWr.toNat % t.ringSize.toNat

/-- Bytes up to the end of the ring that a wrap marker takes, where a snapshot of n bytes would pass the end.
DEDUCED (log 51). -/
def telSkip (t : Tel) (n : Nat) : Nat :=
  if t.ringSize.toNat < telOffset t + n then t.ringSize.toNat - telOffset t else 0

/-- DEDUCED (log 51). -/
def telBase (t : Tel) : Nat := t.ringLo.toNat + 2 ^ 32 * t.ringHi.toNat

/-- A snapshot is lost: 1 ring full, 2 previous one still being written, 3 write failure. DEDUCED (log 51). -/
def snapLost (cause : Nat) (t : Tel) : Tel :=
  { t with
    lostSnaps := satInc 16 t.lostSnaps, lostS7 := satInc 16 t.lostS7, lostPeriod := satInc 32 t.lostPeriod
    lostCause := cause, event := t.event ||| 2 }

/-- The latch at a due tick boundary. DEDUCED (log 51). -/
def snapLatch (o : Otp) (d : Dev) : Dev :=
  if !d.tel.due || d.sys.mode == Mode.halted then d
  else
    let t := { d.tel with due := false, snapNow := false, seq := d.tel.seq + 1 }
    let b := snapshotBytes o { d with tel := t }
    let clear := fun (t : Tel) => { t with records := [] }
    if t.writing.isSome then withHw (fun d => { d with tel := clear (snapLost 2 t) }) d
    else
      let skip := telSkip t b.length
      if t.ringSize.toNat < telUsed t + skip + b.length then withHw (fun d => { d with tel := clear (snapLost 1 t) }) d
      else
        let d := if skip = 0 then d else out (.hostWrite (telBase t + telOffset t) (wordBytes [0x5A575250#32])) d
        { d with tel := clear { t with writing := some b, ringWr := t.ringWr + wd skip } }

def execSnapshotLatch (s : State) : Host.Outcome State Fault Refusal := run snapLatch s

/-- The last byte of the snapshot is written, or a write of it has failed. DEDUCED (log 51). -/
def snapWritten (ok : Bool) (_ : Otp) (d : Dev) : Dev :=
  match d.tel.writing with
  | none => d
  | some b =>
    let t := { d.tel with writing := none }
    if ok then
      let d := out (.hostWrite (telBase t + telOffset t) b) d
      withHw (fun d => { d with tel := { t with
        ringWr := t.ringWr + wd b.length, event := t.event ||| 1
        lostR7 := t.lostR7 - leAt b 30 2, lostS7 := t.lostS7 - leAt b 28 2 } }) d
    else withHw (fun d => { d with tel := { snapLost 3 t with snapEn := false, event := t.event ||| 10 } }) d

def execSnapshotWritten (ok : Bool) (s : State) : Host.Outcome State Fault Refusal := run (snapWritten ok) s

/-! At a tick boundary (R610, R618, R622). -/

/-- EVT_TEL_SNAP_LOST, at most once per 1,000 ticks. -/
def snapLostEvent (d : Dev) : Dev :=
  let t := d.tel
  let due := match t.lostEvt with | some n => decide (n + 1000 ≤ d.sys.ticks) | none => true
  if t.lostPeriod ≠ 0 && due then
    emit 0 0x1080 (wd t.lostCause) (wd t.lostPeriod)
      { d with tel := { t with lostPeriod := 0, lostEvt := some d.sys.ticks } }
  else d

/-- The period counts on, and a snapshot may be due; GLEAN_K applies. -/
def telTick (d : Dev) : Dev :=
  let t := d.tel
  let n := if t.snapEn then t.ticks + 1 else t.ticks
  let due := (t.snapEn && n % t.snapN == 0) || t.snapNow
  let d := { d with tel := { t with
    ticks := n, due := due && !(d.sys.mode == Mode.halted), gleanKNow := t.gleanK
    loadLast := t.loadTick, loadTick := 0 } }
  snapLostEvent d

/-! The PCF_ registers (R619). -/

/-- A write of PCF_CTL. -/
def pcfCtlWrite (v : Word) (_ : Otp) (d : Dev) : Dev :=
  if !bar2Up d then d
  else
    let t := d.tel
    let n := max 1 (fld v 15 0)
    let restart := (bit v 31 && !t.snapEn) || n != t.snapN
    { d with tel := { t with
      snapEn := bit v 31, snapNow := t.snapNow || bit v 30, gleanEn := bit v 29
      gleanK := min 24 (max 8 (fld v 28 24)), snapN := n, ticks := if restart then 0 else t.ticks } }

/-- A write that sets SNAP_NOW. -/
def execPcfSnapNowWrite (v : Word) (s : State) : Host.Outcome State Fault Refusal :=
  run (pcfCtlWrite (v ||| 0x40000000#32)) s

/-- A write that sets SNAP_EN. -/
def execPcfSnapEnWrite (v : Word) (s : State) : Host.Outcome State Fault Refusal :=
  run (pcfCtlWrite (v ||| 0x80000000#32)) s

/-- A write of PCF_RING_RD. -/
def pcfRdWrite (v : Word) (_ : Otp) (d : Dev) : Dev :=
  if bar2Up d && decide ((d.tel.ringWr - v).toNat ≤ d.tel.ringSize.toNat) then { d with tel := { d.tel with ringRd := v } } else d

def execPcfRingRdWrite (v : Word) (s : State) : Host.Outcome State Fault Refusal := run (pcfRdWrite v) s

/-- A ring size is a multiple of 4 KiB from 64 KiB to 1 GiB. -/
def ringSizeOk (v : Word) : Bool := decide (v.toNat % 4096 = 0) && decide (65536 ≤ v.toNat) && decide (v.toNat ≤ 2 ^ 30)

/-- A write of the PCF_ register at an offset from 0x4000. DEDUCED (log 51). -/
def pcfWrite (off : Nat) (v : Word) (o : Otp) (d : Dev) : Dev :=
  let t := d.tel
  match off with
  | 0x000 => pcfCtlWrite v o d
  | 0x004 => { d with tel := { t with sect := v &&& 0x3FE#32 } }
  | 0x00C => { d with tel := { t with event := t.event &&& ~~~(v.setWidth 4) } }
  | 0x010 => withHw (fun d => { d with tel := { t with irqEn := v.setWidth 4 } }) d
  | 0x018 => if t.snapEn then d else { d with tel := { t with ringLo := v &&& ~~~0xFFF#32 } }
  | 0x01C => if t.snapEn then d else { d with tel := { t with ringHi := v } }
  | 0x020 => if t.snapEn || !ringSizeOk v then d else { d with tel := { t with ringSize := v } }
  | 0x028 => pcfRdWrite v o d
  | _ => d

/-! Commands (R621). -/

/-- Length of a snapshot with a mask and no Gleaner records. DEDUCED (log 51). -/
def snapLength (mask : Word) : Nat := pad64 (64 + ((sectionsOf mask).map (fun i => 16 + sectionSize i)).sum)

def cmdTelSnapInfo : Cmd where
  code := 0x1001
  lenOk := lenIs 1
  bad := fun _ _ r => firstBad [(0, (rw r 0 &&& ~~~0x3FE#32) == 0#32)]
  act := fun _ d r =>
    (d, stOk, [wd (snapLength (rw r 0)), wd (min 0xFFFFFFFF (d.tel.loadLast * 1000 / 2 ^ d.tel.gleanKNow))])

def execTelSnapInfo (r : NcsReq) (s : State) : Host.Outcome State Fault Refusal := run (command cmdTelSnapInfo r) s

end Sys2Proof.Machine
end

