-- ==== Sys2Proof/Machine/Pickup.lean ====
section
/-!
DEFINITION. How the Signal box picks up a latched request (R69) and finds its command by its code (R56 step 3).
-/
namespace Sys2Proof.Machine

/-! The commands, by range of codes (R53). -/

def ncsSysCmds : List Cmd :=
  [cmdNcsPing, cmdNcsGetInfo, cmdNcsSetExpert, cmdNcsSetEvtMask, cmdNcsRingReset, cmdSysGetState, cmdSysSetMode,
   cmdSysSleep, cmdSysReset, cmdSysMgmtRestart, cmdSysAdvanceLife, cmdSysClearConfig, cmdSysRecalibrate]

def laneCmds : List Cmd :=
  [cmdPortConfig, cmdPortDelete, cmdLaneStatus, cmdLaneRetrain, cmdPortFallow, cmdLaneTestSet, cmdLaneTestGet,
   cmdLaneSeqWrite, cmdLaneSeqRead, cmdLaneTxeqSet, cmdLaneAdaptSet]

def fmCmds : List Cmd :=
  [cmdFmPortBind, cmdFmPortUnbind, cmdFmSecyCreate, cmdFmSecySet, cmdFmSecyDelete, cmdFmScCreate, cmdFmScDelete,
   cmdFmStatsGet, cmdFmPtpSet, cmdFmBypassSet, cmdFmPnThresholdSet, cmdFmRuleWrite, cmdFmRuleRead, cmdFmRuleCommit]

def lmCmds : List Cmd :=
  [cmdLmPortEnable, cmdLmPortDisable, cmdLmSheafCreate, cmdLmSheafDelete, cmdLmClientMap, cmdLmClientUnmap,
   cmdLmLaneStatus, cmdLmTraceSet, cmdLmTraceGet, cmdLmDescWrite, cmdLmDescRead, cmdLmDescCommit, cmdLmHuntWrite,
   cmdLmHuntRead, cmdLmTestMode, cmdLmDefectGet, cmdLmPmGet, cmdLmDefectParamWrite, cmdLmDefectParamRead,
   cmdLmMaintSet]

def kcCmds : List Cmd :=
  [cmdSaInstall, cmdSaDestroy, cmdSaSetEncoding, cmdSaStatus, cmdKcSchedule, cmdKcCancel, cmdKcChainCreate,
   cmdKcChainDelete, cmdKaPeerSet, cmdKaStart, cmdKaStatus, cmdKcParamWrite, cmdKcParamRead, cmdKcRekeyAll]

def dspCmds : List Cmd :=
  [cmdDspGroupGet, cmdDspPlaceGet, cmdDspStatsGet, cmdDspHintSet, cmdDspHintGet, cmdDspTableWrite,
   cmdDspTableRead, cmdDspTableCommit, cmdDspParamWrite, cmdDspParamRead, cmdSliceStatus, cmdSliceMap,
   cmdRngStatus, cmdBulkSubmit, cmdBulkCancel, cmdSliceTest, cmdSliceShadowSet]

def grnCmds : List Cmd :=
  [cmdGrnStatus, cmdGrnRegionGet, cmdGrnChannelGet, cmdGrnFaultLog, cmdGrnHaltRecord, cmdGrnRekey, cmdGrnRetire,
   cmdGrnRegionSet, cmdGrnParamWrite, cmdGrnParamRead]

def pathCmds : List Cmd :=
  [cmdPathPairCreate, cmdPathPairDelete, cmdPathStatus, cmdPathRequest, cmdPathPrioritySet, cmdPathProfileWrite,
   cmdPathProfileRead]

def schCmds : List Cmd :=
  [cmdSchShapeSet, cmdSchClassSet, cmdSchStatsGet, cmdSchSampleGet, cmdSchTtStatus, cmdSchQueueWrite,
   cmdSchQueueRead, cmdSchTtWrite, cmdSchTtRead, cmdSchTtCommit]

def timeCmds : List Cmd :=
  [cmdTimeGet, cmdTimeStep, cmdTimeRateSet, cmdTimePtpSend, cmdTimePtpRecv, cmdTimeCaptureSet, cmdTimePpsSet,
   cmdTimeTodGet, cmdTimeModelSet, cmdTimeRearm, cmdTimeDelaySet, cmdTimeDelayGet, cmdTimeRefSet]

def ksCmds : List Cmd :=
  [cmdKsIdentityGet, cmdKsSealSubmit, cmdKsSlotInfo, cmdKsCounterGet, cmdKsDerive, cmdKsSlotFree, cmdKsAttest,
   cmdKsProvision, cmdKsCredentialSet]

def pkeCmds : List Cmd :=
  [cmdPkeRun, cmdPkeAbort, cmdPkeStatus, cmdPkeWipe]

def tampCmds : List Cmd :=
  [cmdTampStatusGet, cmdTampLogGet, cmdTampNonceGet, cmdTampUnlock, cmdTampResponseSet, cmdTampTest]

def fwCmds : List Cmd :=
  [cmdFwStatus, cmdFwUpdate, cmdFwConfirm, cmdFwRevert]

def pwrCmds : List Cmd :=
  [cmdPwrStatus, cmdPwrDomainGet, cmdPwrCurveWrite, cmdPwrCurveRead, cmdPwrCurveCommit, cmdPwrThermSet]

def telCmds : List Cmd :=
  [cmdTelSlotGet, cmdTelSnapInfo]

/-- DESIGN CHOICE (log 11). -/
def allCmds : List Cmd :=
  ncsSysCmds ++ laneCmds ++ fmCmds ++ lmCmds ++ kcCmds ++ dspCmds
    ++ grnCmds ++ pathCmds ++ schCmds ++ timeCmds ++ ksCmds ++ pkeCmds
    ++ tampCmds ++ fwCmds ++ pwrCmds ++ telCmds

/-- The command of a code, where it is known. DESIGN CHOICE (log 11). -/
def cmdOf (code : Nat) : Option Cmd := allCmds.find? (fun c => c.code == code)

/-- The latched request of a requester, with what its host buffer holds. -/
def latchedReq (d : Dev) (p : Nat) (buf : Bytes) : NcsReq where
  page := p
  tag := fld (latchWord d p 0) 15 8
  expert := bit (latchWord d p 0) 0
  rsv := fld (latchWord d p 0) 7 1
  len := (latchWord d p 1).toNat
  payload := (List.range (min 254 (latchWord d p 1).toNat)).map (fun i => latchWord d p (2 + i))
  buf := buf

/-- A request whose code no command has: R56 as far as step 3. -/
def serveUnknown (r : NcsReq) (d : Dev) : Dev :=
  respond r.page r.tag (if r.len > (if r.page = 65 then 14 else 254) then stBadLength else stBadCode) [] d

/-- The Signal box takes the next latched request and answers it. DESIGN CHOICE (log 11). -/
def pickup (buf : Bytes) (o : Otp) (d : Dev) : Dev :=
  if !d.sb.up || d.sys.mode == Mode.halted then d
  else match nextRequester d with
    | none => d
    | some p =>
      let d := pickUp p d
      let r := latchedReq d p buf
      match cmdOf (fld (latchWord d p 0) 31 16) with
      | some c => serve c r o d
      | none => serveUnknown r d

def execRequestPickup (buf : Bytes) (s : State) : Host.Outcome State Fault Refusal := run (pickup buf) s

end Sys2Proof.Machine
end

