-- ==== Sys2Proof/Machine/Registers.lean ====
section
/-!
DEFINITION. Register accesses of the host (R19, R40 to R47): which register an offset of a window names, what a write of
it does, and the value that a read of it shows.
-/
namespace Sys2Proof.Machine

/-! Page windows (R41, R44, R45). -/

/-- A write of NCS_STATE clears W1C bits. -/
def ncsStateWrite (p : Nat) (v : Word) (d : Dev) : Dev :=
  let g := pageOf d p
  setPage p { g with
    headErr := g.headErr && !bit v 5, sbChg := g.sbChg && !bit v 4, evtOvf := g.evtOvf && !bit v 3
    overrun := g.overrun && !bit v 2 } d

/-- A word of the request area; unlisted words read 0. -/
def requestWrite (p i : Nat) (v : Word) (d : Dev) : Dev :=
  let g := pageOf d p
  setPage p { g with req := if v = 0 then tdel g.req i else tset g.req i v } d

/-- A write at an offset of the window of page p; the response area and the ring are read-only. DEDUCED (log 53). -/
def pageWrite (p off : Nat) (v : Word) (o : Otp) (d : Dev) : Dev :=
  if !windowUp d p || off % 4 ≠ 0 then d
  else if off = 0x000 then doorbell p v o d
  else if off = 0x004 then ncsStateWrite p v d
  else if off = 0x00C then headWrite p v o d
  else if off = 0x014 then irqMaskWrite p v o d
  else if 0x400 ≤ off && off < 0x800 then requestWrite p ((off - 0x400) / 4) v d
  else d

/-! BAR2 (R42). -/

/-- A write of the TU_ register at an offset (R451). -/
def tuWrite (off : Nat) (v : Word) (o : Otp) (d : Dev) : Dev :=
  match off with
  | 0x000 => tuCtlWrite v o d
  | 0x004 => tuStatusWrite v d
  | 0x008 => withHw (fun d => { d with tu := { d.tu with irqEn := v.setWidth 8 } }) d
  | 0x068 => txqOvfClear v o d
  | _ => alarmValueWrite off v o d

/-- A write of the PMU_ register at an offset (R601). -/
def pmuWrite (off : Nat) (v : Word) (d : Dev) : Dev :=
  match off with
  | 0x004 => withHw (fun d => { d with pwr := { d.pwr with irqEn := v.setWidth 10 } }) d
  | 0x008 => { d with pwr := { d.pwr with event := d.pwr.event &&& ~~~(v.setWidth 10) } }
  | _ => d

/-- A write of the IRQ_ register at an offset (R68). -/
def irqWrite (off : Nat) (v : Word) (o : Otp) (d : Dev) : Dev :=
  match off with
  | 0x000 => irqCtlWrite v o d
  | 0x008 => withHw (fun d => { d with sb := { d.sb with hwMask := v.setWidth 5 } }) d
  | 0x018 => irqTestFire v o d
  | _ => d

/-- A write at an offset of BAR2; every TAMP_ register is read-only or cleared by reading (R555). DEDUCED (log 53). -/
def bar2Write (off : Nat) (v : Word) (o : Otp) (d : Dev) : Dev :=
  if !bar2Up d || off % 4 ≠ 0 then d
  else match off / 0x1000 with
    | 0 => tuWrite off v o d
    | 1 => dmaWrite (off % 0x1000) v o d
    | 2 => pmuWrite (off % 0x1000) v d
    | 4 => pcfWrite (off % 0x1000) v o d
    | 5 => irqWrite (off % 0x1000) v o d
    | _ => d

/-- A host write. The physical function has the window of page 0; its writes to a tenant window are ignored (R41).
DEDUCED (log 53). -/
def hostWriteReg (w : Window) (off : Nat) (v : Word) (o : Otp) (d : Dev) : Dev :=
  match w with
  | .pf => if off < 0x1000 then pageWrite 0 off v o d else d
  | .vf n => if 1 ≤ n && n ≤ 64 && off < 0x1000 then pageWrite n off v o d else d
  | .bar2 => bar2Write off v o d

def execRegisterWrite (win : Window) (off : Nat) (v : Word) (s : State) : Host.Outcome State Fault Refusal :=
  run (hostWriteReg win off v) s

/-! What a read shows. -/

/-- A word of the event ring (R63). DESIGN CHOICE (log 12). -/
def ringWord (g : Page) (i : Nat) : Word :=
  match tget g.ring (i / 4) with
  | some e => [e.w0, e.w1, e.w2, e.w3].getD (i % 4) 0
  | none => 0

/-- The window of page p as its own function reads it (R44). DESIGN CHOICE (log 12). -/
def pageWord (o : Otp) (d : Dev) (p off : Nat) : Word :=
  let g := pageOf d p
  if off = 0x004 then stateWord o d p
  else if off = 0x008 then g.tail
  else if off = 0x00C then g.head
  else if off = 0x010 then wd g.lost
  else if off = 0x014 then wd (flag g.maskSb 2 + flag g.maskEvt 1 + flag g.maskResp 0)
  else if off = 0x018 then wd (expertMask d p)
  else if off = 0x01C then wd (inflight d p)
  else if 0x400 ≤ off && off < 0x800 then tgetD g.req ((off - 0x400) / 4) 0
  else if 0x800 ≤ off && off < 0xC00 then g.resp.getD ((off - 0x800) / 4) 0
  else if 0xC00 ≤ off then ringWord g ((off - 0xC00) / 4)
  else 0

def tuWord (d : Dev) (off : Nat) : Word :=
  let u := d.tu
  let pps := match u.ppsStamp with | some (e, t) => stampWords e t | none => [0, 0, 0]
  match off with
  | 0x000 => wd (flag u.arm 30 + flag u.arm32 29 + u.refUse * 2 ^ 4 + flag (!u.modelF) 2)
  | 0x004 => wd (tuStatus d)
  | 0x008 => wd u.irqEn.toNat
  | 0x010 => u.snap.getD 0 0
  | 0x014 => u.snap.getD 1 0
  | 0x018 => u.snap.getD 2 0
  | 0x01C => u.snap.getD 3 0
  | 0x020 => wd (nsLo (timeNow d))
  | 0x024 => u.snap.getD 4 0
  | 0x028 => u.snap.getD 5 0
  | 0x030 => u.almHi
  | 0x034 => u.almLo
  | 0x038 => u.almNs
  | 0x03C => u.alm32
  | 0x040 => pps.getD 0 0
  | 0x044 => pps.getD 1 0
  | 0x048 => pps.getD 2 0
  | 0x054 => u.txqRegs.getD 0 0
  | 0x058 => u.txqRegs.getD 1 0
  | 0x05C => u.txqRegs.getD 2 0
  | 0x060 => u.txqRegs.getD 3 0
  | 0x064 => wd u.txq.length
  | 0x068 => wd (flag u.ovfFlag 31 + u.ovfCount)
  | _ => 0

/-- The registers of a DMA channel (R620). -/
def dmaChanWord (x : DmaChan) (r : Nat) : Word :=
  match r with
  | 0x00 => lo32 x.src
  | 0x04 => hi32 x.src
  | 0x08 => lo32 x.dst
  | 0x0C => hi32 x.dst
  | 0x10 => wd x.count
  | 0x14 => x.ctl ||| wd (flag (x.state != 0) 31)
  | 0x18 => wd (x.state * 2 ^ 30 + x.err * 2 ^ 16)
  | 0x1C => wd x.done
  | 0x20 => lo32 x.link
  | 0x24 => hi32 x.link
  | 0x28 => wd x.hops
  | _ => 0

def dmaWord (d : Dev) (off : Nat) : Word :=
  if off < 0x200 then dmaChanWord (dmaOf d (off / 0x40)) (off % 0x40)
  else match off with
    | 0x200 =>
      let pend := ((List.range 8).map (fun c => flag ((dmaOf d c).state == 1) c)).sum
      match (List.range 8).find? (fun c => (dmaOf d c).state == 2) with
      | some c => wd (2 ^ 15 + c * 2 ^ 8 + pend)
      | none => wd pend
    | 0x204 => wd d.tel.dmaEvent.toNat
    | 0x208 => wd d.tel.dmaIrqEn.toNat
    | _ => 0

def pmuWord (o : Otp) (d : Dev) (off : Nat) : Word :=
  match off with
  | 0x000 => pmuStatus o d
  | 0x004 => wd d.pwr.irqEn.toNat
  | 0x008 => wd d.pwr.event.toNat
  | 0x030 => d.pwr.temp0
  | 0x034 => d.pwr.temp1
  | 0x038 => d.pwr.power
  | 0x03C => pmuDomains o d
  | _ =>
    if 0x010 ≤ off && off < 0x020 then pmuSect o d ((off - 0x010) / 4)
    else if 0x020 ≤ off && off < 0x030 then pmuBelow d ((off - 0x020) / 4)
    else if 0x040 ≤ off && off < 0x050 then wd (powerOf d ((off - 0x040) / 4)).loss
    else 0

def tampWord (o : Otp) (d : Dev) (off : Nat) : Word :=
  match off with
  | 0x014 => tampEventWord d
  | 0x018 => d.tamp.seq
  | 0x01C => d.tamp.lastRtc
  | _ => (tampWords o d).getD (off / 4) 0

def pcfWord (d : Dev) (off : Nat) : Word :=
  let t := d.tel
  match off with
  | 0x000 => wd (flag t.snapEn 31 + flag t.snapNow 30 + flag t.gleanEn 29 + t.gleanK * 2 ^ 24 + t.snapN)
  | 0x004 => t.sect
  | 0x008 => wd (flag t.writing.isSome 31)
  | 0x00C => wd t.event.toNat
  | 0x010 => wd t.irqEn.toNat
  | 0x018 => t.ringLo
  | 0x01C => t.ringHi
  | 0x020 => t.ringSize
  | 0x024 => t.ringWr
  | 0x028 => t.ringRd
  | 0x02C => wd (t.lostSnaps * 2 ^ 16 + t.lostRecords)
  | 0x030 => t.seq
  | _ => 0

def irqWord (d : Dev) (off : Nat) : Word :=
  let pages := fun (lo n : Nat) => wd (((List.range n).map (fun i => flag (pagePend d (lo + i)) i)).sum)
  match off with
  | 0x000 => wd (flag d.sb.irqEnable 31 + d.sb.coalesce)
  | 0x004 => wd (hwPend d).toNat
  | 0x008 => wd d.sb.hwMask.toNat
  | 0x00C => pages 0 32
  | 0x010 => pages 32 32
  | 0x014 => pages 64 1
  | _ => 0

/-- The word at an offset of BAR2; what is not listed reads 0. -/
def bar2Word (o : Otp) (d : Dev) (off : Nat) : Word :=
  match off / 0x1000 with
  | 0 => tuWord d off
  | 1 => dmaWord d (off % 0x1000)
  | 2 => pmuWord o d (off % 0x1000)
  | 3 => tampWord o d (off % 0x1000)
  | 4 => pcfWord d (off % 0x1000)
  | 5 => irqWord d (off % 0x1000)
  | _ => 0

/-- What the host reads at an offset of a window; of a tenant window the physical function sees NCS_STATE alone (R41).
None: no completion comes back, as while the link is down (R78). The registers that a read changes have commands of
their own; this is the value they return. DEDUCED (log 53). -/
def hostReadReg (w : Window) (off : Nat) (o : Otp) (d : Dev) : Option Word :=
  if !bar2Up d then none
  else match w with
    | .pf =>
      if off < 0x1000 then some (pageWord o d 0 off)
      else if off < 0x41000 && off % 0x1000 = 0x004 then some (stateWord o d (off / 0x1000))
      else some 0
    | .vf n => if 1 ≤ n && n ≤ 64 && off < 0x1000 then some (pageWord o d n off) else some 0
    | .bar2 => some (bar2Word o d off)

end Sys2Proof.Machine
end

