-- ==== Sys2Proof/Machine/Tick.lean ====
section
/-!
DEFINITION. The tick boundary (R648): what the tick that ends leaves, the events of R649, what applies from the boundary
on.
-/
namespace Sys2Proof.Machine

/-! Lanes (R475, R482, R487). -/

/-- The receiver of a lane in this state measures a FoM. -/
def measures (st : Nat) : Bool := (3 ≤ st && st ≤ 6) || st == 8

/-- What a lane measured over the tick. A checker counts only where one is set. -/
def Lane.measured (x : LaneTick) (l : Lane) : Lane :=
  let on := l.chk != 0
  { l with
    fom := if measures l.state then x.fom else 0, fomLow := if measures l.state then x.low else 0
    corrected := min x.corrected 0xFFFFFFFF, uncorrectable := min x.uncorrectable 0xFFFFFFFF
    chkLocked := on && x.locked, lockLost := l.lockLost || (on && l.chkLocked && !x.locked)
    bitErrors := if on then l.bitErrors + BitVec.ofNat 64 x.errors else l.bitErrors
    bitsChecked := if on then l.bitsChecked + BitVec.ofNat 64 x.bits else l.bitsChecked }

/-- A lane, and the accumulators of a line-mode lane (R225). PRESUMED (log 45). -/
def laneTick (d : Dev) (x : LaneTick) : Dev :=
  let d := setLane x.key (Lane.measured x (laneOf d x.key)) d
  if decide (x.key < 64) && isLmLane d x.key then
    let l := lmLane d x.key
    setLm x.key { l with pm := pmAdd (pmAdd l.pm 0 x.symbols) 1 x.uncorrectable } d
  else d

/-- Counts of the last tick begin at 0; then every lane that measured. -/
def lanesTick (o : Otp) (xs : List LaneTick) (d : Dev) : Dev :=
  let d := { d with ln := { d.ln with
    lanes := d.ln.lanes.map (fun l => (l.1, { l.2 with corrected := 0, uncorrectable := 0 })) } }
  (xs.filter (fun x => decide (x.key % 64 < lanes o) && decide (x.key < 128))).foldl laneTick d

/-! Events of the tick that ends. -/

/-- EVT_RX_AUTH_BURST: 16 ICV failures of an SC, at most once per 1,000 ticks (R158). -/
def authBurst (d : Dev) (x : Nat × Sc) : Dev :=
  let due := match x.2.lastBurst with | some t => decide (t + 1000 ≤ d.sys.ticks) | none => true
  let hit := decide (16 ≤ x.2.icvFails) && due
  let owner := match tget d.fm.secys x.2.secy with | some y => y.owner | none => 0
  let sc := { x.2 with icvFails := 0, lastBurst := if hit then some d.sys.ticks else x.2.lastBurst }
  let d' := { d with fm := { d.fm with scs := tset d.fm.scs x.1 sc } }
  if hit then emitOn (pagesOf owner) 0x0383 (wd x.1) (wd x.2.icvFails) d' else d'

def authBursts (d : Dev) : Dev := (d.fm.scs.filter (fun x => x.2.icvFails != 0)).foldl authBurst d

/-! Counts of ticks. -/

/-- The RTC counts seconds (R88). DEDUCED (log 18). -/
def rtcTick (d : Dev) : Dev :=
  if d.sys.rtcMs + 1 < 1000 then { d with sys := { d.sys with rtcMs := d.sys.rtcMs + 1 } }
  else { d with sys := { d.sys with rtcMs := 0, rtc := d.sys.rtc + 1 } }

/-- A tick of SYS_RESET (R107) and of an idle PKE (R526, R587). -/
def countdowns (d : Dev) : Dev :=
  let free := d.pke.powered && d.pke.running.isNone && d.pke.waiting.isEmpty
  { d with
    sys := { d.sys with resetPending := d.sys.resetPending.map (fun x => (x.1 - 1, x.2)) }
    pke := { d.pke with idle := if free then d.pke.idle + 1 else 0 } }

/-- The boundary falls 1,750,000 TU cycles after the one before (R648). -/
def boundary (d : Dev) : Dev :=
  let d := passTime (1750000 - d.sys.sub) d
  rtcTick { d with sys := { d.sys with ticks := d.sys.ticks + 1, sub := d.sys.sub - 1750000 } }

/-- EVT_PTP_RX of the tick gives the entries that the ring holds at its end (R464, R649). -/
def ptpRxCount (d : Dev) : Dev :=
  if d.sb.tickEvents.any (fun e => e.evt == 0x0A84) then tickEvent ⟨0, 0x0A84, 0, wd d.tu.ring.length, 0⟩ d else d

/-- What the boundary does in a device that is not HALTED. -/
def tickWork (o : Otp) (xs : List LaneTick) (d : Dev) : Dev :=
  let d := sleepTick d
  let d := authBursts (flushTickEvents (ptpRxCount (lanesTick o xs d)))
  let d := chainPreload (schTick (dspTick o (timeSettings d)))
  let d := fmTick (kaTick (encodeNow d))
  let d := recalTick (fwTick (grnTick d))
  pathsTick (telTick (powerTick o (countdowns d)))

/-- Ticks are counted while the core runs: past a mode entry, and on the way into DORMANT. DESIGN CHOICE (log 2).
DEDUCED (log 14). PRESUMED (log 45). -/
def tickBoundary (xs : List LaneTick) (o : Otp) (d : Dev) : Dev :=
  if !tuRuns d then d
  else if d.sys.mode = .halted then boundary d
  else tickWork o xs (boundary d)

def execTickBoundary (lanes : List LaneTick) (s : State) : Host.Outcome State Fault Refusal := run (tickBoundary lanes) s

end Sys2Proof.Machine
end

