-- ==== Sys2Proof/Machine/TimeEvents.lean ====
section
/-!
DEFINITION. What happens at instants of network time (chapter 13): seconds boundaries (R448), steps (R435) and re-arms
(R436); and the JTAG instructions that drive outputs (R483, R644).
-/
namespace Sys2Proof.Machine

/-! Seconds boundaries (R227, R448, R459). -/

/-- Background steps reverted in the second that ends become those of the last second. -/
def revertsRoll (d : Dev) : Dev :=
  { d with ln := { d.ln with
    lanes := d.ln.lanes.map (fun l => (l.1, { l.2 with revertsLast := l.2.reverts, reverts := 0 })) } }

/-- The rising edge of PPS_OUT leaves, where it is enabled. -/
def ppsOut (sec : Nat) (d : Dev) : Dev :=
  if bit d.tu.pps 31 then
    out (.pin 0 true) { d with tu := { d.tu with ppsUntil := some (rawNow d + usCycles (fld d.tu.pps 18 0)), todDue := some (sec, rawNow d) } }
  else d

/-- A seconds boundary: the internal 1PPS latches the second that ends; the setting of TIME_PPS_SET applies.
DEDUCED (log 43). -/
def secondsBoundary (dt : Nat) (_ : Otp) (d : Dev) : Dev :=
  let d := passTime dt d
  let sec := secOf (timeNow d)
  if !tuRuns d || sec ≤ d.tu.lastSec then d
  else
    let d := revertsRoll (latchAll d.tu.lastSec false d)
    ppsOut sec { d with tu := { d.tu with lastSec := sec, pps := d.tu.ppsNext.getD d.tu.pps, ppsNext := none } }

def execSecondsBoundary (dt : Nat) (s : State) : Host.Outcome State Fault Refusal := run (secondsBoundary dt) s

/-! Steps (R228, R421, R435). -/

/-- A second that began at a step that did not lead to a seconds boundary is partial (R228). DEDUCED (log 29). -/
def partialFrom (b : Bool) (d : Dev) : Dev :=
  if b then
    { d with lm := { d.lm with
      lanes := d.lm.lanes.map (fun l => (l.1, { l.2 with pm := { l.2.pm with partl := true } }))
      clients := d.lm.clients.map (fun c => (c.1, { c.2 with pm := { c.2.pm with partl := true } })) } }
  else d

/-- What a pending step adds to the time: as its request found it for an align to PPS, judged now for the others.
DEDUCED (log 43). -/
def pendDelta (d : Dev) (p : TimePend) : Int := if p.kind = 2 then p.align else (stepDelta d p.kind p.a p.b p.c).getD 0

/-- Signed whole seconds, saturating in 32 bits, and the nanoseconds of a step (R464). -/
def stepWords (x : Int) : List Word :=
  let s := x / (secU : Int)
  let s := if s < -(2 ^ 31) then -(2 ^ 31) else if 2 ^ 31 - 1 < s then 2 ^ 31 - 1 else s
  [wd (ofSigned 32 s), wd ((x % (secU : Int)).toNat / nsU)]

/-- The time after a step; one that would fall below 0, which only a step behind another one can, is a free value. -/
def steppedTime (x : Int) (d : Dev) : Nat × Dev :=
  let t := (timeNow d : Int) + x
  if 0 ≤ t then (t.toNat, d) else let r := draw 80 d; (r.1.toNat, r.2)

/-- The time is stepped: one latch of the second cut short, EVT_TIME_STEPPED on every page, Timetables and alarms as the
new time has them. DEDUCED (log 43). -/
def applyStep (p : TimePend) (d : Dev) : Dev :=
  let x := pendDelta d p
  let before := secOf (timeNow d)
  let r := steppedTime x d
  let d := r.2
  let d := { d with tu := { d.tu with
    tBase := r.1, cBase := rawNow d, stepUsed := true, stepMade := true, lastSec := secOf r.1
    pend := d.tu.pend.map (fun q => { q with align := q.align - x }) } }
  let d := emitAll 0x0A81 ((stepWords x).getD 0 0) ((stepWords x).getD 1 0) d
  alarms (ttStep (partialFrom (r.1 % secU != 0) (latchAll before true d)))

/-- TIME_STEP_APPLY: the oldest pending request is a step, and a boundary has passed since its response.
DEDUCED (log 43). -/
def stepApply (_ : Otp) (d : Dev) : Dev :=
  match d.tu.pend with
  | p :: rest => if p.rearm || d.sys.ticks ≤ p.tick then d else applyStep p { d with tu := { d.tu with pend := rest } }
  | [] => d

def execTimeStepApply (s : State) : Host.Outcome State Fault Refusal := run stepApply s

/-! Re-arms (R421, R436). -/

/-- EVT_SCHED_CANCELLED on a list of pages. -/
def cancelledEvent (ps : List Nat) (w2 epoch : Nat) (d : Dev) : Dev := emitOn ps 0x0A80 (wd w2) (wd epoch) d

/-- Ports whose Timetable has an armed swap. -/
def armedSwaps (d : Dev) : List Nat := (d.sch.tts.filter (fun t => t.2.armed.isSome)).map (·.1)

/-- Every pending schedule is cancelled. DEDUCED (log 34). -/
def cancelScheds (d : Dev) : Dev :=
  d.kc.scheds.foldl (fun d s => cancelledEvent (schedPages s.2) (1 * 2 ^ 28 + s.1) s.2.epoch (dropSched s.1 d)) d

/-- Armed swaps are cancelled and running Timetables restart. DEDUCED (log 42). -/
def cancelSwaps (epoch : Nat) (d : Dev) : Dev :=
  (armedSwaps d).foldl (fun d p => cancelledEvent [0] (2 * 2 ^ 28 + p * 2 ^ 16) epoch d) (ttRearm d)

/-- Chains go on with the new time base (R295): a multiple of their period that the new time has not reached is still to
act. DEDUCED (log 34). -/
def chainsRebase (d : Dev) : Dev :=
  let now := secOf (timeNow d)
  { d with kc := { d.kc with chains := d.kc.chains.map (fun c => (c.1, { c.2 with lastPeriod := min c.2.lastPeriod now })) } }

/-- The re-arm of R436, in its order; kind 3 carries no step. The events come as in the worked example of the chapter:
the re-arm, the cancelled items, the step. DEDUCED (log 42). -/
def applyRearm (p : TimePend) (d : Dev) : Dev :=
  let old := d.tu.epoch
  let d := { d with tu := { d.tu with epoch := (old + 1) % 65536, stepUsed := false } }
  let d := emitAll 0x0A82 (wd ((old + 1) % 65536 * 2 ^ 16)) (wd (d.kc.scheds.length + (armedSwaps d).length)) d
  let d := cancelSwaps old (cancelScheds d)
  let d := withHw (fun d => { d with tu := { d.tu with arm := false, arm32 := false, rearmed := true } }) d
  chainsRebase (if p.kind = 3 then d else applyStep p d)

/-- TIME_REARM_APPLY: the oldest pending request is a re-arm, and a boundary has passed since its response. -/
def rearmApply (_ : Otp) (d : Dev) : Dev :=
  match d.tu.pend with
  | p :: rest => if p.rearm && decide (p.tick < d.sys.ticks) then applyRearm p { d with tu := { d.tu with pend := rest } } else d
  | [] => d

def execTimeRearmApply (s : State) : Host.Outcome State Fault Refusal := run rearmApply s

/-! JTAG (R483, R644). -/

/-- The instructions that drive outputs. -/
def jtagDrives (code : Nat) : Bool := code == 0x00 || code == 0x0C || code == 0x0D

/-- PRESUMED (log 45). -/
def jtagLoad (code : Nat) (o : Otp) (d : Dev) : Dev :=
  let d := { d with pwr := { d.pwr with jtag := code % 256 } }
  if jtagDrives (code % 256) then allLanesTest o d else d

def execJtagInstructionLoad (code : Nat) (s : State) : Host.Outcome State Fault Refusal := run (jtagLoad code) s

/-- The TAP controller resets: by IEEE 1149.1 the IDCODE instruction is then in force. -/
def execTapReset (s : State) : Host.Outcome State Fault Refusal :=
  run (fun o d => tapReset o { d with pwr := { d.pwr with jtag := 0x01 } }) s

end Sys2Proof.Machine
end

