-- ==== Sys2Proof/Machine/Dispatch.lean ====
section
/-!
DEFINITION. One arm per command of spec/opcode_table.json.
-/
namespace Sys2Proof.Machine

/-- DESIGN CHOICE (log 59). -/
def exec (i : Instr) (s : State) : Host.Outcome State Fault Refusal :=
  match i with
  | .tickBoundary lanes => Sys2Proof.Machine.execTickBoundary lanes s
  | .ncsDoorbellWrite page v => Sys2Proof.Machine.execNcsDoorbellWrite page v s
  | .requestPickup buf => Sys2Proof.Machine.execRequestPickup buf s
  | .ncsEvtHeadWrite page v => Sys2Proof.Machine.execNcsEvtHeadWrite page v s
  | .ncsEvtLostRead page => Sys2Proof.Machine.execNcsEvtLostRead page s
  | .ncsIrqMaskWrite page v => Sys2Proof.Machine.execNcsIrqMaskWrite page v s
  | .irqCtlWrite v => Sys2Proof.Machine.execIrqCtlWrite v s
  | .irqCoalesceExpiry vec => Sys2Proof.Machine.execIrqCoalesceExpiry vec s
  | .irqTestFire v => Sys2Proof.Machine.execIrqTestFire v s
  | .registerWrite win off v => Sys2Proof.Machine.execRegisterWrite win off v s
  | .pageHwBusyAnswer page => Sys2Proof.Machine.execPageHwBusyAnswer page s
  | .haltedRequestAnswer page => Sys2Proof.Machine.execHaltedRequestAnswer page s
  | .sbRestartComplete => Sys2Proof.Machine.execSbRestartComplete s
  | .smbBlockWrite words pecOk => Sys2Proof.Machine.execSmbBlockWrite words pecOk s
  | .smbBlockRead => Sys2Proof.Machine.execSmbBlockRead s
  | .smbReadByte => Sys2Proof.Machine.execSmbReadByte s
  | .smbAddressMatchWake rtc => Sys2Proof.Machine.execSmbAddressMatchWake rtc s
  | .ncsPing r => Sys2Proof.Machine.execNcsPing r s
  | .ncsGetInfo r => Sys2Proof.Machine.execNcsGetInfo r s
  | .ncsSetExpert r => Sys2Proof.Machine.execNcsSetExpert r s
  | .ncsSetEvtMask r => Sys2Proof.Machine.execNcsSetEvtMask r s
  | .ncsRingReset r => Sys2Proof.Machine.execNcsRingReset r s
  | .sysGetState r => Sys2Proof.Machine.execSysGetState r s
  | .sysSetMode r => Sys2Proof.Machine.execSysSetMode r s
  | .sysSleep r => Sys2Proof.Machine.execSysSleep r s
  | .sysReset r => Sys2Proof.Machine.execSysReset r s
  | .sysResetTrigger => Sys2Proof.Machine.execSysResetTrigger s
  | .sysMgmtRestart r => Sys2Proof.Machine.execSysMgmtRestart r s
  | .sysAdvanceLife r => Sys2Proof.Machine.execSysAdvanceLife r s
  | .lifeOtpWriteDone => Sys2Proof.Machine.execLifeOtpWriteDone s
  | .sysClearConfig r => Sys2Proof.Machine.execSysClearConfig r s
  | .sysRecalibrate r => Sys2Proof.Machine.execSysRecalibrate r s
  | .recalSliceTestDone runs => Sys2Proof.Machine.execRecalSliceTestDone runs s
  | .recalDroopPhaseEnd => Sys2Proof.Machine.execRecalDroopPhaseEnd s
  | .mainPowerLoss => Sys2Proof.Machine.execMainPowerLoss s
  | .mainPowerReturn rtc => Sys2Proof.Machine.execMainPowerReturn rtc s
  | .rstNReset => Sys2Proof.Machine.execRstNReset s
  | .wakeNWake rtc => Sys2Proof.Machine.execWakeNWake rtc s
  | .rtcAlarmWake => Sys2Proof.Machine.execRtcAlarmWake s
  | .aoColdStart => Sys2Proof.Machine.execAoColdStart s
  | .startSequence o => Sys2Proof.Machine.execStartSequence o s
  | .modeEntry us => Sys2Proof.Machine.execModeEntry us s
  | .perstNRelease => Sys2Proof.Machine.execPerstNRelease s
  | .pcieHotReset => Sys2Proof.Machine.execPcieHotReset s
  | .vfFlr vf => Sys2Proof.Machine.execVfFlr vf s
  | .dormantReached => Sys2Proof.Machine.execDormantReached s
  | .clientFrameReceive port frame full dt => Sys2Proof.Machine.execClientFrameReceive port frame full dt s
  | .lineFrameReceive port frame full dt => Sys2Proof.Machine.execLineFrameReceive port frame full dt s
  | .rxIcvVerdict id => Sys2Proof.Machine.execRxIcvVerdict id s
  | .contextFetchDone sa => Sys2Proof.Machine.execContextFetchDone sa s
  | .contextLoadDone slice sa => Sys2Proof.Machine.execContextLoadDone slice sa s
  | .reorderRelease id => Sys2Proof.Machine.execReorderRelease id s
  | .egressSelect port dt => Sys2Proof.Machine.execEgressSelect port dt s
  | .ruleSwap sector => Sys2Proof.Machine.execRuleSwap sector s
  | .fmPortBind r => Sys2Proof.Machine.execFmPortBind r s
  | .fmPortUnbind r => Sys2Proof.Machine.execFmPortUnbind r s
  | .fmSecyCreate r => Sys2Proof.Machine.execFmSecyCreate r s
  | .fmSecySet r => Sys2Proof.Machine.execFmSecySet r s
  | .fmSecyDelete r => Sys2Proof.Machine.execFmSecyDelete r s
  | .fmScCreate r => Sys2Proof.Machine.execFmScCreate r s
  | .fmScDelete r => Sys2Proof.Machine.execFmScDelete r s
  | .fmStatsGet r => Sys2Proof.Machine.execFmStatsGet r s
  | .fmPtpSet r => Sys2Proof.Machine.execFmPtpSet r s
  | .fmBypassSet r => Sys2Proof.Machine.execFmBypassSet r s
  | .fmPnThresholdSet r => Sys2Proof.Machine.execFmPnThresholdSet r s
  | .fmRuleWrite r => Sys2Proof.Machine.execFmRuleWrite r s
  | .fmRuleRead r => Sys2Proof.Machine.execFmRuleRead r s
  | .fmRuleCommit r => Sys2Proof.Machine.execFmRuleCommit r s
  | .esurdelFrameTransmit laneType clients misses dt => Sys2Proof.Machine.execEsurdelFrameTransmit laneType clients misses dt s
  | .esurdelFrameReceive lane pos bytes skip dt => Sys2Proof.Machine.execEsurdelFrameReceive lane pos bytes skip dt s
  | .barExpiry lane pos => Sys2Proof.Machine.execBarExpiry lane pos s
  | .sheafRelease sheaf fc dt => Sys2Proof.Machine.execSheafRelease sheaf fc dt s
  | .txSuperframeBoundary laneType => Sys2Proof.Machine.execTxSuperframeBoundary laneType s
  | .rxSuperframeBoundary sheaf superframe => Sys2Proof.Machine.execRxSuperframeBoundary sheaf superframe s
  | .lmPortEnable r => Sys2Proof.Machine.execLmPortEnable r s
  | .lmPortDisable r => Sys2Proof.Machine.execLmPortDisable r s
  | .lmSheafCreate r => Sys2Proof.Machine.execLmSheafCreate r s
  | .lmSheafDelete r => Sys2Proof.Machine.execLmSheafDelete r s
  | .lmClientMap r => Sys2Proof.Machine.execLmClientMap r s
  | .lmClientUnmap r => Sys2Proof.Machine.execLmClientUnmap r s
  | .lmLaneStatus r => Sys2Proof.Machine.execLmLaneStatus r s
  | .lmTraceSet r => Sys2Proof.Machine.execLmTraceSet r s
  | .lmTraceGet r => Sys2Proof.Machine.execLmTraceGet r s
  | .lmDescWrite r => Sys2Proof.Machine.execLmDescWrite r s
  | .lmDescRead r => Sys2Proof.Machine.execLmDescRead r s
  | .lmDescCommit r => Sys2Proof.Machine.execLmDescCommit r s
  | .lmHuntWrite r => Sys2Proof.Machine.execLmHuntWrite r s
  | .lmHuntRead r => Sys2Proof.Machine.execLmHuntRead r s
  | .lmTestMode r => Sys2Proof.Machine.execLmTestMode r s
  | .losDeclare lane => Sys2Proof.Machine.execLosDeclare lane s
  | .losClear lane => Sys2Proof.Machine.execLosClear lane s
  | .lolClear lane => Sys2Proof.Machine.execLolClear lane s
  | .lofDeclare lane => Sys2Proof.Machine.execLofDeclare lane s
  | .lofClear lane => Sys2Proof.Machine.execLofClear lane s
  | .losfDeclare lane => Sys2Proof.Machine.execLosfDeclare lane s
  | .loaDeclare lane => Sys2Proof.Machine.execLoaDeclare lane s
  | .loaClear lane => Sys2Proof.Machine.execLoaClear lane s
  | .secondsBoundary dt => Sys2Proof.Machine.execSecondsBoundary dt s
  | .lmDefectGet r => Sys2Proof.Machine.execLmDefectGet r s
  | .lmPmGet r => Sys2Proof.Machine.execLmPmGet r s
  | .lmDefectParamWrite r => Sys2Proof.Machine.execLmDefectParamWrite r s
  | .lmDefectParamRead r => Sys2Proof.Machine.execLmDefectParamRead r s
  | .lmMaintSet r => Sys2Proof.Machine.execLmMaintSet r s
  | .shadowRecomputeDone slice tag => Sys2Proof.Machine.execShadowRecomputeDone slice tag s
  | .shadowArbitrationDone slice tag runs => Sys2Proof.Machine.execShadowArbitrationDone slice tag runs s
  | .sidingTakeoverDone siding => Sys2Proof.Machine.execSidingTakeoverDone siding s
  | .maskExpanderReseed slice => Sys2Proof.Machine.execMaskExpanderReseed slice s
  | .contextRerandomise slice => Sys2Proof.Machine.execContextRerandomise slice s
  | .drbgReseed => Sys2Proof.Machine.execDrbgReseed s
  | .entropyTestFail source samples => Sys2Proof.Machine.execEntropyTestFail source samples s
  | .sourceStartupTestDone source samples => Sys2Proof.Machine.execSourceStartupTestDone source samples s
  | .drbgReseedLimit => Sys2Proof.Machine.execDrbgReseedLimit s
  | .bulkJobDone page tag busOk => Sys2Proof.Machine.execBulkJobDone page tag busOk s
  | .sliceStatus r => Sys2Proof.Machine.execSliceStatus r s
  | .sliceMap r => Sys2Proof.Machine.execSliceMap r s
  | .rngStatus r => Sys2Proof.Machine.execRngStatus r s
  | .bulkSubmit r => Sys2Proof.Machine.execBulkSubmit r s
  | .bulkCancel r => Sys2Proof.Machine.execBulkCancel r s
  | .sliceTest r => Sys2Proof.Machine.execSliceTest r s
  | .sliceTestDone slice runs => Sys2Proof.Machine.execSliceTestDone slice runs s
  | .sliceShadowSet r => Sys2Proof.Machine.execSliceShadowSet r s
  | .saInstall r => Sys2Proof.Machine.execSaInstall r s
  | .saDestroy r => Sys2Proof.Machine.execSaDestroy r s
  | .saSetEncoding r => Sys2Proof.Machine.execSaSetEncoding r s
  | .saStatus r => Sys2Proof.Machine.execSaStatus r s
  | .kcSchedule r => Sys2Proof.Machine.execKcSchedule r s
  | .kcCancel r => Sys2Proof.Machine.execKcCancel r s
  | .kcChainCreate r => Sys2Proof.Machine.execKcChainCreate r s
  | .kcChainDelete r => Sys2Proof.Machine.execKcChainDelete r s
  | .kaPeerSet r => Sys2Proof.Machine.execKaPeerSet r s
  | .kaStart r => Sys2Proof.Machine.execKaStart r s
  | .kaStatus r => Sys2Proof.Machine.execKaStatus r s
  | .kcParamWrite r => Sys2Proof.Machine.execKcParamWrite r s
  | .kcParamRead r => Sys2Proof.Machine.execKcParamRead r s
  | .kcRekeyAll r => Sys2Proof.Machine.execKcRekeyAll r s
  | .kcPreload id dt => Sys2Proof.Machine.execKcPreload id dt s
  | .kcSwitch id dt => Sys2Proof.Machine.execKcSwitch id dt s
  | .saRetireTx sa dt => Sys2Proof.Machine.execSaRetireTx sa dt s
  | .saRetireRx sa dt => Sys2Proof.Machine.execSaRetireRx sa dt s
  | .kcSchedLate sa dt => Sys2Proof.Machine.execKcSchedLate sa dt s
  | .chainPeriodSwitch obj dt => Sys2Proof.Machine.execChainPeriodSwitch obj dt s
  | .chainDeriveDone obj => Sys2Proof.Machine.execChainDeriveDone obj s
  | .rekeyAllNextReady => Sys2Proof.Machine.execRekeyAllNextReady s
  | .saIndexFree sa => Sys2Proof.Machine.execSaIndexFree sa s
  | .kaInitReceive port msg => Sys2Proof.Machine.execKaInitReceive port msg s
  | .kaRespReceive port msg => Sys2Proof.Machine.execKaRespReceive port msg s
  | .kaFinReceive port msg => Sys2Proof.Machine.execKaFinReceive port msg s
  | .kaDoneReceive port msg => Sys2Proof.Machine.execKaDoneReceive port msg s
  | .kaAbortReceive port msg => Sys2Proof.Machine.execKaAbortReceive port msg s
  | .kaRetransmit peer => Sys2Proof.Machine.execKaRetransmit peer s
  | .dspGroupGet r => Sys2Proof.Machine.execDspGroupGet r s
  | .dspPlaceGet r => Sys2Proof.Machine.execDspPlaceGet r s
  | .dspStatsGet r => Sys2Proof.Machine.execDspStatsGet r s
  | .dspHintSet r => Sys2Proof.Machine.execDspHintSet r s
  | .dspHintGet r => Sys2Proof.Machine.execDspHintGet r s
  | .dspTableWrite r => Sys2Proof.Machine.execDspTableWrite r s
  | .dspTableRead r => Sys2Proof.Machine.execDspTableRead r s
  | .dspTableCommit r => Sys2Proof.Machine.execDspTableCommit r s
  | .dspTableSwap => Sys2Proof.Machine.execDspTableSwap s
  | .dspParamWrite r => Sys2Proof.Machine.execDspParamWrite r s
  | .dspParamRead r => Sys2Proof.Machine.execDspParamRead r s
  | .stripeWidthChange obj => Sys2Proof.Machine.execStripeWidthChange obj s
  | .moveStart id => Sys2Proof.Machine.execMoveStart id s
  | .moveSwitchover id => Sys2Proof.Machine.execMoveSwitchover id s
  | .moveDrainComplete id => Sys2Proof.Machine.execMoveDrainComplete id s
  | .droopReliefStart sector => Sys2Proof.Machine.execDroopReliefStart sector s
  | .droopReliefEnd sector => Sys2Proof.Machine.execDroopReliefEnd sector s
  | .sliceIdlePowerDown slice => Sys2Proof.Machine.execSliceIdlePowerDown slice s
  | .domainPowerUpDone domain => Sys2Proof.Machine.execDomainPowerUpDone domain s
  | .grnStatus r => Sys2Proof.Machine.execGrnStatus r s
  | .grnRegionGet r => Sys2Proof.Machine.execGrnRegionGet r s
  | .grnChannelGet r => Sys2Proof.Machine.execGrnChannelGet r s
  | .grnFaultLog r => Sys2Proof.Machine.execGrnFaultLog r s
  | .grnHaltRecord r => Sys2Proof.Machine.execGrnHaltRecord r s
  | .grnRekey r => Sys2Proof.Machine.execGrnRekey r s
  | .grnEpochLimit region => Sys2Proof.Machine.execGrnEpochLimit region s
  | .grnRekeyDone => Sys2Proof.Machine.execGrnRekeyDone s
  | .grnRetire r => Sys2Proof.Machine.execGrnRetire r s
  | .retireDrainEnd => Sys2Proof.Machine.execRetireDrainEnd s
  | .retireMigrateDone => Sys2Proof.Machine.execRetireMigrateDone s
  | .retireOtpDone => Sys2Proof.Machine.execRetireOtpDone s
  | .grnRegionSet r => Sys2Proof.Machine.execGrnRegionSet r s
  | .grnParamWrite r => Sys2Proof.Machine.execGrnParamWrite r s
  | .grnParamRead r => Sys2Proof.Machine.execGrnParamRead r s
  | .grnScrub f => Sys2Proof.Machine.execGrnScrub f s
  | .pathPairCreate r => Sys2Proof.Machine.execPathPairCreate r s
  | .pathPairDelete r => Sys2Proof.Machine.execPathPairDelete r s
  | .pathStatus r => Sys2Proof.Machine.execPathStatus r s
  | .pathRequest r => Sys2Proof.Machine.execPathRequest r s
  | .pathPrioritySet r => Sys2Proof.Machine.execPathPrioritySet r s
  | .pathProfileWrite r => Sys2Proof.Machine.execPathProfileWrite r s
  | .pathProfileRead r => Sys2Proof.Machine.execPathProfileRead r s
  | .claimFrameSend pair => Sys2Proof.Machine.execClaimFrameSend pair s
  | .claimFrameReceive port frame dt => Sys2Proof.Machine.execClaimFrameReceive port frame dt s
  | .claimMissExpiry pair path => Sys2Proof.Machine.execClaimMissExpiry pair path s
  | .pathGuardExpiry pair path => Sys2Proof.Machine.execPathGuardExpiry pair path s
  | .holdoffExpiry pair => Sys2Proof.Machine.execHoldoffExpiry pair s
  | .yardRelease pair sc num dt => Sys2Proof.Machine.execYardRelease pair sc num dt s
  | .fastHoldExpiry pair => Sys2Proof.Machine.execFastHoldExpiry pair s
  | .schShapeSet r => Sys2Proof.Machine.execSchShapeSet r s
  | .schClassSet r => Sys2Proof.Machine.execSchClassSet r s
  | .schStatsGet r => Sys2Proof.Machine.execSchStatsGet r s
  | .schSampleGet r => Sys2Proof.Machine.execSchSampleGet r s
  | .schTtStatus r => Sys2Proof.Machine.execSchTtStatus r s
  | .schQueueWrite r => Sys2Proof.Machine.execSchQueueWrite r s
  | .schQueueRead r => Sys2Proof.Machine.execSchQueueRead r s
  | .schTtWrite r => Sys2Proof.Machine.execSchTtWrite r s
  | .schTtRead r => Sys2Proof.Machine.execSchTtRead r s
  | .schTtCommit r => Sys2Proof.Machine.execSchTtCommit r s
  | .ttEntryBoundary port dt => Sys2Proof.Machine.execTtEntryBoundary port dt s
  | .ttSwap port dt => Sys2Proof.Machine.execTtSwap port dt s
  | .queueSample dt => Sys2Proof.Machine.execQueueSample dt s
  | .timeGet r => Sys2Proof.Machine.execTimeGet r s
  | .timeStep r => Sys2Proof.Machine.execTimeStep r s
  | .timeStepApply => Sys2Proof.Machine.execTimeStepApply s
  | .timeRateSet r => Sys2Proof.Machine.execTimeRateSet r s
  | .timePtpSend r => Sys2Proof.Machine.execTimePtpSend r s
  | .ptpSendDepart side port dt => Sys2Proof.Machine.execPtpSendDepart side port dt s
  | .timePtpRecv r => Sys2Proof.Machine.execTimePtpRecv r s
  | .timeCaptureSet r => Sys2Proof.Machine.execTimeCaptureSet r s
  | .timePpsSet r => Sys2Proof.Machine.execTimePpsSet r s
  | .timeTodGet r => Sys2Proof.Machine.execTimeTodGet r s
  | .timeModelSet r => Sys2Proof.Machine.execTimeModelSet r s
  | .timeRearm r => Sys2Proof.Machine.execTimeRearm r s
  | .timeRearmApply => Sys2Proof.Machine.execTimeRearmApply s
  | .timeDelaySet r => Sys2Proof.Machine.execTimeDelaySet r s
  | .timeDelayGet r => Sys2Proof.Machine.execTimeDelayGet r s
  | .timeRefSet r => Sys2Proof.Machine.execTimeRefSet r s
  | .nativeAlarmFire dt => Sys2Proof.Machine.execNativeAlarmFire dt s
  | .alarm32Fire dt => Sys2Proof.Machine.execAlarm32Fire dt s
  | .tuCtlSnap v => Sys2Proof.Machine.execTuCtlSnap v s
  | .tuAlarmArmWrite v => Sys2Proof.Machine.execTuAlarmArmWrite v s
  | .tuAlarm32ArmWrite v => Sys2Proof.Machine.execTuAlarm32ArmWrite v s
  | .tuAlarmValueWrite off v => Sys2Proof.Machine.execTuAlarmValueWrite off v s
  | .tuTxqIdRead => Sys2Proof.Machine.execTuTxqIdRead s
  | .tuTxqOvfClear v => Sys2Proof.Machine.execTuTxqOvfClear v s
  | .ppsInEdge falling dt => Sys2Proof.Machine.execPpsInEdge falling dt s
  | .todMessageReceive msg dt => Sys2Proof.Machine.execTodMessageReceive msg dt s
  | .todMessageSend dt => Sys2Proof.Machine.execTodMessageSend dt s
  | .turefLost => Sys2Proof.Machine.execTurefLost s
  | .turefRestored source => Sys2Proof.Machine.execTurefRestored source s
  | .dliveUpdate side dir lane mean => Sys2Proof.Machine.execDliveUpdate side dir lane mean s
  | .portConfig r => Sys2Proof.Machine.execPortConfig r s
  | .portDelete r => Sys2Proof.Machine.execPortDelete r s
  | .laneStatus r => Sys2Proof.Machine.execLaneStatus r s
  | .laneRetrain r => Sys2Proof.Machine.execLaneRetrain r s
  | .portFallow r => Sys2Proof.Machine.execPortFallow r s
  | .laneTestSet r => Sys2Proof.Machine.execLaneTestSet r s
  | .laneTestGet r => Sys2Proof.Machine.execLaneTestGet r s
  | .laneSeqWrite r => Sys2Proof.Machine.execLaneSeqWrite r s
  | .laneSeqRead r => Sys2Proof.Machine.execLaneSeqRead r s
  | .laneTxeqSet r => Sys2Proof.Machine.execLaneTxeqSet r s
  | .laneAdaptSet r => Sys2Proof.Machine.execLaneAdaptSet r s
  | .laneStageSuccess side lane fom m => Sys2Proof.Machine.execLaneStageSuccess side lane fom m s
  | .laneStageTimeout side lane => Sys2Proof.Machine.execLaneStageTimeout side lane s
  | .signalDetectLost side lane => Sys2Proof.Machine.execSignalDetectLost side lane s
  | .signalDetectReturn side lane => Sys2Proof.Machine.execSignalDetectReturn side lane s
  | .laneLockLost side lane => Sys2Proof.Machine.execLaneLockLost side lane s
  | .adaptStep side lane fom => Sys2Proof.Machine.execAdaptStep side lane fom s
  | .jtagInstructionLoad code => Sys2Proof.Machine.execJtagInstructionLoad code s
  | .tapReset => Sys2Proof.Machine.execTapReset s
  | .ksIdentityGet r => Sys2Proof.Machine.execKsIdentityGet r s
  | .ksSealSubmit r => Sys2Proof.Machine.execKsSealSubmit r s
  | .ksSealProcess whole => Sys2Proof.Machine.execKsSealProcess whole s
  | .ksSlotInfo r => Sys2Proof.Machine.execKsSlotInfo r s
  | .ksCounterGet r => Sys2Proof.Machine.execKsCounterGet r s
  | .ksDerive r => Sys2Proof.Machine.execKsDerive r s
  | .ksSlotFree r => Sys2Proof.Machine.execKsSlotFree r s
  | .ksAttest r => Sys2Proof.Machine.execKsAttest r s
  | .ksProvision r => Sys2Proof.Machine.execKsProvision r s
  | .ksCredentialSet r => Sys2Proof.Machine.execKsCredentialSet r s
  | .keyShareRemask => Sys2Proof.Machine.execKeyShareRemask s
  | .pkeRun r => Sys2Proof.Machine.execPkeRun r s
  | .pkeJobStart => Sys2Proof.Machine.execPkeJobStart s
  | .pkeJobDone busOk good attempts => Sys2Proof.Machine.execPkeJobDone busOk good attempts s
  | .pkeAbort r => Sys2Proof.Machine.execPkeAbort r s
  | .pkeStatus r => Sys2Proof.Machine.execPkeStatus r s
  | .pkeWipe r => Sys2Proof.Machine.execPkeWipe r s
  | .pkePowerDown => Sys2Proof.Machine.execPkePowerDown s
  | .tamperSourceFire source a b => Sys2Proof.Machine.execTamperSourceFire source a b s
  | .tamperSecondDecision what second sealOk journalOk => Sys2Proof.Machine.execTamperSecondDecision what second sealOk journalOk s
  | .detectorSelfTest failed => Sys2Proof.Machine.execDetectorSelfTest failed s
  | .tamperLogCopy => Sys2Proof.Machine.execTamperLogCopy s
  | .unlockNonceExpiry => Sys2Proof.Machine.execUnlockNonceExpiry s
  | .tampEventRead => Sys2Proof.Machine.execTampEventRead s
  | .tampStatusGet r => Sys2Proof.Machine.execTampStatusGet r s
  | .tampLogGet r => Sys2Proof.Machine.execTampLogGet r s
  | .tampNonceGet r => Sys2Proof.Machine.execTampNonceGet r s
  | .tampUnlock r => Sys2Proof.Machine.execTampUnlock r s
  | .tampResponseSet r => Sys2Proof.Machine.execTampResponseSet r s
  | .tampTest r => Sys2Proof.Machine.execTampTest r s
  | .fwStatus r => Sys2Proof.Machine.execFwStatus r s
  | .fwUpdate r => Sys2Proof.Machine.execFwUpdate r s
  | .fwRecallWriteDone ok => Sys2Proof.Machine.execFwRecallWriteDone ok s
  | .fwImageWriteDone ok starts => Sys2Proof.Machine.execFwImageWriteDone ok starts s
  | .fwConfirm r => Sys2Proof.Machine.execFwConfirm r s
  | .fwAutoConfirm => Sys2Proof.Machine.execFwAutoConfirm s
  | .fwConfirmOtpDone => Sys2Proof.Machine.execFwConfirmOtpDone s
  | .fwRevert r => Sys2Proof.Machine.execFwRevert r s
  | .fwProbationExpiry => Sys2Proof.Machine.execFwProbationExpiry s
  | .fwRestoreDone => Sys2Proof.Machine.execFwRestoreDone s
  | .pwrStatus r => Sys2Proof.Machine.execPwrStatus r s
  | .pwrDomainGet r => Sys2Proof.Machine.execPwrDomainGet r s
  | .pwrCurveWrite r => Sys2Proof.Machine.execPwrCurveWrite r s
  | .pwrCurveRead r => Sys2Proof.Machine.execPwrCurveRead r s
  | .pwrCurveCommit r => Sys2Proof.Machine.execPwrCurveCommit r s
  | .pwrCurveSwap => Sys2Proof.Machine.execPwrCurveSwap s
  | .pwrThermSet r => Sys2Proof.Machine.execPwrThermSet r s
  | .stretchRise sector readings dt => Sys2Proof.Machine.execStretchRise sector readings dt s
  | .stretchFall sector readings dt => Sys2Proof.Machine.execStretchFall sector readings dt s
  | .sensorTrim readings => Sys2Proof.Machine.execSensorTrim readings s
  | .sensorOutOfService sector sensor => Sys2Proof.Machine.execSensorOutOfService sector sensor s
  | .thermalRead junctions hbms power => Sys2Proof.Machine.execThermalRead junctions hbms power s
  | .telSlotGet r => Sys2Proof.Machine.execTelSlotGet r s
  | .telSnapInfo r => Sys2Proof.Machine.execTelSnapInfo r s
  | .snapshotLatch => Sys2Proof.Machine.execSnapshotLatch s
  | .snapshotWritten ok => Sys2Proof.Machine.execSnapshotWritten ok s
  | .pcfSnapNowWrite v => Sys2Proof.Machine.execPcfSnapNowWrite v s
  | .pcfSnapEnWrite v => Sys2Proof.Machine.execPcfSnapEnWrite v s
  | .pcfRingRdWrite v => Sys2Proof.Machine.execPcfRingRdWrite v s
  | .dmaStartWrite ch v => Sys2Proof.Machine.execDmaStartWrite ch v s
  | .dmaStopWrite ch v => Sys2Proof.Machine.execDmaStopWrite ch v s
  | .dmaChannelRun host cut => Sys2Proof.Machine.execDmaChannelRun host cut s
  | .dmaChannelDone ch => Sys2Proof.Machine.execDmaChannelDone ch s
  | .vddAoVbatLoss => Sys2Proof.Machine.execVddAoVbatLoss s
  | .lrefLoss => Sys2Proof.Machine.execLrefLoss s
  | .railDip lanes finds => Sys2Proof.Machine.execRailDip lanes finds s
  | .tamperConditionCleared source => Sys2Proof.Machine.execTamperConditionCleared source s
  | .ppsOutPulseEnd dt => Sys2Proof.Machine.execPpsOutPulseEnd dt s
  | .fwStaged => Sys2Proof.Machine.execFwStaged s
  | .provisioningOtpWriteDone => Sys2Proof.Machine.execProvisioningOtpWriteDone s

end Sys2Proof.Machine
end

