-- ==== Sys2Proof/Machine/Step.lean ====
section
/-!
DEFINITION. One step of the block: the command at the front of its queue is executed.
-/
namespace Sys2Proof.Machine

/-- One step: the command at the front of the queue acts on the state with the queue's rest; on an empty queue
the block idles. DESIGN CHOICE (log 1). -/
def step (s : State) : Host.Outcome State Fault Refusal :=
  match s.pending with
  | [] => .next s
  | c :: rest => exec c { s with pending := rest }

/-- A state with the command that a word spells at the front of its queue; unchanged where it spells none.
DESIGN CHOICE (log 1). -/
def State.withFetchWord (s : State) (nbits w : Nat) : State :=
  match decodeTableWord nbits w with
  | some c => { s with pending := c :: s.pending }
  | none => s

end Sys2Proof.Machine
end

