-- ==== Sys2Proof/Safety.lean ====
section
/-!
DEFINITION. The terms in which claims are stated: safe steps, the canonical form of the window memory, OTP that only
moves forward, NCS commands as rows of the table, and what it means that such a command is served.
-/
namespace Sys2Proof.Machine

/-- A step is safe when it ends in a next state. -/
def Safe (s : State) : Prop := ∃ t, step s = .next t

/-! Memory. -/

/-- Addresses rise strictly, every one above lo or equal to it, and no listed byte is what an unlisted one reads
as. -/
def Memory.wfFrom : Nat → List Host.Cell → Bool
  | _, [] => true
  | lo, (a, b) :: t => decide (lo ≤ a) && b != 0 && Memory.wfFrom (a + 1) t

/-- The canonical form of the window bytes. DESIGN CHOICE (log 56). -/
def Memory.wf (m : List Host.Cell) : Bool := Memory.wfFrom 0 m

/-- The byte at a window address. -/
def State.byte (s : State) (a : Nat) : Byte := ramByte s.ram a

/-! OTP. -/

/-- OTP b can follow OTP a: the life cycle goes one way (R14), burned bits stay burned (R504, R567, R568), retired
channels stay retired (R362), what a device was given at provisioning stays (R511, R512), fuses stay. -/
structure Otp.Forward (a b : Otp) : Prop where
  variant : b.variant = a.variant
  life : a.life.code ≤ b.life.code
  counter : a.h ≤ b.h
  floor : a.floor ≤ b.floor
  revoked : a.revoked &&& b.revoked = a.revoked
  retired : a.retired <+: b.retired
  fused : b.fused = a.fused
  minimum : b.minimum = a.minimum
  given : a.life ≠ .blank → b.identity = a.identity ∧ b.attest = a.attest ∧ b.ownerHash = a.ownerHash

/-! Event rings. -/

/-- R64 and R65 keep a place on the ring for every accepted command of a page. -/
def Page.Room (g : Page) : Prop := g.accepted.length + ringUsed g ≤ 64

/-- A state with another device part: OTP, window memory and queue as before. -/
def State.put (s : State) (d : Dev) : State := { s with dev := d }

/-! NCS commands. -/

/-- The command description and the request of a row that is an NCS command. -/
def ncsRow : Instr → Option (Cmd × NcsReq)
  | .tickBoundary _ => none
  | .ncsDoorbellWrite _ _ => none
  | .requestPickup _ => none
  | .ncsEvtHeadWrite _ _ => none
  | .ncsEvtLostRead _ => none
  | .ncsIrqMaskWrite _ _ => none
  | .irqCtlWrite _ => none
  | .irqCoalesceExpiry _ => none
  | .irqTestFire _ => none
  | .registerWrite _ _ _ => none
  | .pageHwBusyAnswer _ => none
  | .haltedRequestAnswer _ => none
  | .sbRestartComplete => none
  | .smbBlockWrite _ _ => none
  | .smbBlockRead => none
  | .smbReadByte => none
  | .smbAddressMatchWake _ => none
  | .ncsPing r => some (cmdNcsPing, r)
  | .ncsGetInfo r => some (cmdNcsGetInfo, r)
  | .ncsSetExpert r => some (cmdNcsSetExpert, r)
  | .ncsSetEvtMask r => some (cmdNcsSetEvtMask, r)
  | .ncsRingReset r => some (cmdNcsRingReset, r)
  | .sysGetState r => some (cmdSysGetState, r)
  | .sysSetMode r => some (cmdSysSetMode, r)
  | .sysSleep r => some (cmdSysSleep, r)
  | .sysReset r => some (cmdSysReset, r)
  | .sysResetTrigger => none
  | .sysMgmtRestart r => some (cmdSysMgmtRestart, r)
  | .sysAdvanceLife r => some (cmdSysAdvanceLife, r)
  | .lifeOtpWriteDone => none
  | .sysClearConfig r => some (cmdSysClearConfig, r)
  | .sysRecalibrate r => some (cmdSysRecalibrate, r)
  | .recalSliceTestDone _ => none
  | .recalDroopPhaseEnd => none
  | .mainPowerLoss => none
  | .mainPowerReturn _ => none
  | .rstNReset => none
  | .wakeNWake _ => none
  | .rtcAlarmWake => none
  | .aoColdStart => none
  | .startSequence _ => none
  | .modeEntry _ => none
  | .perstNRelease => none
  | .pcieHotReset => none
  | .vfFlr _ => none
  | .dormantReached => none
  | .clientFrameReceive _ _ _ _ => none
  | .lineFrameReceive _ _ _ _ => none
  | .rxIcvVerdict _ => none
  | .contextFetchDone _ => none
  | .contextLoadDone _ _ => none
  | .reorderRelease _ => none
  | .egressSelect _ _ => none
  | .ruleSwap _ => none
  | .fmPortBind r => some (cmdFmPortBind, r)
  | .fmPortUnbind r => some (cmdFmPortUnbind, r)
  | .fmSecyCreate r => some (cmdFmSecyCreate, r)
  | .fmSecySet r => some (cmdFmSecySet, r)
  | .fmSecyDelete r => some (cmdFmSecyDelete, r)
  | .fmScCreate r => some (cmdFmScCreate, r)
  | .fmScDelete r => some (cmdFmScDelete, r)
  | .fmStatsGet r => some (cmdFmStatsGet, r)
  | .fmPtpSet r => some (cmdFmPtpSet, r)
  | .fmBypassSet r => some (cmdFmBypassSet, r)
  | .fmPnThresholdSet r => some (cmdFmPnThresholdSet, r)
  | .fmRuleWrite r => some (cmdFmRuleWrite, r)
  | .fmRuleRead r => some (cmdFmRuleRead, r)
  | .fmRuleCommit r => some (cmdFmRuleCommit, r)
  | .esurdelFrameTransmit _ _ _ _ => none
  | .esurdelFrameReceive _ _ _ _ _ => none
  | .barExpiry _ _ => none
  | .sheafRelease _ _ _ => none
  | .txSuperframeBoundary _ => none
  | .rxSuperframeBoundary _ _ => none
  | .lmPortEnable r => some (cmdLmPortEnable, r)
  | .lmPortDisable r => some (cmdLmPortDisable, r)
  | .lmSheafCreate r => some (cmdLmSheafCreate, r)
  | .lmSheafDelete r => some (cmdLmSheafDelete, r)
  | .lmClientMap r => some (cmdLmClientMap, r)
  | .lmClientUnmap r => some (cmdLmClientUnmap, r)
  | .lmLaneStatus r => some (cmdLmLaneStatus, r)
  | .lmTraceSet r => some (cmdLmTraceSet, r)
  | .lmTraceGet r => some (cmdLmTraceGet, r)
  | .lmDescWrite r => some (cmdLmDescWrite, r)
  | .lmDescRead r => some (cmdLmDescRead, r)
  | .lmDescCommit r => some (cmdLmDescCommit, r)
  | .lmHuntWrite r => some (cmdLmHuntWrite, r)
  | .lmHuntRead r => some (cmdLmHuntRead, r)
  | .lmTestMode r => some (cmdLmTestMode, r)
  | .losDeclare _ => none
  | .losClear _ => none
  | .lolClear _ => none
  | .lofDeclare _ => none
  | .lofClear _ => none
  | .losfDeclare _ => none
  | .loaDeclare _ => none
  | .loaClear _ => none
  | .secondsBoundary _ => none
  | .lmDefectGet r => some (cmdLmDefectGet, r)
  | .lmPmGet r => some (cmdLmPmGet, r)
  | .lmDefectParamWrite r => some (cmdLmDefectParamWrite, r)
  | .lmDefectParamRead r => some (cmdLmDefectParamRead, r)
  | .lmMaintSet r => some (cmdLmMaintSet, r)
  | .shadowRecomputeDone _ _ => none
  | .shadowArbitrationDone _ _ _ => none
  | .sidingTakeoverDone _ => none
  | .maskExpanderReseed _ => none
  | .contextRerandomise _ => none
  | .drbgReseed => none
  | .entropyTestFail _ _ => none
  | .sourceStartupTestDone _ _ => none
  | .drbgReseedLimit => none
  | .bulkJobDone _ _ _ => none
  | .sliceStatus r => some (cmdSliceStatus, r)
  | .sliceMap r => some (cmdSliceMap, r)
  | .rngStatus r => some (cmdRngStatus, r)
  | .bulkSubmit r => some (cmdBulkSubmit, r)
  | .bulkCancel r => some (cmdBulkCancel, r)
  | .sliceTest r => some (cmdSliceTest, r)
  | .sliceTestDone _ _ => none
  | .sliceShadowSet r => some (cmdSliceShadowSet, r)
  | .saInstall r => some (cmdSaInstall, r)
  | .saDestroy r => some (cmdSaDestroy, r)
  | .saSetEncoding r => some (cmdSaSetEncoding, r)
  | .saStatus r => some (cmdSaStatus, r)
  | .kcSchedule r => some (cmdKcSchedule, r)
  | .kcCancel r => some (cmdKcCancel, r)
  | .kcChainCreate r => some (cmdKcChainCreate, r)
  | .kcChainDelete r => some (cmdKcChainDelete, r)
  | .kaPeerSet r => some (cmdKaPeerSet, r)
  | .kaStart r => some (cmdKaStart, r)
  | .kaStatus r => some (cmdKaStatus, r)
  | .kcParamWrite r => some (cmdKcParamWrite, r)
  | .kcParamRead r => some (cmdKcParamRead, r)
  | .kcRekeyAll r => some (cmdKcRekeyAll, r)
  | .kcPreload _ _ => none
  | .kcSwitch _ _ => none
  | .saRetireTx _ _ => none
  | .saRetireRx _ _ => none
  | .kcSchedLate _ _ => none
  | .chainPeriodSwitch _ _ => none
  | .chainDeriveDone _ => none
  | .rekeyAllNextReady => none
  | .saIndexFree _ => none
  | .kaInitReceive _ _ => none
  | .kaRespReceive _ _ => none
  | .kaFinReceive _ _ => none
  | .kaDoneReceive _ _ => none
  | .kaAbortReceive _ _ => none
  | .kaRetransmit _ => none
  | .dspGroupGet r => some (cmdDspGroupGet, r)
  | .dspPlaceGet r => some (cmdDspPlaceGet, r)
  | .dspStatsGet r => some (cmdDspStatsGet, r)
  | .dspHintSet r => some (cmdDspHintSet, r)
  | .dspHintGet r => some (cmdDspHintGet, r)
  | .dspTableWrite r => some (cmdDspTableWrite, r)
  | .dspTableRead r => some (cmdDspTableRead, r)
  | .dspTableCommit r => some (cmdDspTableCommit, r)
  | .dspTableSwap => none
  | .dspParamWrite r => some (cmdDspParamWrite, r)
  | .dspParamRead r => some (cmdDspParamRead, r)
  | .stripeWidthChange _ => none
  | .moveStart _ => none
  | .moveSwitchover _ => none
  | .moveDrainComplete _ => none
  | .droopReliefStart _ => none
  | .droopReliefEnd _ => none
  | .sliceIdlePowerDown _ => none
  | .domainPowerUpDone _ => none
  | .grnStatus r => some (cmdGrnStatus, r)
  | .grnRegionGet r => some (cmdGrnRegionGet, r)
  | .grnChannelGet r => some (cmdGrnChannelGet, r)
  | .grnFaultLog r => some (cmdGrnFaultLog, r)
  | .grnHaltRecord r => some (cmdGrnHaltRecord, r)
  | .grnRekey r => some (cmdGrnRekey, r)
  | .grnEpochLimit _ => none
  | .grnRekeyDone => none
  | .grnRetire r => some (cmdGrnRetire, r)
  | .retireDrainEnd => none
  | .retireMigrateDone => none
  | .retireOtpDone => none
  | .grnRegionSet r => some (cmdGrnRegionSet, r)
  | .grnParamWrite r => some (cmdGrnParamWrite, r)
  | .grnParamRead r => some (cmdGrnParamRead, r)
  | .grnScrub _ => none
  | .pathPairCreate r => some (cmdPathPairCreate, r)
  | .pathPairDelete r => some (cmdPathPairDelete, r)
  | .pathStatus r => some (cmdPathStatus, r)
  | .pathRequest r => some (cmdPathRequest, r)
  | .pathPrioritySet r => some (cmdPathPrioritySet, r)
  | .pathProfileWrite r => some (cmdPathProfileWrite, r)
  | .pathProfileRead r => some (cmdPathProfileRead, r)
  | .claimFrameSend _ => none
  | .claimFrameReceive _ _ _ => none
  | .claimMissExpiry _ _ => none
  | .pathGuardExpiry _ _ => none
  | .holdoffExpiry _ => none
  | .yardRelease _ _ _ _ => none
  | .fastHoldExpiry _ => none
  | .schShapeSet r => some (cmdSchShapeSet, r)
  | .schClassSet r => some (cmdSchClassSet, r)
  | .schStatsGet r => some (cmdSchStatsGet, r)
  | .schSampleGet r => some (cmdSchSampleGet, r)
  | .schTtStatus r => some (cmdSchTtStatus, r)
  | .schQueueWrite r => some (cmdSchQueueWrite, r)
  | .schQueueRead r => some (cmdSchQueueRead, r)
  | .schTtWrite r => some (cmdSchTtWrite, r)
  | .schTtRead r => some (cmdSchTtRead, r)
  | .schTtCommit r => some (cmdSchTtCommit, r)
  | .ttEntryBoundary _ _ => none
  | .ttSwap _ _ => none
  | .queueSample _ => none
  | .timeGet r => some (cmdTimeGet, r)
  | .timeStep r => some (cmdTimeStep, r)
  | .timeStepApply => none
  | .timeRateSet r => some (cmdTimeRateSet, r)
  | .timePtpSend r => some (cmdTimePtpSend, r)
  | .ptpSendDepart _ _ _ => none
  | .timePtpRecv r => some (cmdTimePtpRecv, r)
  | .timeCaptureSet r => some (cmdTimeCaptureSet, r)
  | .timePpsSet r => some (cmdTimePpsSet, r)
  | .timeTodGet r => some (cmdTimeTodGet, r)
  | .timeModelSet r => some (cmdTimeModelSet, r)
  | .timeRearm r => some (cmdTimeRearm, r)
  | .timeRearmApply => none
  | .timeDelaySet r => some (cmdTimeDelaySet, r)
  | .timeDelayGet r => some (cmdTimeDelayGet, r)
  | .timeRefSet r => some (cmdTimeRefSet, r)
  | .nativeAlarmFire _ => none
  | .alarm32Fire _ => none
  | .tuCtlSnap _ => none
  | .tuAlarmArmWrite _ => none
  | .tuAlarm32ArmWrite _ => none
  | .tuAlarmValueWrite _ _ => none
  | .tuTxqIdRead => none
  | .tuTxqOvfClear _ => none
  | .ppsInEdge _ _ => none
  | .todMessageReceive _ _ => none
  | .todMessageSend _ => none
  | .turefLost => none
  | .turefRestored _ => none
  | .dliveUpdate _ _ _ _ => none
  | .portConfig r => some (cmdPortConfig, r)
  | .portDelete r => some (cmdPortDelete, r)
  | .laneStatus r => some (cmdLaneStatus, r)
  | .laneRetrain r => some (cmdLaneRetrain, r)
  | .portFallow r => some (cmdPortFallow, r)
  | .laneTestSet r => some (cmdLaneTestSet, r)
  | .laneTestGet r => some (cmdLaneTestGet, r)
  | .laneSeqWrite r => some (cmdLaneSeqWrite, r)
  | .laneSeqRead r => some (cmdLaneSeqRead, r)
  | .laneTxeqSet r => some (cmdLaneTxeqSet, r)
  | .laneAdaptSet r => some (cmdLaneAdaptSet, r)
  | .laneStageSuccess _ _ _ _ => none
  | .laneStageTimeout _ _ => none
  | .signalDetectLost _ _ => none
  | .signalDetectReturn _ _ => none
  | .laneLockLost _ _ => none
  | .adaptStep _ _ _ => none
  | .jtagInstructionLoad _ => none
  | .tapReset => none
  | .ksIdentityGet r => some (cmdKsIdentityGet, r)
  | .ksSealSubmit r => some (cmdKsSealSubmit, r)
  | .ksSealProcess _ => none
  | .ksSlotInfo r => some (cmdKsSlotInfo, r)
  | .ksCounterGet r => some (cmdKsCounterGet, r)
  | .ksDerive r => some (cmdKsDerive, r)
  | .ksSlotFree r => some (cmdKsSlotFree, r)
  | .ksAttest r => some (cmdKsAttest, r)
  | .ksProvision r => some (cmdKsProvision, r)
  | .ksCredentialSet r => some (cmdKsCredentialSet, r)
  | .keyShareRemask => none
  | .pkeRun r => some (cmdPkeRun, r)
  | .pkeJobStart => none
  | .pkeJobDone _ _ _ => none
  | .pkeAbort r => some (cmdPkeAbort, r)
  | .pkeStatus r => some (cmdPkeStatus, r)
  | .pkeWipe r => some (cmdPkeWipe, r)
  | .pkePowerDown => none
  | .tamperSourceFire _ _ _ => none
  | .tamperSecondDecision _ _ _ _ => none
  | .detectorSelfTest _ => none
  | .tamperLogCopy => none
  | .unlockNonceExpiry => none
  | .tampEventRead => none
  | .tampStatusGet r => some (cmdTampStatusGet, r)
  | .tampLogGet r => some (cmdTampLogGet, r)
  | .tampNonceGet r => some (cmdTampNonceGet, r)
  | .tampUnlock r => some (cmdTampUnlock, r)
  | .tampResponseSet r => some (cmdTampResponseSet, r)
  | .tampTest r => some (cmdTampTest, r)
  | .fwStatus r => some (cmdFwStatus, r)
  | .fwUpdate r => some (cmdFwUpdate, r)
  | .fwRecallWriteDone _ => none
  | .fwImageWriteDone _ _ => none
  | .fwConfirm r => some (cmdFwConfirm, r)
  | .fwAutoConfirm => none
  | .fwConfirmOtpDone => none
  | .fwRevert r => some (cmdFwRevert, r)
  | .fwProbationExpiry => none
  | .fwRestoreDone => none
  | .pwrStatus r => some (cmdPwrStatus, r)
  | .pwrDomainGet r => some (cmdPwrDomainGet, r)
  | .pwrCurveWrite r => some (cmdPwrCurveWrite, r)
  | .pwrCurveRead r => some (cmdPwrCurveRead, r)
  | .pwrCurveCommit r => some (cmdPwrCurveCommit, r)
  | .pwrCurveSwap => none
  | .pwrThermSet r => some (cmdPwrThermSet, r)
  | .stretchRise _ _ _ => none
  | .stretchFall _ _ _ => none
  | .sensorTrim _ => none
  | .sensorOutOfService _ _ => none
  | .thermalRead _ _ _ => none
  | .telSlotGet r => some (cmdTelSlotGet, r)
  | .telSnapInfo r => some (cmdTelSnapInfo, r)
  | .snapshotLatch => none
  | .snapshotWritten _ => none
  | .pcfSnapNowWrite _ => none
  | .pcfSnapEnWrite _ => none
  | .pcfRingRdWrite _ => none
  | .dmaStartWrite _ _ => none
  | .dmaStopWrite _ _ => none
  | .dmaChannelRun _ _ => none
  | .dmaChannelDone _ => none
  | .vddAoVbatLoss => none
  | .lrefLoss => none
  | .railDip _ _ => none
  | .tamperConditionCleared _ => none
  | .ppsOutPulseEnd _ => none
  | .fwStaged => none
  | .provisioningOtpWriteDone => none

/-- The request can be put before the device: its page exists and is reached, no earlier request of it waits (R47, R78,
R80). -/
abbrev Rings (r : NcsReq) (s : State) : Prop :=
  r.page ≤ 65 ∧ reachable s.dev r.page = true ∧ latched s.dev r.page = false

/-- The device with the request latched and picked up. -/
def submitted (code : Nat) (r : NcsReq) (d : Dev) : Dev := pickUp r.page (latchReq code r d)

/-- The request finds a Signal box that picks it up: the device is not HALTED, SB_UP is 1, no requester waits before it
(R69, R74, R77). -/
abbrev Reaches (c : Cmd) (r : NcsReq) (s : State) : Prop :=
  Rings r s ∧ s.dev.sys.mode ≠ .halted ∧ s.dev.sb.up = true ∧ nextRequester (latchReq c.code r s.dev) = some r.page

/-- The request is judged and passes checks 1 to 11 of R56. -/
abbrev Passes (c : Cmd) (r : NcsReq) (s : State) : Prop :=
  Reaches c r s ∧ checks c s.otp (submitted c.code r s.dev) r = none

/-- The state after the page hardware has answered a request (R74, R77). -/
def turned (code : Nat) (r : NcsReq) (st : Nat) (payload : List Word) (s : State) : State :=
  s.put (respond r.page r.tag st payload (latchReq code r s.dev))

/-- The state after a command that changes the device by e and answers with a status and a payload: the request has
been latched and picked up, the response has been written (R46, R48). -/
def served (code : Nat) (r : NcsReq) (st : Nat) (payload : Dev → List Word) (e : Dev → Dev) (s : State) : State :=
  let d := submitted code r s.dev
  s.put (respond r.page r.tag st (payload d) (e d))

/-- The state after a command that is accepted with effect e: it runs on under its tag and code until its
EVT_CMD_DONE (R65, R72). -/
def taken (r : NcsReq) (code : Nat) (e : Dev → Dev) (s : State) : State :=
  served code r stAccepted (fun _ => []) (fun d => accept r.page r.tag code (e d)) s

/-- Every request that passes its checks is answered ST_OK with a payload, and nothing but its page and messages has
changed. -/
def Answers (i : NcsReq → Instr) (c : Cmd) (pl : Otp → NcsReq → Dev → List Word) : Prop :=
  ∀ r s, Passes c r s → exec (i r) s = .next (served c.code r stOk (pl s.otp r) id s)

/-- Every request that passes its checks has effect e and is answered ST_OK without payload. -/
def Sets (i : NcsReq → Instr) (c : Cmd) (e : Otp → NcsReq → Dev → Dev) : Prop :=
  ∀ r s, Passes c r s → exec (i r) s = .next (served c.code r stOk (fun _ => []) (e s.otp r) s)

/-- Every request that passes its checks has effect e and is accepted. -/
def Starts (i : NcsReq → Instr) (c : Cmd) (e : Otp → NcsReq → Dev → Dev) : Prop :=
  ∀ r s, Passes c r s → exec (i r) s = .next (taken r c.code (e s.otp r) s)

/-- The response record that the sender of a request reads. -/
def answerOf (d : Dev) (p : Nat) : List Word := if p = 65 then d.sb.smbResp else (pageOf d p).resp

/-- The request's own sender reads a status and a payload, and OTP, windows and queue are as before. -/
def Answered (r : NcsReq) (st : Nat) (pl : List Word) (s t : State) : Prop :=
  answerOf t.dev r.page = respRecord r.tag st pl ∧ t.otp = s.otp ∧ t.ram = s.ram ∧ t.pending = s.pending

/-- Every request that passes its checks completes: there is a next state, in which its sender reads the status and the
payload, and of which q holds. -/
def Completes (i : NcsReq → Instr) (c : Cmd) (st : Nat) (pl : NcsReq → Dev → List Word) (q : NcsReq → Dev → Dev → Prop) :
    Prop :=
  ∀ r s, Passes c r s → ∃ t, exec (i r) s = .next t ∧ Answered r st (pl r s.dev) s t ∧ q r s.dev t.dev

end Sys2Proof.Machine
end

