-- ==== Sys2Proof/Certificates/Slice0/Obligations.lean ====
section
/-!
DEFINITION. The statements for the provers, chapter by chapter. A command's statement gives the whole next state: what it
does not name has not changed. `Passes` says that a request passes checks 1 to 11 of R56, `served` that it has been latched
and answered, `taken` that it has been accepted.
-/

open Sys2Proof Sys2Proof.Machine

/-- A step takes the command at the front of the queue and runs it on the state with the queue's rest. With no command
waiting it changes nothing. The queue, and idling on an empty one, are the model's choice: log entry 1. -/
def Obligations.StepRunsFrontCommand : Prop :=
  (∀ (c : Instr) (rest : List Instr) (s : State),
     step { s with pending := c :: rest } = exec c { s with pending := rest })
  ∧ (∀ s : State, s.pending = [] → step s = .next s)

/-- Every command of the table ends in a next state, with the queue as it was: none ends in a fault or a refusal. -/
def Obligations.EveryCommandCompletesAndKeepsQueue : Prop :=
  ∀ (c : Instr) (s : State), ∃ t, exec c s = .next t ∧ t.pending = s.pending

/-- Right after reset: nothing waits, nothing is listed in the windows, no page window and no IRQ_ register has left
its reset values, SB_UP is 0, MODE reads STAGING, DMA, lanes, SAs and ports are at their start. MODE at t = 0 of a
first start, and BLANK as its life cycle, are the model's choice: log entry 4. -/
def Obligations.ResetLeavesStatedValues : Prop :=
  State.reset.pending = [] ∧ Memory.wf State.reset.ram = true ∧ (∀ a, State.reset.byte a = 0)
    ∧ (∀ p, pageOf State.reset.dev p = Page.init) ∧ State.reset.dev.sb.up = false
    ∧ modeCode State.reset.dev = 1
    ∧ (∀ p, p ≤ 64 → stateWord State.reset.otp State.reset.dev p = 0x10000000#32)
    ∧ State.reset.dev.sb.irqEnable = false ∧ State.reset.dev.sb.coalesce = 0 ∧ State.reset.dev.sb.hwMask = 0x1F#5
    ∧ State.reset.dev.kc.sas = [] ∧ State.reset.dev.ln.ports = [] ∧ State.reset.otp.life = .blank

/-- The canonical form of the window memory is kept by every step from every state that has it. -/
def Obligations.StepKeepsWindowsCanonical : Prop :=
  ∀ s t : State, Memory.wf s.ram = true → step s = .next t → Memory.wf t.ram = true

/-- Whatever a step does, OTP only moves forward: no life cycle goes back, no burned bit is cleared, no retired
channel returns, and once the device has left BLANK its identity, attestation secret and owner hash stay. -/
def Obligations.StepMovesOtpForward : Prop :=
  ∀ s t : State, step s = .next t → s.otp.Forward t.otp

/-- A write of a byte string shows at its own addresses, and every other byte of the windows reads as before. -/
def Obligations.WindowWriteReadsBack : Prop :=
  ∀ (m : List Host.Cell) (a n : Nat) (b : Bytes), Memory.wf m = true →
    ramByte (ramPut m a b) n = if a ≤ n ∧ n < a + b.length then b.getD (n - a) 0 else ramByte m n

/-- In HALTED every NCS command is answered ST_HALTED, and nothing but its page changes (R77). While SB_UP is 0 every
NCS command is answered ST_BUSY, reason 1, and nothing but its page changes (R74). A request that fails one of the
checks 1 to 11 of R56 is answered with that status and changes nothing else. A tenant page is refused, reason 1, every
command whose Pages column does not show it, where no earlier check fails. What latching and answering a request leave
on its page, and that no other page is touched (R46, R48, R50). A request on a page whose earlier one is not answered
only sets OVERRUN, on the SMBus it is refused by NACK (R47, R80); one that is not next in order stays latched (R69).
-/
def Obligations.RequestsAreAnsweredOnTheirPage : Prop :=
  (∀ (i : Instr) (c : Cmd) (r : NcsReq) (s : State), ncsRow i = some (c, r) → Rings r s → s.dev.sys.mode = .halted →
     exec i s = .next (turned c.code r stHalted [] s))
  ∧ (∀ (i : Instr) (c : Cmd) (r : NcsReq) (s : State), ncsRow i = some (c, r) → Rings r s → s.dev.sys.mode ≠ .halted →
       s.dev.sb.up = false → exec i s = .next (turned c.code r stBusy [1] s))
  ∧ (∀ (i : Instr) (c : Cmd) (r : NcsReq) (s : State) (st : Nat) (pl : List Word), ncsRow i = some (c, r) → Reaches c r s →
       checks c s.otp (submitted c.code r s.dev) r = some (st, pl) →
         exec i s = .next (served c.code r st (fun _ => pl) id s) ∧ st ≠ stOk ∧ st ≠ stAccepted)
  ∧ (∀ (i : Instr) (c : Cmd) (r : NcsReq) (s : State), ncsRow i = some (c, r) → Reaches c r s → 1 ≤ r.page → r.page ≤ 64 →
       c.tenants = false → r.len ≤ 254 → c.lenOk r = true → r.rsv % 128 = 0 →
       (c.bv128 = true → s.otp.variant = .bv128) →
         exec i s = .next (served c.code r stNotPermitted (fun _ => [1]) id s))
  ∧ (∀ (code : Nat) (r : NcsReq) (st : Nat) (pl : List Word) (s : State), r.page ≤ 64 → r.tag < 256 → st < 2 ^ 16 →
       let t := served code r st (fun _ => pl) id s
       let g := pageOf t.dev r.page
       g.reqBusy = false ∧ g.respValid = true ∧ g.lastTag = r.tag
         ∧ g.resp = BitVec.ofNat 32 (st * 2 ^ 16 + r.tag * 2 ^ 8) :: BitVec.ofNat 32 pl.length :: pl
         ∧ g.ring = (pageOf s.dev r.page).ring ∧ g.tail = (pageOf s.dev r.page).tail
         ∧ g.accepted = (pageOf s.dev r.page).accepted
         ∧ (∀ q, q ≠ r.page → pageOf t.dev q = pageOf s.dev q)
         ∧ ((pageOf s.dev r.page).maskResp = false → s.dev.sb.irqEnable = true → s.dev.sb.spacing = [] →
             t.dev.outs = s.dev.outs ++ [.msix r.page])
         ∧ t.dev.sb.served = r.page ∧ t.otp = s.otp ∧ t.ram = s.ram ∧ t.pending = s.pending)
  ∧ (∀ (i : Instr) (c : Cmd) (r : NcsReq) (s : State), ncsRow i = some (c, r) → r.page ≤ 65 →
       reachable s.dev r.page = true → latched s.dev r.page = true →
         exec i s = .next (s.put (if r.page = 65 then out .smbNack s.dev
           else setPage r.page { pageOf s.dev r.page with overrun := true } s.dev)))
  ∧ (∀ (i : Instr) (c : Cmd) (r : NcsReq) (s : State), ncsRow i = some (c, r) → Rings r s → s.dev.sys.mode ≠ .halted →
       s.dev.sb.up = true → nextRequester (latchReq c.code r s.dev) ≠ some r.page →
         exec i s = .next (s.put (latchReq c.code r s.dev)) ∧ latched (latchReq c.code r s.dev) r.page = true)

/-- R64 and R65 keep room on the ring: an event other than EVT_CMD_DONE never takes the place of a running command's,
an accepted command finds its place, and its EVT_CMD_DONE is always written. Writing an event never overwrites an
unread entry, and an event that finds no room is dropped and counted (R63, R64). -/
def Obligations.RingKeepsUnreadEntriesAndRoom : Prop :=
  (∀ (g : Page) (w2 w3 : Word), g.Room →
     (∀ evt tag, evt ≠ evtCmdDone → (g.event evt tag w2 w3).Room)
     ∧ (∀ a, g.accepted.length < 64 - ringUsed g → Page.Room { g with accepted := g.accepted ++ [a] })
     ∧ (∀ tag a rest, g.accepted = a :: rest →
         let d := Page.event { g with accepted := rest } evtCmdDone tag w2 w3
         d.Room ∧ d.tail = g.tail + 1 ∧ d.lost = g.lost ∧ d.seq = g.seq + 1))
  ∧ (∀ (g : Page) (evt tag : Nat) (w2 w3 : Word), evt < 2 ^ 16 → tag < 256 →
       let h := g.event evt tag w2 w3
       h.seq = g.seq + 1 ∧ h.head = g.head ∧ h.accepted = g.accepted
         ∧ (ringTakes g evt = true →
             h.tail = g.tail + 1 ∧ h.lost = g.lost
               ∧ tget h.ring (g.tail.toNat % 64) = some ⟨BitVec.ofNat 32 (evt * 2 ^ 16 + tag * 2 ^ 8), g.seq, w2, w3⟩
               ∧ ∀ k : Nat, k < ringUsed g → tget h.ring ((g.head.toNat + k) % 64) = tget g.ring ((g.head.toNat + k) % 64))
         ∧ (ringTakes g evt = false → h.tail = g.tail ∧ h.ring = g.ring ∧ h.evtOvf = true
               ∧ h.lost = min (g.lost + 1) 0xFFFF))

/-- A doorbell ring while REQ_BUSY is 1 is ignored and sets OVERRUN; the latched request is not disturbed. -/
def Obligations.DoorbellWhileBusyOnlyOverruns : Prop :=
  ∀ (p : Nat) (v : Word) (s : State), windowUp s.dev p = true → bit v 0 = true → (pageOf s.dev p).reqBusy = true →
    exec (.ncsDoorbellWrite p v) s =
      .next (s.put (setPage p { pageOf s.dev p with overrun := true } s.dev))

/-- Writes and reads of the page registers, by their own rows and by REGISTER_WRITE at their offsets. The IRQ_
registers: ENABLE with its held messages, the end of a vector's spacing, IRQ_TEST (R68). -/
def Obligations.PageAndInterruptRegistersAct : Prop :=
  ((∀ (p : Nat) (v : Word) (s : State), windowUp s.dev p = true → bit v 0 = true → (pageOf s.dev p).reqBusy = false →
     exec (.ncsDoorbellWrite p v) s = .next (s.put (setPage p { pageOf s.dev p with
       latch := (pageOf s.dev p).req
       grant := (pageOf s.dev p).expert
       reqBusy := true
       respValid := false
       lastTag := fld (tgetD (pageOf s.dev p).req 0 0) 15 8 } s.dev)))
   ∧ (∀ (p : Nat) (v : Word) (s : State), windowUp s.dev p = true → ((pageOf s.dev p).tail - v).toNat ≤ 64 →
     exec (.ncsEvtHeadWrite p v) s = .next (s.put (setPage p { pageOf s.dev p with head := v } s.dev)))
   ∧ (∀ (p : Nat) (v : Word) (s : State), windowUp s.dev p = true → 64 < ((pageOf s.dev p).tail - v).toNat →
     exec (.ncsEvtHeadWrite p v) s = .next (s.put (setPage p { pageOf s.dev p with headErr := true } s.dev)))
   ∧ (∀ (p : Nat) (s : State), windowUp s.dev p = true →
     exec (.ncsEvtLostRead p) s = .next (s.put (out (.readValue (BitVec.ofNat 32 (pageOf s.dev p).lost))
       (setPage p { pageOf s.dev p with lost := 0 } s.dev))))
   ∧ (∀ (p : Nat) (v : Word) (s : State), windowUp s.dev p = true → pagePend s.dev p = false →
       (pageOf s.dev p).respValid = false → (pageOf s.dev p).sbChg = false → (pageOf s.dev p).tail = (pageOf s.dev p).head →
     exec (.ncsIrqMaskWrite p v) s = .next (s.put (setPage p { pageOf s.dev p with
       maskResp := bit v 0, maskEvt := bit v 1, maskSb := bit v 2 } s.dev)))
   ∧ (∀ (p : Nat) (s : State), windowUp s.dev p = true → (pageOf s.dev p).maskResp = true →
       (pageOf s.dev p).respValid = true → (pageOf s.dev p).maskEvt = false → (pageOf s.dev p).maskSb = false →
       s.dev.sb.irqEnable = true → s.dev.sb.spacing = [] → s.dev.sb.coalesce = 0 →
     exec (.ncsIrqMaskWrite p 0) s = .next (s.put (out (.msix p) (setPage p { pageOf s.dev p with
       maskResp := false } s.dev))))
   ∧ (∀ (n off : Nat) (v : Word) (s : State), 1 ≤ n → n ≤ 64 → windowUp s.dev n = true →
       exec (.registerWrite (.vf n) 0x000 v) s = exec (.ncsDoorbellWrite n v) s
       ∧ exec (.registerWrite (.vf n) 0x00C v) s = exec (.ncsEvtHeadWrite n v) s
       ∧ exec (.registerWrite (.vf n) 0x014 v) s = exec (.ncsIrqMaskWrite n v) s
       ∧ (off < 256 → v ≠ 0 → exec (.registerWrite (.vf n) (0x400 + 4 * off) v) s =
           .next (s.put (setPage n { pageOf s.dev n with req := tset (pageOf s.dev n).req off v } s.dev)))
       ∧ exec (.registerWrite .pf (n * 0x1000 + off) v) s = .next s))
  ∧ ((∀ (v : Word) (s : State), bar2Up s.dev = true → bit v 31 = false →
       exec (.irqCtlWrite v) s = .next (s.put ({ s.dev with sb := { s.dev.sb with
         irqEnable := false, coalesce := fld v 15 0 } })))
     ∧ (∀ (v : Word) (s : State), bar2Up s.dev = true → bit v 31 = true → fld v 15 0 = 0 → s.dev.sb.spacing = [] →
       exec (.irqCtlWrite v) s = .next (s.put ({ s.dev with
         sb := { s.dev.sb with irqEnable := true, coalesce := 0, held := [] }
         outs := s.dev.outs ++ s.dev.sb.held.map .msix })))
     ∧ (∀ (n : Nat) (s : State), s.dev.sb.spacing.contains n = true → s.dev.sb.held.contains n = false →
       exec (.irqCoalesceExpiry n) s = .next (s.put ({ s.dev with sb := { s.dev.sb with
         spacing := s.dev.sb.spacing.filter (· != n) } })))
     ∧ (∀ (n : Nat) (s : State), s.dev.sb.spacing.contains n = true → s.dev.sb.held.contains n = true →
         s.dev.sb.irqEnable = true → s.dev.sb.coalesce ≠ 0 →
       ∃ t, exec (.irqCoalesceExpiry n) s = .next t ∧ t.dev.outs = s.dev.outs ++ [.msix n]
         ∧ t.dev.sb.held.contains n = false ∧ t.dev.sb.spacing.contains n = true)
     ∧ (∀ (v : Word) (s : State), bar2Up s.dev = true → bit v 0 = true → s.dev.sb.irqEnable = true → s.dev.sb.coalesce = 0 →
       exec (.irqTestFire v) s = .next (s.put (out (.msix 65) s.dev)))
     ∧ (∀ (v : Word) (s : State), bar2Up s.dev = true →
       exec (.registerWrite .bar2 0x5000 v) s = exec (.irqCtlWrite v) s
         ∧ exec (.registerWrite .bar2 0x5018 v) s = exec (.irqTestFire v) s))

/-- The page hardware's answers, and the Signal box taking the next latched request in round-robin order. The SMBus
transactions (R80): a request taken or refused by NACK, the response and the status byte read, which change nothing in
the device. -/
def Obligations.LatchedAndSmbusRequestsAct : Prop :=
  ((∀ (p : Nat) (s : State), latched s.dev p = true → s.dev.sb.up = false → s.dev.sys.mode ≠ .halted →
     exec (.pageHwBusyAnswer p) s =
       .next (s.put (respond p (fld (latchWord s.dev p 0) 15 8) stBusy [1] s.dev)))
   ∧ (∀ (p : Nat) (s : State), latched s.dev p = true → s.dev.sys.mode = .halted →
     exec (.haltedRequestAnswer p) s =
       .next (s.put (respond p (fld (latchWord s.dev p 0) 15 8) stHalted [] s.dev)))
   ∧ (∀ (p : Nat) (buf : Bytes) (c : Cmd) (s : State), s.dev.sb.up = true → s.dev.sys.mode ≠ .halted →
       nextRequester s.dev = some p → cmdOf (fld (latchWord s.dev p 0) 31 16) = some c →
     exec (.requestPickup buf) s = .next (s.put (serve c (latchedReq (pickUp p s.dev) p buf) s.otp (pickUp p s.dev))))
   ∧ (∀ (p : Nat) (buf : Bytes) (s : State), s.dev.sb.up = true → s.dev.sys.mode ≠ .halted →
       nextRequester s.dev = some p → cmdOf (fld (latchWord s.dev p 0) 31 16) = none →
       (latchWord s.dev p 1).toNat ≤ 14 →
     exec (.requestPickup buf) s = .next (s.put (respond p (fld (latchWord s.dev p 0) 15 8) stBadCode [] (pickUp p s.dev)))))
  ∧ ((∀ (ws : List Word) (s : State), smbUp s.dev = true → s.dev.sb.smbBusy = false →
       exec (.smbBlockWrite ws true) s = .next (s.put ({ s.dev with sb := { s.dev.sb with
         smbReq := ws.take 16, smbBusy := true, smbReady := false } })))
     ∧ (∀ (ws : List Word) (ok : Bool) (s : State), smbUp s.dev = true → (ok = false ∨ s.dev.sb.smbBusy = true) →
       exec (.smbBlockWrite ws ok) s = .next (s.put (out .smbNack s.dev)))
     ∧ (∀ s : State, smbUp s.dev = true →
       let ws := if s.dev.sb.smbReady then s.dev.sb.smbResp else []
       exec .smbBlockRead s = .next (s.put (out (.smbBlock ws
         (readPec s.dev 0x11 (4 * ws.length :: (wordBytes ws).map (·.toNat)))) s.dev)))
     ∧ (∀ s : State, smbUp s.dev = true →
       let v := (if s.dev.sb.up then 128 else 0) + modeCode s.dev * 16
         + s.otp.life.code * 4 + (if s.dev.sb.smbReady then 2 else 0) + (if s.dev.sb.smbBusy then 1 else 0)
       exec .smbReadByte s = .next (s.put (out (.smbByte v (readPec s.dev 0x12 [v])) s.dev))))

/-- NCS_RING_RESET discards all unread entries, sets both pointers to 0, clears EVT_OVF and NCS_EVT_LOST and leaves
SEQ; it ends with ST_BUSY, reason 2, while NCS_INFLIGHT is non-zero; its request has 0 words. -/
def Obligations.RingResetClearsRing : Prop :=
  Sets .ncsRingReset cmdNcsRingReset (fun _ r d => setPage r.page { pageOf d r.page with
    ring := [], tail := 0, head := 0, evtOvf := false, lost := 0 } d)
  ∧ (∀ (r : NcsReq) (s : State), Reaches cmdNcsRingReset r s → r.page ≤ 64 → r.len = 0 →
      r.rsv % 128 = 0 → s.dev.sys.mode ≠ .dormant → (pageOf s.dev r.page).accepted ≠ [] →
    exec (.ncsRingReset r) s = .next (served 0x0104 r stBusy (fun _ => [2]) id s))
  ∧ (∀ (r : NcsReq) (s : State), Passes cmdNcsRingReset r s → r.len = 0)

/-- The other housekeeping commands: ping, identification, expert grants, event suppression. -/
def Obligations.HousekeepingCommands : Prop :=
  Answers .ncsPing cmdNcsPing (fun _ r d => [rw r 0, BitVec.ofNat 32 (modeCode d)])
  ∧ Answers .ncsGetInfo cmdNcsGetInfo (fun o r d => infoWords o d r.page)
  ∧ Sets .ncsSetExpert cmdNcsSetExpert (fun _ r d =>
      emit (rw r 0).toNat 0x0182 (BitVec.ofNat 32 (rf r 1 15 0)) 0
        (setPage (rw r 0).toNat { pageOf d (rw r 0).toNat with expert := BitVec.ofNat 16 (rf r 1 15 0) } d))
  ∧ Sets .ncsSetEvtMask cmdNcsSetEvtMask (fun _ r d =>
      setPage r.page { pageOf d r.page with evtMask := BitVec.ofNat 16 (rf r 0 15 0) } d)
  ∧ (∀ (r : NcsReq) (s : State), Passes cmdNcsPing r s → r.len = 1)

/-- The state and mode commands that answer directly: what SYS_GET_STATE reads (R104), the mode changes of
SYS_SET_MODE with their cause (R88, R105), the pending reset of SYS_RESET (R107). SYS_SLEEP keeps its wake sources,
answers, and the Signal box stops on the way into DORMANT (R101, R106). SYS_CLEAR_CONFIG puts configuration at its
start defaults and leaves time, key slots, quotas and OTP (R110). Life cycle (R109, R113): the command is accepted,
the burn comes with its OTP write and ends it. -/
def Obligations.SystemCommandsAct : Prop :=
  (Answers .sysGetState cmdSysGetState (fun o _ d =>
     [BitVec.ofNat 32 (d.sys.cause * 2 ^ 24 + (if d.sys.maintRecal then 2 ^ 23 else 0) + (if d.sys.maintRetire then 2 ^ 22 else 0)
         + (if d.sys.maintRekey then 2 ^ 21 else 0) + (if d.sys.maintFw then 2 ^ 20 else 0) + o.life.code * 2 ^ 8 + modeCode d),
       BitVec.ofNat 32 (d.sys.startCause * 2 ^ 24 + d.sys.haltCause * 2 ^ 16), d.sys.rtcAtStart, d.sys.startUs])
   ∧ (∀ (r : NcsReq) (s : State), Passes cmdSysSetMode r s → s.dev.sys.mode = .staging → rw r 0 = 2 →
       exec (.sysSetMode r) s = .next (served 0x0121 r stOk (fun _ => [])
         (fun d => changeMode (if anyMaint d then .service else .secure) 0x01 0 (BitVec.ofNat 32 r.page) d) s))
   ∧ (∀ (r : NcsReq) (s : State), Passes cmdSysSetMode r s → s.dev.sys.mode = .secure → rw r 0 = 1 →
       exec (.sysSetMode r) s = .next (served 0x0121 r stOk (fun _ => [])
         (fun d => leaveTraffic true s.otp (changeMode .staging 0x01 0 (BitVec.ofNat 32 r.page) d)) s))
   ∧ (∀ (m : Mode) (cause detail : Nat) (w : Word) (d : Dev), let e := changeMode m cause detail w d
       e.sys.mode = m ∧ e.sys.cause = cause ∧ e.kc = d.kc ∧ e.ks = d.ks ∧ e.grn = d.grn ∧ e.sl = d.sl ∧ e.fm = d.fm
         ∧ e.ln = d.ln ∧ e.lm = d.lm ∧ e.tamp = d.tamp)
   ∧ (∀ (r : NcsReq) (s : State), Passes cmdSysReset r s → s.dev.sys.resetPending = none →
       exec (.sysReset r) s = .next (served 0x0123 r stOk (fun _ => [])
         (fun d => { d with sys := { d.sys with resetPending := some (2, if r.page = 65 then 0xFF else r.page) } }) s)))
  ∧ (∀ (r : NcsReq) (s : State), Passes cmdSysSleep r s →
       ∃ t, exec (.sysSleep r) s = .next t ∧ t.dev.sys.phase = .sleeping ∧ t.dev.sb.up = false
         ∧ t.dev.sys.wakePin = bit (rw r 0) 0 ∧ t.dev.sys.wakeSmb = bit (rw r 0) 1 ∧ t.dev.sys.wakeRtc = bit (rw r 0) 2
         ∧ t.dev.sys.wakeLatch = none ∧ (bit (rw r 0) 2 = true → t.dev.sys.rtcAlarm = rw r 1)
         ∧ t.dev.ks = s.dev.ks ∧ t.dev.kc = s.dev.kc ∧ t.dev.tamp = s.dev.tamp ∧ t.otp = s.otp ∧ t.ram = s.ram)
  ∧ (Sets .sysClearConfig cmdSysClearConfig (fun _ _ d => clearConfig d)
     ∧ ∀ d : Dev, let e := clearConfig d
         e.kc.sas = [] ∧ e.kc.scheds = [] ∧ e.kc.chains = [] ∧ e.ln.ports = [] ∧ e.lm.sheaves = [] ∧ e.lm.clients = []
           ∧ e.fm.secys = [] ∧ e.fm.scs = [] ∧ e.fm.pairs = [] ∧ e.sch = Sch.init ∧ e.pth = Paths.init ∧ e.grn.bufs = []
           ∧ e.ks = d.ks ∧ e.grn.regions = d.grn.regions ∧ e.grn.kt = d.grn.kt ∧ e.sys = d.sys ∧ e.tamp = d.tamp ∧ e.fw = d.fw
           ∧ e.sb = d.sb ∧ e.lm.txFc = d.lm.txFc ∧ e.kc.installs = d.kc.installs)
  ∧ (Starts .sysAdvanceLife cmdSysAdvanceLife (fun _ r d => { d with sys := { d.sys with
         lifePending := some (if rw r 0 = 2 then .deployed else .retired, r.page, r.tag) } })
     ∧ (∀ (l : Life) (p tag : Nat) (s : State), s.dev.sys.lifePending = some (l, p, tag) → s.dev.sys.phase = .up →
         s.dev.sys.mode ≠ .halted → s.otp.life.code < l.code →
         ∃ t, exec .lifeOtpWriteDone s = .next t ∧ t.otp = { s.otp with life := l } ∧ t.dev.sys.lifePending = none
           ∧ t.dev.sys.mode = s.dev.sys.mode ∧ t.dev.kc = s.dev.kc ∧ t.ram = s.ram
           ∧ (l = .retired → t.dev.ks.kv = [] ∧ t.dev.ks.sealV = [] ∧ ∀ x ∈ t.dev.ks.flash, x.1 < 2)
           ∧ (l ≠ .retired → t.dev.ks = s.dev.ks)
           ∧ (s.dev.sb.up = false → t.dev.sys.lifeHeld = some (s.otp.life, l) ∧ t.dev.outs = s.dev.outs)))

/-- The Signal box comes back: EVT_SB_RESTARTED on every page, then the completions it carried (R73 to R76, R108).
Recalibration (R111, R112): accepted as maintenance activity 3, its slice tests, its droop phase of 100 ticks. -/
def Obligations.ManagementRestartAndRecalibration : Prop :=
  ((∀ (r : NcsReq) (s : State), Passes cmdSysMgmtRestart r s →
     exec (.sysMgmtRestart r) s = .next (s.put (finish r.page r.tag 0x0124 stOk 0 (sbStop 5
       (respond r.page r.tag stAccepted [] (accept r.page r.tag 0x0124 (submitted 0x0124 r s.dev)))))))
   ∧ (∀ s : State, s.dev.sys.phase = .up → s.dev.sys.mode ≠ .halted → s.dev.sb.up = false →
     exec .sbRestartComplete s = .next (s.put (kaAgain s.otp (lifeHeldEvent ((List.range 65).foldl (fun d p => carriedDone p d)
       (emitAll 0x0181 (BitVec.ofNat 32 s.dev.sb.restartReason) s.dev.fw.runVersion (setSbUp true s.dev))))))))
  ∧ ((∀ (r : NcsReq) (s : State), Passes cmdSysRecalibrate r s →
       exec (.sysRecalibrate r) s = .next (s.put (recalNext 0 s.otp (respond r.page r.tag stAccepted []
         (accept r.page r.tag 0x0127 (maintStart 3 (setRecal
           ⟨r.page, r.tag, bit (rw r 0) 0, bit (rw r 0) 1, bit (rw r 0) 2, none, false, 0, false, 0, 0, 0⟩ (submitted 0x0127 r s.dev))))))))
     ∧ (∀ (n : Nat) (runs : List (Bool × Bool)) (x : Recal) (s : State), s.dev.sys.recal = some x → x.slice = some n →
         let pass := katFail s.otp runs == 0
         let d := testEnded n pass s.otp
           (setRecal { x with slice := none, failed := if pass then x.failed else x.failed + 1 } s.dev)
       (x.stopping = false → exec (.recalSliceTestDone runs) s = .next (s.put (recalNext (n + 1) s.otp (bulkAssign s.otp d))))
       ∧ (x.stopping = true → exec (.recalSliceTestDone runs) s = .next (s.put (recalEnd stLocked d))))
     ∧ (∀ (x : Recal) (s : State), s.dev.sys.recal = some x → x.droop = true → 100 ≤ x.droopTicks → x.delays = false →
       exec .recalDroopPhaseEnd s = .next (s.put (maintEnd 3 (finish x.page x.tag 0x0127 stOk
         (BitVec.ofNat 32 (x.skipped * 2 ^ 16 + x.failed * 2 ^ 8 + x.returned)) { s.dev with sys := { s.dev.sys with recal := none } })))))

/-- A start from reset pins, SYS_RESET, a wake, or the return of power: its cause and data, and no window byte kept.
Loss of power and DORMANT (R88, R99, R101, R632, R647). PERST_N, hot reset and function-level reset (R97, R98): the
windows return to their reset values, grants stay. -/
def Obligations.PowerAndResetHappeningsAct : Prop :=
  (let began := fun (cause : Nat) (w : Word) (reason : Nat) (s : State) (d : Dev) (rtc : Word) =>
     Host.Outcome.next { s with dev := beginStart cause w reason s.otp { d with sys := { d.sys with rtc := rtc } }, ram := [] }
   (∀ s : State, s.dev.sys.mainGood = true → s.dev.sys.aoGood = true →
     exec .rstNReset s = began 0x03 0 1 s s.dev s.dev.sys.rtc)
   ∧ (∀ (p : Nat) (s : State), s.dev.sys.resetPending = some (0, p) → s.dev.sys.mode ≠ .halted →
     exec .sysResetTrigger s = began 0x04 (BitVec.ofNat 32 p) 1 s s.dev s.dev.sys.rtc)
   ∧ (∀ (v : Word) (s : State), s.dev.sys.phase = .dormant → s.dev.sys.aoGood = true → s.dev.sys.rtc ≤ v →
     s.dev.sys.wakePin = true → exec (.wakeNWake v) s = began 0x05 0 2 s s.dev v)
   ∧ (∀ (v : Word) (s : State), s.dev.sys.phase = .dormant → s.dev.sys.aoGood = true → s.dev.sys.rtc ≤ v →
     s.dev.sys.wakeSmb = true → exec (.smbAddressMatchWake v) s = began 0x06 0 2 s (out .smbNack s.dev) v)
   ∧ (∀ s : State, s.dev.sys.phase = .dormant → s.dev.sys.aoGood = true → s.dev.sys.wakeRtc = true →
     s.dev.sys.rtc ≤ s.dev.sys.rtcAlarm → exec .rtcAlarmWake s = began 0x07 s.dev.sys.rtcAlarm 2 s s.dev s.dev.sys.rtcAlarm)
   ∧ (∀ (v : Word) (s : State), s.dev.sys.phase = .off → s.dev.sys.aoGood = true → s.dev.sys.rtc ≤ v →
     exec (.mainPowerReturn v) s = began 0x03 0 1 s { s.dev with sys := { s.dev.sys with mainGood := true } } v)
   ∧ (∀ s : State, s.dev.sys.phase = .off → s.dev.sys.aoGood = false →
     ∃ t, exec .aoColdStart s = .next t ∧ t.dev.sys.phase = .starting ∧ t.dev.sys.startCause = 0x02 ∧ t.dev.sys.aoGood = true
       ∧ t.dev.sys.rtc = 0 ∧ t.dev.tamp.provisional = true ∧ t.ram = [] ∧ t.otp = s.otp))
  ∧ ((∀ s : State, ∃ t, exec .mainPowerLoss s = .next t ∧ t.dev.sys.phase = .off ∧ t.dev.sys.mode = .dormant
       ∧ t.dev.sys.mainGood = false ∧ t.ram = [] ∧ t.otp = s.otp ∧ t.dev.kc = Kc.init ∧ t.dev.ks.ram = [] ∧ t.dev.grn.kt = []
       ∧ t.dev.ks.flash = s.dev.ks.flash ∧ t.dev.ks.kv = s.dev.ks.kv ∧ t.dev.tamp.sticky = s.dev.tamp.sticky
       ∧ t.dev.tamp.log = s.dev.tamp.log ∧ t.dev.sys.rtc = s.dev.sys.rtc)
     ∧ (∀ s : State, s.dev.sys.phase ≠ .dormant → ∃ t, exec .vddAoVbatLoss s = .next t ∧ t.dev.sys.aoGood = false
       ∧ t.dev.sys.rtc = 0 ∧ t.dev.ks.kv = [] ∧ t.dev.ks.sealV = [] ∧ t.dev.tamp.sticky = 0 ∧ t.dev.tamp.log = []
       ∧ t.dev.ks.flash = s.dev.ks.flash ∧ t.dev.ks.ram = s.dev.ks.ram ∧ t.dev.kc = s.dev.kc ∧ t.dev.sys.phase = s.dev.sys.phase
       ∧ t.otp = s.otp ∧ t.ram = s.ram)
     ∧ (∀ s : State, s.dev.sys.phase = .sleeping → s.dev.ks.prepared = none → s.dev.sys.wakeLatch = none → s.dev.sys.wakeRtc = false →
       ∃ t, exec .dormantReached s = .next t ∧ t.dev.sys.phase = .dormant ∧ t.dev.sys.mode = .dormant ∧ t.ram = []
         ∧ t.otp = s.otp ∧ t.dev.kc = Kc.init ∧ t.dev.ks.ram = [] ∧ t.dev.ks.kv = s.dev.ks.kv ∧ t.dev.ks.flash = s.dev.ks.flash))
  ∧ ((∀ s : State, s.dev.sys.phase = .up → exec .perstNRelease s =
       .next (s.put { s.dev with sys := { s.dev.sys with perst := true, linkUp := true } }))
     ∧ (∀ (n : Nat) (s : State), s.dev.sys.linkUp = true → 1 ≤ n → n ≤ 64 → exec (.vfFlr n) s =
       .next (s.put (setPage n { Page.init with expert := (pageOf s.dev n).expert } { s.dev with sb := { s.dev.sb with
         orphans := s.dev.sb.orphans ++ ((pageOf s.dev n).accepted.filter (·.fin.isNone)).map (fun a => (n, a.tag, a.code)) } })))
     ∧ (∀ s : State, ∃ t, exec .pcieHotReset s = .next t
       ∧ (∀ p, p ≤ 64 → pageOf t.dev p = { Page.init with expert := (pageOf s.dev p).expert })
       ∧ t.dev.sb.irqEnable = false ∧ t.dev.sb.coalesce = 0 ∧ t.dev.sb.held = [] ∧ t.dev.tel.dma = [] ∧ t.dev.tel.snapEn = false
       ∧ (t.dev.sys = { s.dev.sys with perst := false, linkUp := false } ∨ s.dev.sys.linkUp = true ∧ t.dev.sys = s.dev.sys)
       ∧ t.dev.kc = s.dev.kc ∧ t.dev.ks = s.dev.ks ∧ t.dev.fm = s.dev.fm ∧ t.dev.grn = s.dev.grn
       ∧ t.otp = s.otp ∧ t.ram = s.ram))

/-- t = 0 of a start (R93, R98): volatile state and keys are gone, flash, the always-on domain and OTP stay, the cause
is kept for SYS_GET_STATE, the windows are at their reset values. The start sequence and the mode entry (R94 to R96):
the device comes up in LOCKED where a LOCK flag or the boot ROM asks for it, else in STAGING, with its Signal box. -/
def Obligations.StartLosesVolatileStateOnly : Prop :=
  (∀ (cause reason : Nat) (w : Word) (o : Otp) (d : Dev), let e := beginStart cause w reason o d
     e.sys.phase = .starting ∧ e.sys.mode = .staging ∧ e.sys.cause = cause ∧ e.sys.startCause = cause ∧ e.sys.startData = w
     ∧ e.sys.rtcAtStart = d.sys.rtc ∧ e.sb.restartReason = reason ∧ e.sb.up = false ∧ (∀ p, pageOf e p = Page.init)
     ∧ e.kc = Kc.init ∧ e.ks.ram = [] ∧ e.ks.queue = [] ∧ e.grn.kt = [] ∧ e.grn.bufs = [] ∧ e.pke = Pke.init
     ∧ e.sl.bulk = [] ∧ e.fm.flights = [] ∧ e.ln.lanes = [] ∧ e.dsp.cache = []
     ∧ e.ks.flash = d.ks.flash ∧ e.ks.slotCtr = d.ks.slotCtr ∧ e.ks.kv = d.ks.kv ∧ e.fw.image = d.fw.image
     ∧ e.fw.recallImg = d.fw.recallImg ∧ e.tamp.sticky = d.tamp.sticky ∧ e.tamp.log = d.tamp.log ∧ e.tamp.set = d.tamp.set
     ∧ e.pwr.strap = d.pwr.strapNow ∧ e.sys.haltCause = (if mustLock o d then d.sys.haltCause else 0))
  ∧ ((∀ (x : StartOutcome) (s : State), s.dev.sys.phase = .starting → s.dev.sys.startRun = false →
       ∃ t, exec (.startSequence x) s = .next t ∧ t.dev.sys.linkUp = t.dev.sys.perst ∧ t.ram = s.ram ∧ s.otp.Forward t.otp)
     ∧ (∀ (us : Word) (s : State), s.dev.sys.phase = .starting → s.dev.sys.startRun = true → s.dev.sys.mode ≠ .halted →
         entryTimeOk s.dev us.toNat = true → s.dev.sb.up = false → s.dev.sl.startFail = none → s.dev.sl.failedAtStart = [] →
         s.dev.tamp.later = [] → s.dev.grn.retiredAtStart = [] → s.dev.fw.report = none → s.dev.ks.recovery = [] →
       ∃ t, exec (.modeEntry us) s = .next t ∧ t.dev.sys.phase = .up
         ∧ t.dev.sys.mode = (if s.dev.sys.startLocked then .locked else .staging) ∧ t.dev.sb.up = true ∧ t.dev.sys.startUs = us
         ∧ t.dev.sys.ticks = 0 ∧ t.dev.kc = s.dev.kc ∧ t.otp = s.otp ∧ t.ram = s.ram))

/-- Port pairs, SecYs and secure channels: what each command leaves and answers (R145 to R150). Counters, PTP and
bypass settings, PN thresholds, the rule tables (R151 to R157): settings wait for the tick, the shadow becomes active
by the swap alone (R127). What a written rule and a tick boundary leave: other sectors and other settings stay, the
active table stays (R127, R152, R153, R155). -/
def Obligations.FrameModeCommandsAct : Prop :=
  (Sets .fmPortBind cmdFmPortBind (fun o r d =>
     let c := rf r 0 29 24
     let l := rf r 0 21 16
     placeGroup (64 + l) o (placeGroup l o { d with fm := { d.fm with
       pairs := tset d.fm.pairs c ⟨l, bit (rw r 1) 0, PtpSet.init, none, List.replicate 6 0⟩ } }))
   ∧ Sets .fmPortUnbind cmdFmPortUnbind (fun _ r d => unbindPair (rf r 0 29 24) d)
   ∧ (∀ (r : NcsReq) (c y sc i : Nat) (s : State), Passes cmdFmSecyCreate r s → clientOfLine s.dev (rf r 0 21 16) = some c →
       freeSecy s.dev (sectorOf (rf r 0 21 16)) = some y → freeSc s.dev (sectorOf (rf r 0 21 16)) = some sc →
       ruleIndex s.dev (sectorOf c) (reqVlan r).isSome = some i →
     exec (.fmSecyCreate r) s = .next (served 0x0302 r stOk (fun _ => [BitVec.ofNat 32 y, BitVec.ofNat 32 sc]) (fun d =>
       armSwap (sectorOf c) (shadowPut (sectorOf c) i (some (secyRule c y (reqVlan r))) { d with fm := { d.fm with
         secys := tset d.fm.secys y ⟨rf r 0 21 16, c, rf r 0 7 0, rw r 1, (rw r 2).toNat, sc, 0xFF000000, 0xFFFFFFFF,
           reqVlan r, i, List.replicate 14 0⟩
         scs := tset d.fm.scs sc ⟨y, true, reqSci r 3, List.replicate 3 0, 0, none⟩ } })) s))
   ∧ Sets .fmSecySet cmdFmSecySet (fun _ r d => { d with fm := { d.fm with
       secys := tmod d.fm.secys (rf r 0 13 0) (fun y => { y with policy := rw r 1, window := (rw r 2).toNat }) } })
   ∧ Starts .fmSecyDelete cmdFmSecyDelete (fun _ r d =>
       let x := secyDelete (rf r 0 13 0) d
       { x.2 with fm := { x.2.fm with deletes := x.2.fm.deletes ++ [(r.page, r.tag, x.1)] } })
   ∧ (∀ (r : NcsReq) (c : Nat) (s : State), Passes cmdFmScCreate r s → freeSc s.dev (rf r 0 13 0 / 4096) = some c →
     exec (.fmScCreate r) s = .next (served 0x0305 r stOk (fun _ => [BitVec.ofNat 32 c]) (fun d => { d with fm := { d.fm with
       scs := tset d.fm.scs c ⟨rf r 0 13 0, false, reqSci r 1, List.replicate 8 0, 0, none⟩ } }) s))
   ∧ Sets .fmScDelete cmdFmScDelete (fun _ r d => (dropSc (rf r 0 17 0) d).2))
  ∧ (Answers .fmStatsGet cmdFmStatsGet (fun _ r d => ((statsOf d r).getD []).flatMap
       (fun n => [BitVec.ofNat 32 (n.toNat % 2 ^ 32), BitVec.ofNat 32 (n.toNat / 2 ^ 32)]))
     ∧ Sets .fmPtpSet cmdFmPtpSet (fun _ r d => { d with fm := { d.fm with
         pairs := tmod d.fm.pairs ((clientOfLine d (rf r 0 21 16)).getD 64) (fun p => { p with ptpNext := some (ptpOf r) }) } })
     ∧ Sets .fmBypassSet cmdFmBypassSet (fun _ r d => { d with fm := { d.fm with bypassNext := some (rf r 0 15 0, bit (rw r 0) 16) } })
     ∧ Sets .fmPnThresholdSet cmdFmPnThresholdSet (fun _ r d => thresholdSet r d)
     ∧ Sets .fmRuleWrite cmdFmRuleWrite (fun _ r d => ruleWrite r d)
     ∧ Answers .fmRuleRead cmdFmRuleRead (fun _ r d => (List.range (rw r 1).toNat).flatMap (fun i =>
         tgetD (if bit (rw r 0) 31 then (rulesOf d (rf r 0 17 16)).shadow else (rulesOf d (rf r 0 17 16)).active)
           (rf r 0 13 0 + i) (List.replicate 8 0)))
     ∧ (∀ (r : NcsReq) (s : State), Passes cmdFmRuleCommit r s →
       exec (.fmRuleCommit r) s = .next (served 0x0312 r stOk (fun d => [(rulesOf d (rf r 0 1 0)).generation + 1])
         (fun d => setRules (rf r 0 1 0) { rulesOf d (rf r 0 1 0) with armed := true, armedAt := d.sys.ticks } d) s))
     ∧ (∀ (n : Nat) (s : State), let x := rulesOf s.dev n
       (x.armed = true → x.armedAt < s.dev.sys.ticks →
         exec (.ruleSwap n) s = .next (s.put (emit 0 0x0382 (BitVec.ofNat 32 n) (x.generation + 1)
           (setRules n { x with
             active := x.shadow, dead := x.deadShadow, armed := false, uncommitted := false
             generation := x.generation + 1 } s.dev))))
       ∧ (x.armed = false ∨ s.dev.sys.ticks ≤ x.armedAt → exec (.ruleSwap n) s = .next s)))
  ∧ (∀ (r : NcsReq) (d : Dev), let e := ruleWrite r d
       (∀ n, (rulesOf e n).active = (rulesOf d n).active ∧ (rulesOf e n).generation = (rulesOf d n).generation
         ∧ (n ≠ rf r 0 17 16 → (rulesOf e n).shadow = (rulesOf d n).shadow)
         ∧ (rulesOf e n).armed = (rulesOf d n).armed)
       ∧ (∀ j, (j < rf r 0 13 0 ∨ rf r 0 13 0 + (rw r 1).toNat ≤ j) →
           tget (rulesOf e (rf r 0 17 16)).shadow j = tget (rulesOf d (rf r 0 17 16)).shadow j)
       ∧ (∀ i, i < (rw r 1).toNat →
           tget (rulesOf e (rf r 0 17 16)).shadow (rf r 0 13 0 + i) = some ((List.range 8).map (fun j => rw r (2 + 8 * i + j))))
       ∧ e.sys = d.sys ∧ e.sb = d.sb ∧ e.kc = d.kc ∧ e.fm.secys = d.fm.secys)

/-- A frame from a client port in SECURE or SERVICE (R124, R131): a PAUSE frame is only counted, a frame that a rule
protects takes the SecY's transmit SC, a passed frame enters its queue; in STAGING nothing is forwarded. -/
def Obligations.ClientFramesAreClassified : Prop :=
  ∀ (c dt : Nat) (f : Bytes) (full : Bool) (p : Pair) (s : State), let d := measurePath 1 0 c f (passTime dt s.dev)
    tget d.fm.pairs c = some p → 60 ≤ f.length → runModes.contains d.sys.mode = true → captures d (64 + c) f = false →
    (trafficOn d = false → exec (.clientFrameReceive c f full dt) s = .next (s.put d))
    ∧ (trafficOn d = true → full = false → etherType f = 0x8808 →
        exec (.clientFrameReceive c f full dt) s = .next (s.put (countPair c 2 d)))
    ∧ (trafficOn d = true → full = false → etherType f = d.fm.etype → etherType f ≠ 0x8808 →
        exec (.clientFrameReceive c f full dt) s = .next (s.put (countPair c 0 d)))
    ∧ (trafficOn d = true → full = false → etherType f ≠ 0x8808 → etherType f ≠ d.fm.etype → etherType f ≠ 0x888E →
        (p.ptp.bypass && isPtp f) = false →
        (classify d 0 c p.defaultPass f = .dropIt →
          exec (.clientFrameReceive c f full dt) s = .next (s.put (countPair c 0 d)))
        ∧ (classify d 0 c p.defaultPass f = .passIt →
          exec (.clientFrameReceive c f full dt) s = .next (s.put (countPtp c (ptpCorrects p.ptp f) f (countPair c 1
            (enqueue s.otp (lineQueue p.line (pcpQueue d p.line f)) (plainFrame d (64 + c) (ptpCorrects p.ptp f) f) d)))))
        ∧ (∀ y k, classify d 0 c p.defaultPass f = .protectIt y → tget d.fm.secys y = some k → polProtect k.policy = true →
          f.length ≤ 15996 →
          let g := gleanStart k.line (f.length + 4) (stampNow d 1 0 c) d
          exec (.clientFrameReceive c f full dt) s = .next (s.put (assign s.otp
            { newFlight d false y k.txSc k.policy f (64 + c) k.line (lineQueue p.line (tgetD d.sch.secyQueue y 0)) (gleanStage 1 d g.1) with
              ptp := ptpCorrects p.ptp f }
            (countPtp c (ptpCorrects p.ptp f) f g.2)))))

/-- A frame from a line port (R124, R133, R293): the key channel's fragments, a protected frame, a PAUSE frame; and
the events behind the dispatcher: context fetch and load, the reorder stage, the verdict (R31, R135, R240, R320). A
slice's result with a void token leaves the order without a trace, a transmit frame enters its queue (R31, R315); a
received frame below the lowest acceptable PN is dropped under replay protection and counted (R134). -/
def Obligations.ReceivePathEvents : Prop :=
  ((∀ (l c dt : Nat) (f : Bytes) (full : Bool) (p : Pair) (s : State), let d := measurePath 0 0 l f (passTime dt s.dev)
     pairOfLine d l = none → clientOfLine d l = some c → tget d.fm.pairs c = some p → p.line = l → 60 ≤ f.length →
     runModes.contains d.sys.mode = true → captures d l f = false →
     (etherType f = d.fm.etype → beAt f (etherOff f + 2) 1 = 1 →
       exec (.lineFrameReceive l f full dt) s = .next (s.put (countPair c 5 (keyFragment l f d))))
     ∧ (trafficOn d = true → full = false → etherType f ≠ d.fm.etype → etherType f = 0x8808 →
       exec (.lineFrameReceive l f full dt) s = .next (s.put (countPair c 2 d)))
     ∧ (trafficOn d = true → full = false → etherType f ≠ d.fm.etype → etherType f = 0x88E5 → tagCount f = 0 →
       (p.ptp.bypass && isPtp f) = false →
       exec (.lineFrameReceive l f full dt) s = .next (s.put (rxSecured s.otp c l p false f d))))
   ∧ (∀ (id : Nat) (f : Flight) (s : State), flightOf s.dev id = some f → f.rx = true → f.verdict = false → f.stage = .done →
       f.released = false → f.icvOk = true → pairOfLine s.dev (f.ingress % 64) = none →
     exec (.rxIcvVerdict id) s = .next (s.put (releaseFrom s.otp { f with verdict := true } (setFlight { f with verdict := true }
       (validFrame f.sa (timeAt s.dev f.arrival) false s.dev)))))
   ∧ (∀ (sa : Nat) (f : Flight) (s : State), s.dev.fm.flights.filter (fun f => f.stage == .missing && f.sa == sa) = [f] →
       s.dev.lm.missing.filter (fun m => m.sa == sa) = [] →
     (contextSound s.dev sa = false → exec (.contextFetchDone sa) s = .next (s.put (contextFails sa s.otp s.dev)))
     ∧ (contextSound s.dev sa = true → let e := cacheFetch sa { s.dev with
           fm := { s.dev.fm with flights := s.dev.fm.flights.filter (fun g => g.rx || !(g.stage == .missing && g.sa == sa)) }
           lm := { s.dev.lm with missing := s.dev.lm.missing.filter (fun m => m.sa != sa) }
           dsp := { s.dev.dsp with fetching := s.dev.dsp.fetching.filter (· != sa) } }
         let g := { f with glean := gleanStage 2 e f.glean }
         exec (.contextFetchDone sa) s = .next (s.put (if f.rx then rxGo s.otp g e else assign s.otp g e))))
   ∧ (∀ (n sa : Nat) (s : State), (sliceOf s.dev n).ctxs.any (fun c => c.sa == sa && !c.ready) = true →
       slicePowered s.dev n = true → loadable s.dev sa = false →
     exec (.contextLoadDone n sa) s = .next (s.put (sliceRun s.otp n (setSlice n
       ((sliceOf s.dev n).keep (fun c => c.sa != sa)) s.dev))))
   ∧ (∀ (n sa : Nat) (s : State), (sliceOf s.dev n).ctxs.any (fun c => c.sa == sa && !c.ready) = true →
       slicePowered s.dev n = true → loadable s.dev sa = true → s.dev.fm.flights = [] →
     exec (.contextLoadDone n sa) s = .next (s.put (sliceRun s.otp n (setSlice n { sliceOf s.dev n with
       ctxs := (sliceOf s.dev n).ctxs.map (fun c => if c.sa == sa then { c with ready := true } else c) } s.dev))))
   ∧ (∀ (id : Nat) (f : Flight) (s : State), flightOf s.dev id = some f → f.stage = .done →
     exec (.reorderRelease id) s = .next (s.put (sliceRun s.otp f.slice (releaseFrom s.otp f s.dev)))))
  ∧ ((∀ (o : Otp) (f : Flight) (d : Dev), f.stage ≠ .done → releaseOne o f d = none)
     ∧ (∀ (o : Otp) (f : Flight) (d : Dev), f.stage = .done → f.void = true →
         releaseOne o f d = some (gleanFinish true f.glean (dropFlight f.id d)))
     ∧ (∀ (o : Otp) (f : Flight) (d : Dev), f.stage = .done → f.void = false → f.rx = true → f.verdict = false → f.hold = true →
         releaseOne o f d = none)
     ∧ (∀ (o : Otp) (f : Flight) (x : SaRec) (y : Secy) (d : Dev), saOf d f.sa = some x → tget d.fm.secys f.secy = some y →
         f.icvOk = true ∨ f.check = false → pairOfLine d (f.ingress % 64) = none →
         polReplay f.policy = true → f.pn < max 1 (x.pn - y.window) →
         rxRelease o f d = gleanFinish true f.glean (bumpSc f.sc 7 1 d)))

/-- Accepting a frame moves the next PN of its SA past the frame's PN and never back (R133, R134). The 64-bit PN of an
XPN frame is recovered from its low 32 bits when it lies less than 2^31 above the lowest acceptable PN (R134). -/
def Obligations.PacketNumbersMoveForward : Prop :=
  (∀ (f : Flight) (x : SaRec) (y : Secy) (d : Dev), saOf d f.sa = some x → tget d.fm.secys f.secy = some y →
     lowestPn y x ≤ f.pn → ∃ z, saOf (acceptPn f d) f.sa = some z ∧ z.pn = max x.pn (f.pn + 1) ∧ x.pn ≤ z.pn ∧ f.pn < z.pn
       ∧ z.key = x.key ∧ z.state = x.state
       ∧ (∀ i, i ≠ f.sa → saOf (acceptPn f d) i = saOf d i))
  ∧ (∀ lowest pn : Nat, lowest ≤ pn → pn < lowest + 2 ^ 31 → pn < 2 ^ 64 → recoverPn lowest (pn % 2 ^ 32) = pn)

/-- The line-mode commands (R206 to R213, R233 to R236): what each one sets or reads. -/
def Obligations.LineModeCommandsAct : Prop :=
  Sets .lmPortEnable cmdLmPortEnable (fun o r d => portEnable (rf r 0 21 16) (rf r 0 1 0) o d)
  ∧ Sets .lmPortDisable cmdLmPortDisable (fun _ r d => portDisable (rf r 0 21 16) d)
  ∧ Sets .lmSheafCreate cmdLmSheafCreate (fun _ r d => refit { d with lm := { d.lm with
      sheaves := tset d.lm.sheaves (rf r 0 9 0) ⟨rf r 1 11 0, reqMembers r, []⟩ } })
  ∧ Sets .lmSheafDelete cmdLmSheafDelete (fun _ r d => sheafDelete (rf r 0 9 0) d)
  ∧ (∀ (r : NcsReq) (x : List Word) (s : State), Passes cmdLmClientMap r s → mapRecord s.dev r = some x →
    exec (.lmClientMap r) s = .next (served 0x0404 r stOk (fun _ => [x.getD 2 0, x.getD 3 0])
      (fun d => partialSecond (rf r 0 29 24) (putRecord (rf r 0 29 24) x d)) s))
  ∧ Sets .lmClientUnmap cmdLmClientUnmap (fun _ r d => clientUnmap (rf r 0 29 24) d)
  ∧ Answers .lmLaneStatus cmdLmLaneStatus (fun _ r d => lmLaneWords d (rf r 0 5 0))
  ∧ Sets .lmTraceSet cmdLmTraceSet (fun _ r d =>
      setLm (rf r 0 5 0) { lmLane d (rf r 0 5 0) with ttiNext := some (payloadBytes r 1 64) } d)
  ∧ Answers .lmTraceGet cmdLmTraceGet (fun _ r d =>
      let t := if bit (rw r 0) 31 then (lmLane d (rf r 0 5 0)).ttiAcc else (lmLane d (rf r 0 5 0)).tti
      beWords (t ++ zeros (64 - t.length)))
  ∧ Sets .lmDescWrite cmdLmDescWrite (fun _ r d => descWrite (rf r 0 5 0) [rw r 1, rw r 2, rw r 3, rw r 4] d)
  ∧ Answers .lmDescRead cmdLmDescRead (fun _ r d => tgetD
      (if rf r 0 31 30 = 0 then d.lm.shadow else if rf r 0 31 30 = 1 then d.lm.txCopy else d.lm.rxCopy) (rf r 0 5 0) [0, 0, 0, 0])
  ∧ Sets .lmDescCommit cmdLmDescCommit (fun _ r d => { d with lm := { d.lm with
      commits := tset d.lm.commits (rf r 0 9 0) 
         ⟨some (rf r 1 7 0 * 2 ^ 32 + (rw r 2).toNat), some (rf r 3 7 0 * 2 ^ 32 + (rw r 4).toNat), false⟩ } })
  ∧ Sets .lmHuntWrite cmdLmHuntWrite (fun _ r d => { d with lm := { d.lm with hunt := tset d.lm.hunt (rf r 0 1 0) (rw r 1) } })
  ∧ Answers .lmHuntRead cmdLmHuntRead (fun _ r d => [huntWord d (rf r 0 1 0)])
  ∧ Sets .lmTestMode cmdLmTestMode (fun _ r d =>
      setLm (rf r 0 5 0) { lmLane d (rf r 0 5 0) with testNext := some (bit (rw r 0) 31) } d)
  ∧ Answers .lmDefectGet cmdLmDefectGet (fun _ r d => defectWords d (rw r 0))
  ∧ Answers .lmPmGet cmdLmPmGet (fun _ r d => pmWords d (rw r 0))
  ∧ Sets .lmDefectParamWrite cmdLmDefectParamWrite (fun _ r d => { d with lm := { d.lm with prm0 := rw r 0, prm1 := rw r 1 } })
  ∧ Answers .lmDefectParamRead cmdLmDefectParamRead (fun _ _ d => [d.lm.prm0, d.lm.prm1])
  ∧ Sets .lmMaintSet cmdLmMaintSet (fun _ r d =>
      setLm (rf r 0 5 0) { lmLane d (rf r 0 5 0) with forceAis := bit (rw r 0) 31, forceBdi := bit (rw r 0) 30 } d)

/-- Every frame period of a lane type advances its shared frame counter by one, and its wrap the epoch (R161, R197),
whether or not a lane carries it. Frames, Sheaves and superframes (R188 to R195, R202, R203): a frame at the lane's
position, a frame that hunts, a barred position's end, a released counter value, the boundaries at which descriptors
come into force. -/
def Obligations.LineModeFramesAct : Prop :=
  (∀ (typ dt : Nat) (ins : List ClientIn) (m : LaneSkips) (s : State), typ < 4 → txRuns (passTime dt s.dev) = true →
     ∃ t, exec (.esurdelFrameTransmit typ ins m dt) s = .next t ∧ t.otp = s.otp ∧ t.ram = s.ram
       ∧ let now := tgetD s.dev.lm.txFc typ (0, 0)
         tgetD t.dev.lm.txFc typ (0, 0) =
           ((now.1 + 1) % 2 ^ 48, if now.1 = 2 ^ 48 - 1 then (now.2 + 1) % 65536 else now.2))
  ∧ ((∀ (lane pos dt : Nat) (f : Bytes) (skip : Bool) (s : State), let d := passTime dt s.dev
       txRuns d = true → isLmLane d lane = true → lane < lanes s.otp → f.length = 8192 → pos < 8192 →
       ((lmLane d lane).sync = true → pos = (lmLane d lane).pos →
         exec (.esurdelFrameReceive lane pos f skip dt) s = .next (s.put (defectsAndPaths (syncFrame lane f skip s.otp) d)))
       ∧ ((lmLane d lane).sync = true → pos ≠ (lmLane d lane).pos →
         exec (.esurdelFrameReceive lane pos f skip dt) s = .next (s.put d))
       ∧ ((lmLane d lane).sync = false →
         exec (.esurdelFrameReceive lane pos f skip dt) s = .next (s.put (defectsAndPaths (huntFrame lane pos f) d))))
     ∧ (∀ (lane pos dt since : Nat) (s : State), let d := passTime dt s.dev
       (pos, since) ∈ (lmLane d lane).barred →
       since * 25 + hBar (huntOf d lane) * (14336 * 2 ^ laneType d lane) ≤ rawNow d * 25 →
       exec (.barExpiry lane ⟨pos, dt⟩) s = .next (s.put (setLm lane { lmLane d lane with
         barred := (lmLane d lane).barred.filter (fun b => b.1 != pos) } d)))
     ∧ (∀ (i fc dt : Nat) (x : Sheaf) (s : State), let d := passTime dt s.dev
       let got := x.waiting.filter (fun f => f.fc == fc)
       let rest := x.waiting.filter (fun f => decide (0 < fcDiff f.fc fc))
       let e := skewRead x rest { d with lm := { d.lm with sheaves := tset d.lm.sheaves i { x with waiting := rest } } }
       tget d.lm.sheaves i = some x →
       ((∃ f ∈ got, ∀ g ∈ got, f.arrival ≤ g.arrival ∧ rawNow d < f.arrival + x.d * 1750) →
         exec (.sheafRelease i fc dt) s = .next (s.put d))
       ∧ (skewDue d x got = true → trafficOn e = true → pathOfSheaf e i = none →
         exec (.sheafRelease i fc dt) s = .next (s.put (pathsRefresh
           (withDefects (fun d => (demapAll i fc (memberFrames x got) false d).2) e))))
       ∧ (skewDue d x got = true → trafficOn e = false → egressBlocked e = true →
         exec (.sheafRelease i fc dt) s = .next (s.put
           (((rxClients e).filter (fun c => descSheaf c.2 == i)).foldl (fun d c => out (replacement c.1 c.2) d) e))))
     ∧ (∀ (typ n : Nat) (s : State), txRuns s.dev = true → typ < 4 → (tgetD s.dev.lm.txFc typ (0, 0)).1 = 256 * n →
       exec (.txSuperframeBoundary typ) s = .next (s.put
         (let ls := (lmLanes s.dev).filter (fun m => laneType s.dev m == typ && decide (m < lanes s.otp))
          let ss := (s.dev.lm.sheaves.filter (fun s => s.2.members.any (fun m => ls.contains m))).map (·.1)
          ss.foldl (txSheafBoundary n) (ls.foldl laneBoundary { s.dev with pth := { s.dev.pth with
            pairs := s.dev.pth.pairs.map (fun p =>
              (p.1, { p.2 with bSends := p.2.bSends || (p.2.line && ss.contains p.2.b.carrier) })) } }))))
     ∧ (∀ (i n : Nat) (c : DescCommit) (s : State), txRuns s.dev = true → (tget s.dev.lm.sheaves i).isSome = true →
         tget s.dev.lm.commits i = some c → c.rx = some n →
       exec (.rxSuperframeBoundary i n) s = .next (s.put
         (let d := { s.dev with lm := { s.dev.lm with rxCopy := takeRows i s.dev.lm.rxCopy s.dev.lm.shadow } }
          commitSwapped i { c with rx := none } (emit 0 0x0484 (wd (2 ^ 16 + i)) (wd (n % 2 ^ 32))
            (rxInForce s.dev { d with lm := { d.lm with rxNow := takeRows i d.lm.rxNow d.lm.rxCopy } }))))))

/-- Lane defects are declared and cleared once their condition has held for its time or its frame periods (R216), and
a seconds boundary latches the second that ends (R227, R448). What a latch leaves (R227, R228): the counts of the
second that ends as its newest held second, at most 8 of them, and counters at 0 that have missed nothing. -/
def Obligations.DefectsAndSecondsAct : Prop :=
  ((∀ (m dt : Nat) (s : State), let d := passTime dt s.dev
     let l := laneOf d m
     let x := lmLane d m
     let periods := fun n => n * (14336 * 2 ^ laneType d m)
     let set := fun (code : Nat) (on : Bool) => Host.Outcome.next (φ := Fault) (ρ := Refusal)
       (s.put (defectsAndPaths (setDefect m code on) d))
     isLmLane d m = true →
     (l.signal = false → l.signalAt + 3500 ≤ rawNow d → exec (.losDeclare ⟨m, dt⟩) s = set 1 true)
     ∧ (l.signal = true → l.signalAt + 175000 ≤ rawNow d → exec (.losClear ⟨m, dt⟩) s = set 1 false)
     ∧ (l.lock = true → l.lockAt + 175000 ≤ rawNow d → exec (.lolClear ⟨m, dt⟩) s = set 2 false)
     ∧ (x.sync = false → x.syncAt * 25 + periods (fld d.lm.prm0 23 16) ≤ rawNow d * 25 →
         exec (.lofDeclare ⟨m, dt⟩) s = set 3 true)
     ∧ (x.sync = true → x.syncAt * 25 + periods (fld d.lm.prm0 31 24) ≤ rawNow d * 25 →
         exec (.lofClear ⟨m, dt⟩) s = set 3 false)
     ∧ (x.sync = true → x.epoch = none → x.syncAt * 25 + periods 256 ≤ rawNow d * 25 →
         exec (.losfDeclare ⟨m, dt⟩) s = set 4 true)
     ∧ (fitOf d m = some false → x.fit = some false → x.fitAt * 25 + periods 8 ≤ rawNow d * 25 →
         exec (.loaDeclare ⟨m, dt⟩) s = set 5 true)
     ∧ (fitOf d m = some true → x.fit = some true → x.fitAt * 25 + periods 64 ≤ rawNow d * 25 →
         exec (.loaClear ⟨m, dt⟩) s = set 5 false)
     ∧ (l.signal = true ∨ rawNow d < l.signalAt + 3500 → exec (.losDeclare ⟨m, dt⟩) s = .next (s.put d)))
   ∧ (∀ (dt : Nat) (s : State), let d := passTime dt s.dev
     tuRuns d = true → d.tu.lastSec < secOf (timeNow d) →
     exec (.secondsBoundary dt) s = .next (s.put (let e := revertsRoll (latchAll d.tu.lastSec false d)
       ppsOut (secOf (timeNow d)) { e with tu := { e.tu with
         lastSec := secOf (timeNow d), pps := e.tu.ppsNext.getD e.tu.pps, ppsNext := none } }))))
  ∧ (∀ (tag now : Nat) (part : Bool) (p : Pm), let q := latchPm tag now part p
       q.hist.head? = some ⟨tag, p.partl || part, p.ovf, p.acc, p.map⟩ ∧ q.hist.length ≤ 8 ∧ q.acc = [] ∧ q.ovf = 0
         ∧ q.partl = false ∧ q.map = now ∧ (∀ i, i < 7 → q.hist[i + 1]? = p.hist[i]?))

/-- Ethernet blocks come out of a container as they went in, with every block at its place (R182 to R184). CBR data
comes out of its slots under every justification code, and the code survives one damaged copy (R176 to R178). -/
def Obligations.PayloadComesBack : Prop :=
  (∀ (n : Nat) (bs : List (BitVec 257)), bs.length = ethBlocks n → unpackBlocks n (packBlocks n bs) = bs)
  ∧ ((∀ (code : Nat) (data : Bytes), code < 3 → data.length = slotData code →
       slotPayload code (slotBytes code data) = data ∧ (slotBytes code data).length = 1018
         ∧ jcVote (beAt (slotBytes code data) 0 1) = (code, false, false))
     ∧ (∀ code bad : Nat, code < 3 → bad < 4 →
       (jcVote (code * 84 - code * 64 + bad * 64)).1 = code ∧ (jcVote (code * 84 - code * 16 + bad * 16)).1 = code
         ∧ (jcVote (code * 84 - code * 4 + bad * 4)).1 = code))

/-- Slice, DRBG and bulk commands (R262 to R268): states read, jobs accepted with the key that stands when they come,
a cancelled job, tests and shadowing. What happens in the slices (R245 to R261, R264, R267): shadow samples compared
and arbitrated, take-over, seeds and shares renewed, entropy tests, a bulk job and a slice test at their ends. -/
def Obligations.SlicesAndBulkAct : Prop :=
  (Answers .sliceStatus cmdSliceStatus (fun _ r d => sliceWords d (rf r 0 7 0))
   ∧ Answers .sliceMap cmdSliceMap (fun _ _ d => (List.range 18).map (fun j =>
       wd ((List.range 8).map (fun i => (sliceOf d (8 * j + i)).state * 2 ^ (4 * i))).sum))
   ∧ Answers .rngStatus cmdRngStatus (fun _ _ d =>
       [wd (flag d.sl.lineDrbg.up 9 + flag d.sl.keyDrbg.up 8 + d.sl.source1.state * 4 + d.sl.source0.state),
         wd (d.sl.source0.rct * 2 ^ 16 + d.sl.source0.apt), wd (d.sl.source1.rct * 2 ^ 16 + d.sl.source1.apt),
         wd d.sl.sinceReseed, wd d.sl.keyDrbg.requests])
   ∧ Starts .bulkSubmit cmdBulkSubmit (fun o r d =>
       let key := match bulkKey d (rf r 0 12 0) with | some x => (x.share1, x.share2) | none => ([], [])
       let iv := payloadBytes r 1 16
       let src := r.buf.take (bulkSrcLen r)
       let aad := src.take (rw r 11).toNat
       let chain := if rf r 0 31 28 = 4 then ghashBlocks (hashKey (xorBytes key.1 key.2)) (blocksOf (blockCount aad.length) aad)
         else toBlock iv
       bulkAssign o { d with sl := { d.sl with bulk := d.sl.bulk ++ [⟨r.page, r.tag, rf r 0 31 28, bit (rw r 0) 27, rf r 0 12 0,
         key.1, key.2, iv, (rw r 11).toNat, src, bufAddr r 8, bulkDstLen r, none, 0, chain⟩] } })
   ∧ (∀ (r : NcsReq) (j : BulkJob) (s : State), Passes cmdBulkCancel r s →
       s.dev.sl.bulk.find? (fun j => j.page == r.page && j.tag == rf r 0 7 0) = some j →
     exec (.bulkCancel r) s = .next (s.put (bulkStop s.otp stCancelled j (respond r.page r.tag stOk [] (submitted 0x0669 r s.dev)))))
   ∧ (∀ (r : NcsReq) (s : State), Passes cmdSliceTest r s → (sliceOf s.dev (rf r 0 7 0)).state = 7 →
     exec (.sliceTest r) s = .next (taken r 0x0670 (fun d =>
       let e := setState (rf r 0 7 0) 6 d
       { e with sl := { e.sl with testing := e.sl.testing ++ [(r.page, r.tag, rf r 0 7 0, true)] } }) s))
   ∧ Sets .sliceShadowSet cmdSliceShadowSet (fun o r d => bulkAssign o { d with sl := { d.sl with shadowOn := bit (rw r 0) 31 } }))
  ∧ ((∀ (n : Nat) (tag : Bytes) (x : Sample) (s : State), s.dev.sys.mode ≠ .locked →
         s.dev.sl.samples.find? (fun x => x.slice == n && x.first.isSome == false) = some x →
       let rest := dropSample n (·.first.isNone) s.dev
       let count := countSlice n (fun y => { y with samples := y.samples + 1 }) (sidingWork x.siding x rest)
       (sampleLives s.dev x = false →
         exec (.shadowRecomputeDone n tag) s = .next (s.put (skipSample n (sidingRefresh x.siding rest))))
       ∧ (sampleLives s.dev x = true → tag = x.tag →
         exec (.shadowRecomputeDone n tag) s = .next (s.put (sidingRefresh x.siding count)))
       ∧ (sampleLives s.dev x = true → tag ≠ x.tag →
         let e := countSlice n (fun y => { y with mismatches := y.mismatches + 1 }) count
         let z := { x with first := some tag, second := secondSiding s.otp e n x.siding }
         let f := { e with sl := { e.sl with samples := e.sl.samples ++ [z] } }
         exec (.shadowRecomputeDone n tag) s = .next (s.put (match z.second with | some m => sidingRefresh m f | none => f))))
     ∧ (∀ (n m : Nat) (tag first : Bytes) (runs : List (Bool × Bool)) (x : Sample) (s : State), s.dev.sys.mode ≠ .locked →
         s.dev.sl.samples.find? (fun x => x.slice == n && x.first.isSome == true) = some x → x.first = some first →
         x.second = some m →
       let e := fun code => emit 0 0x06E1 (wd (code * 2 ^ 24 + m * 2 ^ 16 + x.siding * 2 ^ 8 + n)) (wd x.sa)
         (sidingRefresh x.siding (sidingRefresh m (sidingWork m x (dropSample n (·.first.isSome) s.dev))))
       (tag = first → exec (.shadowArbitrationDone n tag runs) s = .next (s.put (sliceOut 2 n s.otp (e 1))))
       ∧ (tag ≠ first → tag = x.tag →
         exec (.shadowArbitrationDone n tag runs) s = .next (s.put (sliceOut 5 x.siding s.otp (e 2))))
       ∧ (tag ≠ first → tag ≠ x.tag → exec (.shadowArbitrationDone n tag runs) s
           = .next (s.put (sliceOut 5 x.siding s.otp (sliceOut 2 n s.otp (e 3))))))
     ∧ (∀ (n : Nat) (tag : Bytes) (runs : List (Bool × Bool)) (x : Sample) (s : State), s.dev.sys.mode ≠ .locked →
         s.dev.sl.samples.find? (fun x => x.slice == n && x.first.isSome == true) = some x → x.second = none →
       let e := fun code => emit 0 0x06E1 (wd (code * 2 ^ 24 + 0xFF * 2 ^ 16 + x.siding * 2 ^ 8 + n)) (wd x.sa)
         (sidingRefresh x.siding (waste x.siding 2048 (dropSample n (·.first.isSome) s.dev)))
       (katFail s.otp runs = 0 → exec (.shadowArbitrationDone n tag runs) s = .next (s.put (sliceOut 2 n s.otp (e 1))))
       ∧ (katFail s.otp runs ≠ 0 →
         exec (.shadowArbitrationDone n tag runs) s = .next (s.put (sliceOut 1 x.siding s.otp (e 2)))))
     ∧ (∀ (n : Nat) (s : State), (sliceOf s.dev n).state = 5 →
       let x := sliceOf s.dev n
       let y := x.loadAll s.dev.kc.sas (x.ctxs.map (·.sa))
       let d := waste n (33 * y.ctxs.length) s.dev
       let moved := { d with dsp := { d.dsp with
         movesDone := d.dsp.movesDone + 1, doneTick := d.dsp.doneTick + 1, causeTick := d.dsp.causeTick ||| 2 } }
       exec (.sidingTakeoverDone n) s = .next (s.put
         (sliceRun s.otp n (setSlice n y (if x.ctxs.any (!·.ready) then moved else d)))))
     ∧ (∀ (n : Nat) (s : State), n < slices s.otp → (sliceOf s.dev n).state ≠ 0 → s.dev.sl.keyDrbg.up = true →
       let r := keyBytes 32 s.dev
       exec (.maskExpanderReseed n) s = .next (s.put (sliceRun s.otp n (setSlice n { sliceOf r.2 n with
         seeded := true, expander := Config.maskSeed (sliceOf r.2 n).expander r.1 } r.2))))
     ∧ (∀ s : State, let d := s.dev
       (d.sl.keyDrbg.up = true → d.sl.source0.state = 0 ∨ d.sl.source1.state = 0 →
         let e := emptyPools (reseedDrbg true (reseedDrbg false d))
         exec .drbgReseed s = .next (s.put { e with sl := { e.sl with sinceReseed := 0 } })
           ∧ e.sl.keyDrbg.requests = 0 ∧ e.sl.lineDrbg.requests = 0)
       ∧ (d.sl.source0.state ≠ 0 → d.sl.source1.state ≠ 0 → exec .drbgReseed s = .next (s.put d)))
     ∧ (∀ (i : Nat) (bs : List Bool) (s : State), i ≤ 1 → (sourceOf s.dev i).state = 0 → s.dev.sl.keyDrbg.up = true →
       let x := sourceOf s.dev i
       let h := x.health.samples bs
       (h.2 = 0 → exec (.entropyTestFail i bs) s = .next (s.put (setSource i { x with health := h.1, pool := x.pool ++ bs } s.dev)))
       ∧ (h.2 = 1 → exec (.entropyTestFail i bs) s = .next (s.put (rngEvent false 1 i (setSource i { x with
           rct := min (x.rct + 1) 0xFFFF, state := 1, fails := 0, health := Health.init, pool := [] } s.dev))))
       ∧ (h.2 = 2 → exec (.entropyTestFail i bs) s = .next (s.put (rngEvent false 2 i (setSource i { x with
           apt := min (x.apt + 1) 0xFFFF, state := 1, fails := 0, health := Health.init, pool := [] } s.dev)))))
     ∧ (∀ (i : Nat) (bs : List Bool) (s : State), i ≤ 1 → (sourceOf s.dev i).state = 1 →
       let x := sourceOf s.dev i
       let pass := 1024 ≤ bs.length ∧ (Health.init.samples (bs.take 1024)).2 = 0
       (pass → exec (.sourceStartupTestDone i bs) s = .next (s.put (setSource i { x with state := 0, fails := 0 } s.dev)))
       ∧ (¬ pass → x.fails < 2 →
         exec (.sourceStartupTestDone i bs) s = .next (s.put (setSource i { x with fails := x.fails + 1 } s.dev)))
       ∧ (¬ pass → 2 ≤ x.fails → exec (.sourceStartupTestDone i bs) s = .next (s.put (rngEvent true 3 i
           (setSource i { x with state := 2, fails := 3 } s.dev)))))
     ∧ (∀ (p tag : Nat) (j : BulkJob) (s : State), s.dev.sl.bulk.find? (fun j => j.page == p && j.tag == tag && j.siding.isSome) = some j →
       exec (.bulkJobDone p tag false) s = .next (s.put (bulkStop s.otp stBusError j s.dev))
       ∧ (let blocks := blockCount j.source.length - j.pos
          let cycles := if j.encrypt && (j.mode == 2 || j.mode == 3) then 58 * blocks else blocks + 1
          let d := out (.hostWrite (j.dst + 16 * j.pos) (bulkResult j).2) (deliver (j.siding.getD 0) cycles s.dev)
          ((bulkResult j).1 = true → exec (.bulkJobDone p tag true) s = .next (s.put (bulkEnd s.otp j stOk j.dstLen d)))
          ∧ ((bulkResult j).1 = false → exec (.bulkJobDone p tag true) s = .next (s.put
              (bulkEnd s.otp j stAuthFail j.dstLen (out (.hostWrite j.dst (zeros j.dstLen)) d))))))
     ∧ (∀ (p tag n : Nat) (runs : List (Bool × Bool)) (wasOut : Bool) (s : State),
         s.dev.sl.testing.find? (fun x => x.2.2.1 == n) = some (p, tag, n, wasOut) →
       let fail := katFail s.otp runs
       let d := { s.dev with sl := { s.dev.sl with testing := s.dev.sl.testing.filter (fun x => x.2.2.1 != n) } }
       exec (.sliceTestDone n runs) s = .next (s.put (finish p tag 0x0670 stOk (wd (fail * 2 ^ 8 + (if fail = 0 then 1 else 0)))
         (if wasOut then setState n 7 (waste n 2048 d) else testEnded n (fail = 0) s.otp d)))))

/-- Re-randomising the shares of a slice's contexts leaves every key (R241, R244): the two shares of each context,
XORed, give what they gave before. Remasking the key RAM leaves every key (R498): where the two shares of a slot have
one length, they combine to the same key before and after, and nothing but the shares, the count, the polarity and the
free values moves. -/
def Obligations.RenewedSharesKeepKeys : Prop :=
  (∀ (n : Nat) (s : State),
       (∀ c ∈ (sliceOf s.dev n).ctxs, c.key1.length = c.key2.length ∧ c.auth1.length = c.auth2.length
         ∧ c.hash1.length = c.hash2.length) →
     let secrets := fun (c : Ctx) =>
       (c.sa, xorBytes c.key1 c.key2, xorBytes c.auth1 c.auth2, List.zipWith (· ^^^ ·) c.hash1 c.hash2)
     ∃ t, exec (.contextRerandomise n) s = .next t
       ∧ ((sliceOf t.dev n).ctxs.map secrets = (sliceOf s.dev n).ctxs.map secrets)
       ∧ (∀ m, m ≠ n → sliceOf t.dev m = sliceOf s.dev m) ∧ t.dev.kc = s.dev.kc)
  ∧ (∀ s : State, (∀ p ∈ s.dev.ks.flash ++ s.dev.ks.ram, p.2.share1.length = p.2.share2.length) →
       ∃ t, exec .keyShareRemask s = .next t
         ∧ t.dev.ks.ram.map (fun p => (p.1, p.2.key, p.2.typ, p.2.owner, p.2.attrs))
             = s.dev.ks.ram.map (fun p => (p.1, p.2.key, p.2.typ, p.2.owner, p.2.attrs))
         ∧ t.dev.ks.flash.map (fun p => (p.1, p.2.key, p.2.typ, p.2.owner, p.2.attrs))
             = s.dev.ks.flash.map (fun p => (p.1, p.2.key, p.2.typ, p.2.owner, p.2.attrs))
         ∧ t.dev.kc = s.dev.kc ∧ t.otp = s.otp ∧ t.ram = s.ram ∧ t.pending = s.pending)

/-- The dispatcher's commands (R330 to R339): groups, placement, counters, every kind of hint set or cleared, tables,
parameters, the swap at a tick boundary (R329). Moves, stripe widths, droop relief and idle power (R313, R316, R317,
R324, R587): a move's start, switch-over and end; a stripe width doubled or halved; relief where no group or one group
can leave the sector, and its end; a slice that has idled for 100 ticks. -/
def Obligations.DispatcherAndPlacementAct : Prop :=
  (Answers .dspGroupGet cmdDspGroupGet (fun _ r d => groupWords d (rf r 0 7 0))
   ∧ Answers .dspPlaceGet cmdDspPlaceGet (fun _ r d => placeWords d (ow (rw r 0)))
   ∧ Answers .dspStatsGet cmdDspStatsGet (fun _ _ d => dspStats d)
   ∧ (∀ (r : NcsReq) (s : State), Passes cmdDspHintSet r s → rf r 0 31 28 = 1 → bit (rw r 0) 27 = false →
       exec (.dspHintSet r) s = .next (served 0x0603 r stOk (fun _ => [])
         (fun d => { d with dsp := { d.dsp with pins := d.dsp.pins.filter (· != ow (rw r 1)) } }) s))
   ∧ (∀ (r : NcsReq) (s : State), Passes cmdDspHintSet r s → rf r 0 31 28 = 1 → bit (rw r 0) 27 = true →
       let k := ow (rw r 1)
       let pin := fun (d : Dev) => { d with dsp := { d.dsp with pins := addNat k d.dsp.pins } }
       let g := (objGroup s.dev k).getD 0
       (16384 < (hintedSas (pin s.dev)).length →
         exec (.dspHintSet r) s = .next (served 0x0603 r 0x8600 (fun _ => []) id s))
       ∧ ((hintedSas (pin s.dev)).length ≤ 16384 → groupW s.dev g ≤ (spreadOf (pin s.dev) k).s ∨ 2 ≤ objKind k →
         exec (.dspHintSet r) s = .next (served 0x0603 r stOk (fun _ => []) (fun d => pinFetch (pin d)) s))
       ∧ ((hintedSas (pin s.dev)).length ≤ 16384 → (spreadOf (pin s.dev) k).s < groupW s.dev g → objKind k < 2 →
         exec (.dspHintSet r) s = .next (served 0x0603 r stOk (fun _ => []) (fun d =>
           pinFetch (queueMove g (some (k, groupW d g, bestSet (pin d) k g (groupW d g))) 0 0 0 3 (pin d))) s)))
   ∧ (∀ (r : NcsReq) (s : State), Passes cmdDspHintSet r s → rf r 0 31 28 = 2 →
       exec (.dspHintSet r) s = .next (served 0x0603 r stOk (fun _ => []) (fun d =>
         (replan (rf r 1 7 0) 3 s.otp { d with dsp := { d.dsp with
           prefer := if bit (rw r 0) 27 then tset d.dsp.prefer (rf r 1 7 0) (rf r 0 3 0) else tdel d.dsp.prefer (rf r 1 7 0) } }).2) s))
   ∧ (∀ (r : NcsReq) (s : State), Passes cmdDspHintSet r s → rf r 0 31 28 = 3 →
       let n := rf r 1 7 0
       (bit (rw r 0) 27 = false → exec (.dspHintSet r) s = .next (served 0x0603 r stOk (fun _ => [])
         (fun d => { d with dsp := { d.dsp with avoid := d.dsp.avoid.filter (· != n) } }) s))
       ∧ (bit (rw r 0) 27 = true → s.dev.dsp.avoid.length < 32 ∨ s.dev.dsp.avoid.contains n = true →
         exec (.dspHintSet r) s = .next (served 0x0603 r stOk (fun _ => [])
           (fun d => vacate n s.otp { d with dsp := { d.dsp with avoid := addNat n d.dsp.avoid } }) s))
       ∧ (bit (rw r 0) 27 = true → 32 ≤ s.dev.dsp.avoid.length → s.dev.dsp.avoid.contains n = false →
         exec (.dspHintSet r) s = .next (served 0x0603 r 0x8600 (fun _ => []) id s)))
   ∧ (∀ (r : NcsReq) (s : State), Passes cmdDspHintSet r s → rf r 0 31 28 = 4 →
       let g := rf r 1 7 0
       let hint := fun (d : Dev) => { d with dsp := { d.dsp with
         classes := if bit (rw r 0) 27 then tset d.dsp.classes g (rf r 0 3 0) else tdel d.dsp.classes g } }
       (bit (rw r 0) 27 = true → rf r 0 3 0 = 1 → 16384 < (hintedSas (hint s.dev)).length →
         exec (.dspHintSet r) s = .next (served 0x0603 r 0x8600 (fun _ => []) id s))
       ∧ (bit (rw r 0) 27 = false ∨ rf r 0 3 0 ≠ 1 ∨ (hintedSas (hint s.dev)).length ≤ 16384 →
         exec (.dspHintSet r) s = .next (served 0x0603 r stOk (fun _ => [])
           (fun d => pinFetch (replan g 3 s.otp (hint d)).2) s)))
   ∧ Answers .dspHintGet cmdDspHintGet (fun _ r d => [hintWord d r])
   ∧ Sets .dspTableWrite cmdDspTableWrite (fun _ r d => { d with dsp := { d.dsp with
       shadow := (recordsOf r).foldl (fun t x => tset t (fld (x.getD 0 0) 7 0) x) d.dsp.shadow } })
   ∧ Answers .dspTableRead cmdDspTableRead (fun _ r d =>
       (tgetD (if bit (rw r 0) 31 then d.dsp.shadow else d.dsp.active) (rf r 0 7 0) [0, 0, 0]).take 3)
   ∧ Starts .dspTableCommit cmdDspTableCommit (fun _ r d => { d with dsp := { d.dsp with
       commit := some (r.page, r.tag, false, 0), commitAt := d.sys.ticks } })
   ∧ Sets .dspParamWrite cmdDspParamWrite (fun _ r d => { d with dsp := { d.dsp with prmNext := some (rw r 0, rw r 1) } })
   ∧ Answers .dspParamRead cmdDspParamRead (fun _ _ d => match d.dsp.prmNext with
       | some p => [p.1, p.2]
       | none => [d.dsp.prm0, d.dsp.prm1])
   ∧ (∀ (p tag x : Nat) (s : State), s.dev.dsp.commit = some (p, tag, false, x) →
       (s.dev.sys.ticks ≤ s.dev.dsp.commitAt → exec .dspTableSwap s = .next s)
       ∧ (s.dev.dsp.commitAt < s.dev.sys.ticks →
         (∀ g ∈ s.dev.dsp.groups, tget s.dev.dsp.active g.1 = tget s.dev.dsp.shadow g.1) →
         exec .dspTableSwap s = .next (s.put (commitCheck { s.dev with dsp := { s.dev.dsp with
           active := s.dev.dsp.shadow, commit := some (p, tag, true, 0) } })))))
  ∧ ((∀ (id : Nat) (m : Move) (s : State), moveOf s.dev id = some m →
       let k := moveSector m
       let n := tgetD s.dev.dsp.started k 0
       (m.phase = 0 → moveBlocked s.dev id m = false → moveLocked s.dev m = false → n < fld s.dev.dsp.prm0 7 0 →
           (∀ t ∈ moveTargets s.dev m, slicePowered s.dev t = true) →
         let e := setMove id { m with phase := 1 } { s.dev with dsp := { s.dev.dsp with started := tset s.dev.dsp.started k (n + 1) } }
         exec (.moveStart id) s = .next (s.put ((moveTargets s.dev m).foldl (fun d t =>
           ((moveSas d m).filter (loadable d)).foldl (fun d sa => startLoad t sa d) d) e)))
       ∧ (m.phase ≠ 0 ∨ moveBlocked s.dev id m = true ∨ moveLocked s.dev m = true ∨ fld s.dev.dsp.prm0 7 0 ≤ n →
         exec (.moveStart id) s = .next s))
     ∧ (∀ (id : Nat) (m : Move) (s : State), moveOf s.dev id = some m → m.phase = 1 →
         (∀ t ∈ moveTargets s.dev m, ∀ c ∈ (sliceOf s.dev t).ctxs, c.ready = true ∨ c.sa ∉ moveSas s.dev m) →
       let mark := setMove id { m with phase := 2, marker := s.dev.fm.nextFlight }
       (∀ k w b, m.obj = some (k, w, b) → exec (.moveSwitchover id) s = .next (s.put (mark
         { s.dev with dsp := { s.dev.dsp with
           spreads := tset s.dev.dsp.spreads k { spreadOf s.dev k with s := w, b := b, above := 0, under := 0 } } })))
       ∧ (m.obj = none → exec (.moveSwitchover id) s = .next (s.put (mark (setPosition m.group m.pos m.dst s.dev)))))
     ∧ (∀ (id : Nat) (m : Move) (s : State), moveOf s.dev id = some m → m.phase = 2 → draining s.dev m = false →
       exec (.moveDrainComplete id) s = .next (s.put (commitCheck (bulkAssign s.otp (reliefSiding m.src (moveDone id m s.dev))))))
     ∧ (∀ (k g : Nat) (s : State), objGroup s.dev k = some g → g < 128 → (tget s.dev.dsp.groups g).isSome = true →
         (tget s.dev.dsp.spreads k).isSome = true → s.dev.dsp.pins.contains k = false →
         s.dev.dsp.moves.any (fun p => p.2.obj.map (·.1) == some k) = false →
       let sp := spreadOf s.dev k
       let goes := fun w => Host.Outcome.next (φ := Fault) (ρ := Refusal)
         (s.put (queueMove g (some (k, w, bestSet s.dev k g w)) 0 0 0 0 s.dev))
       (2 ≤ sp.above → sp.s * 2 ≤ groupW s.dev g → exec (.stripeWidthChange k) s = goes (sp.s * 2))
       ∧ (sp.above < 2 → fld s.dev.dsp.prm0 15 8 ≤ sp.under → 2 ≤ sp.s → exec (.stripeWidthChange k) s = goes (sp.s / 2)))
     ∧ (∀ (n : Nat) (s : State), n < sectors s.otp → (reliefOf s.dev n).on = false → 2 ≤ (reliefOf s.dev n).above →
       let d := setRelief n { reliefOf s.dev n with on := true, calm := 0, moved := [] } s.dev
       let tell := fun (e : Dev) => emit 0 0x0683 (wd (n * 2 ^ 16 + 1)) (wd (reliefOf e n).moved.length) e
       (reliefGroups d n = [] → exec (.droopReliefStart n) s = .next (s.put (tell d)))
       ∧ (∀ g e, reliefGroups d n = [g] → relieve s.otp n g d = some e →
         exec (.droopReliefStart n) s = .next (s.put (tell e)))
       ∧ (∀ g, reliefGroups d n = [g] → relieve s.otp n g d = none →
         exec (.droopReliefStart n) s = .next (s.put (shortfallEvent 2 s.otp (tell d)))))
     ∧ (∀ (n : Nat) (s : State), (reliefOf s.dev n).on = true → fld s.dev.dsp.prm1 15 0 ≤ (reliefOf s.dev n).calm →
       let back := fun (p : Nat × List Nat) (g : Group) (d : Dev) =>
         let e := { d with dsp := { d.dsp with groups := tset d.dsp.groups p.1 { g with relief := false } } }
         (List.range (comingSlices e p.1 g).length).foldl (fun d i =>
           let now := (comingSlices e p.1 g).getD i 0
           let next := returnTo s.otp d p.1 now (p.2.getD i now)
           if next = now then d else queueMove p.1 none i now next 2 d) e
       let tell := fun (d : Dev) => emit 0 0x0683 (wd (n * 2 ^ 16)) (wd (reliefOf s.dev n).moved.length) (setRelief n Relief.init d)
       ((reliefOf s.dev n).moved = [] → exec (.droopReliefEnd n) s = .next (s.put (tell s.dev)))
       ∧ (∀ p g, (reliefOf s.dev n).moved = [p] → tget (dropWaiting p.1 s.dev).dsp.groups p.1 = some g →
         exec (.droopReliefEnd n) s = .next (s.put (tell (back p g (dropWaiting p.1 s.dev))))))
     ∧ (∀ (n : Nat) (s : State), (sliceOf s.dev n).state = 1 → isSiding n = false → 100 ≤ (sliceOf s.dev n).idle →
         sliceUnused s.dev n = true → unclaimed s.dev n = true →
       exec (.sliceIdlePowerDown n) s = .next (s.put (setSlice n { (sliceOf (setState n 0 s.dev) n).wipe with
         seeded := false, dir := 0 } (setState n 0 s.dev)))))

/-- SAs (R297 to R301): an installed SA is put on its index under the next generation of that index, a key that stands
already for transmission is refused (R274), an SA is destroyed, made to encode, read, its index freed. Schedules,
chains and parameters (R276 to R289, R302 to R306). -/
def Obligations.SecurityAssociationCommands : Prop :=
  ((∀ (r : NcsReq) (i : Nat) (s : State), Passes cmdSaInstall r s → freeSa s.otp s.dev = some i →
       (keyReused s.dev (installRec s.dev r) = true →
         exec (.saInstall r) s = .next (served 0x0500 r 0x8500 (fun _ => []) id s))
       ∧ (keyReused s.dev (installRec s.dev r) = false →
         let x := installRec s.dev r
         let new := fun d : Dev =>
           let n := (tgetD d.kc.installs i 0 + 1) % 2 ^ 32
           let e := putSa i { x with gen := n } { d with kc := { d.kc with installs := tset d.kc.installs i n } }
           if bit (rw r 0) 25 then { e with kc := { e.kc with encNext := e.kc.encNext ++ [(x.obj, x.an)] } } else e
         ((∀ sc y, objKind x.obj = 0 → tget s.dev.fm.scs (objNum x.obj) = some sc → tget s.dev.fm.secys sc.secy = some y →
             x.pn < pnThreshold y x.suite) →
           exec (.saInstall r) s = .next (served 0x0500 r stOk (fun _ => [wd i]) new s))
         ∧ (∀ sc y, objKind x.obj = 0 → tget s.dev.fm.scs (objNum x.obj) = some sc → tget s.dev.fm.secys sc.secy = some y →
             pnThreshold y x.suite ≤ x.pn →
           exec (.saInstall r) s = .next (served 0x0500 r stOk (fun _ => [wd i]) (fun d => match saOf (new d) i with
             | some z => thresholdReached (pnThreshold y z.suite) i z (new d)
             | none => new d) s))))
   ∧ Sets .saDestroy cmdSaDestroy (fun _ r d => destroySa (rf r 0 19 0) d)
   ∧ (∀ (r : NcsReq) (x : SaRec) (s : State), Passes cmdSaSetEncoding r s → namedSa s.dev (rw r 0) = some x →
       (x.state = 1 → exec (.saSetEncoding r) s = .next (served 0x0502 r stOk (fun _ => []) (fun d => { d with kc := { d.kc with
         encNext := d.kc.encNext ++ [(ow (rw r 0), owAn (rw r 0))] } }) s))
       ∧ (x.state ≠ 1 → exec (.saSetEncoding r) s = .next (served 0x0502 r stOk (fun _ => []) id s)))
   ∧ Answers .saStatus cmdSaStatus (fun _ r d => saWords d (rf r 0 19 0))
   ∧ (∀ (i : Nat) (x : SaRec) (s : State), saOf s.dev i = some x → x.state = 4 →
     exec (.saIndexFree i) s = .next (s.put { s.dev with kc := { s.dev.kc with sas := tdel s.dev.kc.sas i } })))
  ∧ ((∀ (r : NcsReq) (s : State), Passes cmdKcSchedule r s →
         (tooSoon s.dev (schedT r) = true → exec (.kcSchedule r) s = .next (served 0x0504 r 0x8501 (fun _ => []) id s))
         ∧ (∀ i, tooSoon s.dev (schedT r) = false → freeSched s.dev = some i →
           exec (.kcSchedule r) s = .next (served 0x0504 r stOk (fun _ => [wd i]) (fun d =>
             makeSched i (newSched d r ((schedWords r).map (fun e => (ow e.2, owAn e.2))) false) d) s)))
     ∧ Sets .kcCancel cmdKcCancel (fun _ r d => dropSched (rf r 0 11 0) d)
     ∧ (∀ (r : NcsReq) (s : State), Passes cmdKcChainCreate r s →
       exec (.kcChainCreate r) s = .next (s.put (chainCreate r (respond r.page r.tag stAccepted []
         (accept r.page r.tag 0x0506 (submitted 0x0506 r s.dev))))))
     ∧ Sets .kcChainDelete cmdKcChainDelete (fun _ r d => let e := (destroyObj (ow (rw r 0)) d).2
         { e with kc := { e.kc with chains := tdel e.kc.chains (ow (rw r 0)) } })
     ∧ (∀ (r : NcsReq) (i : Nat) (s : State), Passes cmdKcRekeyAll r s → tooSoon s.dev (schedT r) = false →
         freeSched s.dev = some i →
       exec (.kcRekeyAll r) s = .next (served 0x0512 r stOk (fun _ => [wd i]) (fun d =>
         let e := makeSched i (newSched d r [] true) d
         { e with kc := { e.kc with rekeyAll := some (i, schedT r) } }) s))
     ∧ Sets .kcParamWrite cmdKcParamWrite (fun _ r d => { d with kc := { d.kc with prm0 := rw r 0, prm1 := rw r 1 } })
     ∧ Answers .kcParamRead cmdKcParamRead (fun _ _ d => [d.kc.prm0, d.kc.prm1]))

/-- The instants of key change (R278 to R288, R303): preload, switch, the end of an old SA's overlap, a partner that
is late, the periods and generations of a chain, KC_REKEY_ALL complete. -/
def Obligations.KeyChangeInstantsAct : Prop :=
  (∀ (i dt : Nat) (x : Sched) (s : State), let d := passTime dt s.dev
    tget d.kc.scheds i = some x →
    (preloadDue d x = true → exec (.kcPreload i dt) s = .next (s.put (preload i x d)))
    ∧ (reachedAt (timeNow d) x.t = true → exec (.kcSwitch i dt) s = .next (s.put
        (let y := (schedObjs d x).foldl (switchOne i x) (0, { d with kc := { d.kc with scheds := tdel d.kc.scheds i } })
         emitOn (schedPages x) 0x0580 (wd i) (wd y.1) y.2))))
  ∧ (∀ (i dt t : Nat) (x : SaRec) (s : State), let d := passTime dt s.dev
    saOf d i = some x → x.state = 3 →
    (isTx x.obj = true → x.retireAt = some t → reachedAt (timeNow d) t = true →
      exec (.saRetireTx i dt) s = .next (s.put (destroySa i d)))
    ∧ (isTx x.obj = false → ∀ y, let e := setRetire x.obj d
      saOf e i = some y → y.state = 3 → isTx y.obj = false → retireInstant y = some t → reachedAt (timeNow e) t = true →
      exec (.saRetireRx i dt) s = .next (s.put (destroySa i e))))
  ∧ (∀ (i dt n t w m : Nat) (x : SaRec) (s : State), let d := passTime dt s.dev
    saOf d i = some x → x.switched = some (n, t, w, m) → n < 0xFFE → isTx x.obj = false → x.state = 2 → x.t1 = none →
    x.t1b = none → x.told = false → reachedAt (timeNow d) (t + w * tickU) = true →
    exec (.kcSchedLate i dt) s = .next (s.put (mismatchEvent false n x (setSa i { x with told := true } d))))
  ∧ (∀ (k dt : Nat) (c : Chain) (s : State), let d := passTime dt s.dev
    tget d.kc.chains k = some c → 0 < c.period → c.lastPeriod < secOf (timeNow d) / c.period * c.period →
    let e := { d with kc := { d.kc with
      chains := tset d.kc.chains k { c with lastPeriod := secOf (timeNow d) / c.period * c.period } } }
    (targetSa e (k, 0) = none → exec (.chainPeriodSwitch k dt) s = .next (s.put e))
    ∧ (∀ i x, targetSa e (k, 0) = some (i, x) → isTx k = true →
      exec (.chainPeriodSwitch k dt) s = .next (s.put (emitOn (pagesOf c.owner) 0x0580 0xFFE (wd 1)
        (switchTx k x.an 0xFFE (instant (secOf (timeNow d) / c.period * c.period) 0) (overlap e) e))))
    ∧ (∀ i x, targetSa e (k, 0) = some (i, x) → isTx k = false →
      exec (.chainPeriodSwitch k dt) s = .next (s.put (emitOn (pagesOf c.owner) 0x0580 0xFFE (wd 0)
        (activateRx i (some (0xFFE, instant (secOf (timeNow d) / c.period * c.period) 0, overlap e, retireMax e)) e)))))
  ∧ (∀ (k : Nat) (c : Chain) (p tag : Nat) (s : State), tget s.dev.kc.chains k = some c → s.dev.sb.up = true →
      c.creating = some (p, tag) →
    ((slotRec s.dev c.kekSlot).isSome = true →
      exec (.chainDeriveDone k) s = .next (s.put (chainFirst k p tag s.otp (deviceJob (chainKek k s.dev)))))
    ∧ (slotRec s.dev c.kekSlot = none → exec (.chainDeriveDone k) s = .next (s.put
        (finish p tag 0x0506 stNoResource 0 { s.dev with kc := { s.dev.kc with chains := tdel s.dev.kc.chains k } }))))
  ∧ (∀ (i t : Nat) (s : State), s.dev.kc.rekeyAll = some (i, t) → tget s.dev.kc.scheds i = none →
      s.dev.kc.chains.all (fun c => c.2.nextReady) = true →
    exec .rekeyAllNextReady s = .next (s.put (emit 0 0x0585 (wd s.dev.kc.chains.length) (wd ((timeNow s.dev - t) / tickU))
      { s.dev with kc := { s.dev.kc with rekeyAll := none } })))

/-- A destroyed SA keeps no key (R285): its record holds none, no slice and not the context cache holds its context,
no other SA has changed. -/
def Obligations.DestroyedAssociationKeepsNoKey : Prop :=
  ∀ (i : Nat) (x : SaRec) (d : Dev), saOf d i = some x → x.state ≠ 4 →
    (∃ y, saOf (destroySa i d) i = some y ∧ y.state = 4 ∧ y.key = [] ∧ y.ka = [] ∧ y.salt = [])
    ∧ (∀ j, j ≠ i → saOf (destroySa i d) j = saOf d j)
    ∧ (∀ n, ∀ c ∈ (sliceOf (destroySa i d) n).ctxs, c.sa ≠ i)
    ∧ i ∉ (destroySa i d).dsp.cache

/-- Key agreement (R290 to R297): the command that configures a peer, starts and reads it; the messages and their
retransmission. -/
def Obligations.KeyAgreementActs : Prop :=
  Sets .kaPeerSet cmdKaPeerSet (fun _ r d => setPeer (rf r 0 5 0) (peerOf r) d)
  ∧ (∀ (r : NcsReq) (p : Peer) (s : State), Passes cmdKaStart r s → tget s.dev.kc.peers (rf r 0 5 0) = some p →
    exec (.kaStart r) s = .next (s.put (kaBegin (rf r 0 5 0) { p with byPeer := false, cmd := some (r.page, r.tag) } s.otp
      (respond r.page r.tag stAccepted [] (accept r.page r.tag 0x0509 (submitted 0x0509 r s.dev))))))
  ∧ (∀ (r : NcsReq) (p : Peer) (s : State), Passes cmdKaStatus r s → tget s.dev.kc.peers (rf r 0 5 0) = some p →
    exec (.kaStatus r) s = .next (served 0x050A r stOk (fun _ => [wd (p.state * 2 ^ 28 + flag p.initiator 24 + p.outcome), wd p.assoc,
      wd p.completed, wd (if p.estab then p.ticks else 0)]) id s))
  ∧ (∀ (port i : Nat) (msg : Bytes) (p : Peer) (d : Dev) (s : State), takeUp port msg s.dev = (some (i, p), d) →
    (beAt msg 0 1 = 1 → p.state ≠ 1 → p.answers = true → beAt msg 1 1 = p.method → kaForm 1 1757 p msg = true →
        beAt msg 8 4 = 0x01000000 →
      exec (.kaInitReceive port msg) s = .next (s.put (if slice msg 44 48 ≠ peerCred d p then
        kaFail 1 4 i { p with byPeer := true } s.otp d else kaAnswer i p msg s.otp d)))
    ∧ (p.state = 1 → p.initiator = true → beAt msg 0 1 = 2 → p.mResp = [] → kaForm 2 (1801 + kaSigLen p.method) p msg = true →
      exec (.kaRespReceive port msg) s = .next (s.put
        (let e := deviceJob d
         let n := kaSigLen p.method
         let th1 := sha384 (p.mInit ++ msg.take 1753)
         let th2 := sha384 (p.mInit ++ msg)
         match Config.ecShared (p.eph.drop 64) (slice msg 1656 97) with
         | none => if slice msg 40 48 ≠ peerCred d p then kaFail 1 4 i p s.otp d else kaFail 2 5 i p s.otp d
         | some sx =>
           let k := kaKeys e p (Config.kemDecaps (p.eph.take 64) (slice msg 88 1568) ++ sx) th1
           let x := keyBytes 32 e
           let fin := kaHeader 3 p.method (56 + n) p.assoc ++ kaSign x.2 p (ascii "BALSEVY KA FIN" ++ th2) x.1
             ++ hmac384 k.2 (ascii "FIN" ++ th2)
           let q := { p with mResp := msg, mFin := fin, kek := k.1, kck := k.2, sent := fin, sends := 1, waited := 0 }
           if slice msg 40 48 ≠ peerCred d p then kaFail 1 4 i p s.otp d
           else if !kaVerify e p (ascii "BALSEVY KA RESP" ++ th1) (slice msg 1753 n)
               || hmac384 k.2 (ascii "RESP" ++ th1) ≠ slice msg (1753 + n) 48 then kaFail 2 5 i p s.otp e
           else kaSend q fin s.otp (setPeer i q x.2))))
    ∧ (p.initiator = false → beAt msg 0 1 = 3 → p.state = 1 → kaForm 3 (56 + kaSigLen p.method) p msg = true →
      exec (.kaFinReceive port msg) s = .next (s.put
        (let e := deviceJob d
         let th2 := sha384 (p.mInit ++ p.mResp)
         if !kaVerify e p (ascii "BALSEVY KA FIN" ++ th2) (slice msg 8 (kaSigLen p.method))
             || hmac384 p.kck (ascii "FIN" ++ th2) ≠ slice msg (8 + kaSigLen p.method) 48 then kaFail 2 5 i p s.otp e
         else kaEstablish i { p with mFin := msg } (kaSend { p with mFin := msg } (kaDoneMsg e { p with mFin := msg }) s.otp e))))
    ∧ (p.state = 1 → p.initiator = true → p.mFin ≠ [] → beAt msg 0 1 = 4 → msg = kaDoneMsg d p →
      exec (.kaDoneReceive port msg) s = .next (s.put (kaEstablish i p d)))
    ∧ (p.state = 1 → kaForm 0x0F 12 p msg = true → exec (.kaAbortReceive port msg) s = .next (s.put (kaEnd 2 i p d))))
  ∧ (∀ (i : Nat) (p : Peer) (s : State), tget s.dev.kc.peers i = some p → p.state = 1 → 200 ≤ p.waited → s.dev.sb.up = true →
    (p.sends < 5 → exec (.kaRetransmit i) s = .next (s.put (kaSend p p.sent s.otp
      (setPeer i { p with sends := p.sends + 1, waited := 0 } s.dev))))
    ∧ (5 ≤ p.sends → exec (.kaRetransmit i) s = .next (s.put (kaFail 4 3 i p s.otp s.dev))))

/-- Granary commands (R358, R361, R362, R365 to R373): re-keying and retirement started, state, regions, channels, the
fault log and the halt record read, quotas and parameters set; a changed quota of region 5 zeroes its bytes. What the
Winnower does (R358 to R362): a region at its epoch limit is re-keyed, a re-key ends with no page under the old key, a
channel drains, migrates and is retired in OTP; scrubbing corrects, replaces rows, repairs nodes, or ends in HALTED.
-/
def Obligations.GranaryAndWinnowerAct : Prop :=
  (Starts .grnRekey cmdGrnRekey (fun _ r d =>
     let g := rf r 0 3 0
     let x := regionOf d g
     let k := keyBytes 64 d
     rekeyEvent false 1 g (maintStart 1 (let e := setRoot (selectOld g (setRegion g
       { x with key := k.1, oldKey := x.key, epoch := (x.epoch + 1) % 2 ^ 32, lines := 0 } k.2))
       { e with grn := { e.grn with rekeying := some ⟨g, 1, some (r.page, r.tag)⟩ } })))
   ∧ (∀ (r : NcsReq) (s : State), Passes cmdGrnRetire r s →
       (s.otp.retired.any (fun c => c / 16 == rf r 0 5 0 / 16) = true →
         exec (.grnRetire r) s = .next (served 0x0711 r 0x8700 (fun _ => []) id s))
       ∧ (s.otp.retired.any (fun c => c / 16 == rf r 0 5 0 / 16) = false →
         exec (.grnRetire r) s = .next (taken r 0x0711 (fun d =>
           let e := setRegion 4 { regionOf d 4 with quota := (regionOf d 4).quota - 458752 } d
           retireEvent 1 (rf r 0 5 0) 0 (maintStart 2 { e with grn := { e.grn with
             retiring := some ⟨rf r 0 5 0, 1, 0, 0, r.page, r.tag⟩ } })) s)))
   ∧ Answers .grnStatus cmdGrnStatus (fun o _ d => grnStatusWords o d)
   ∧ Answers .grnRegionGet cmdGrnRegionGet (fun _ r d => regionWords d (rf r 0 3 0))
   ∧ Answers .grnChannelGet cmdGrnChannelGet (fun o r d => channelWords o d (rf r 0 5 0))
   ∧ (∀ (r : NcsReq) (s : State), Passes cmdGrnFaultLog r s → exec (.grnFaultLog r) s = .next (served 0x0703 r stOk faultWords
       (fun d => if bit (rw r 0) 31 then { d with grn := { d.grn with log := [], faults := 0 } } else d) s))
   ∧ Answers .grnHaltRecord cmdGrnHaltRecord (fun _ _ d => haltWords d)
   ∧ (∀ (r : NcsReq) (s : State), Passes cmdGrnRegionSet r s → exec (.grnRegionSet r) s = .next
       { served 0x0712 r stOk (fun _ => []) (setQuotas r) s with
         ram := if (rw r 3).toNat = (regionOf s.dev 5).quota then s.ram else [] })
   ∧ Sets .grnParamWrite cmdGrnParamWrite (fun _ r d => { d with grn := { d.grn with prmNext := some (rw r 0, rw r 1) } })
   ∧ Answers .grnParamRead cmdGrnParamRead (fun _ _ d => match d.grn.prmNext with
       | some p => [p.1, p.2]
       | none => [d.grn.prm0, d.grn.prm1]))
  ∧ ((∀ (g : Nat) (s : State), winnowerWorks s.dev = true → g ≤ 4 → fld s.dev.grn.prm0 31 16 * 2 ^ 40 ≤ (regionOf s.dev g).lines.toNat →
         s.dev.grn.waiting.contains g = false → s.dev.grn.rekeying = none → s.dev.grn.retiring = none →
       exec (.grnEpochLimit g) s = .next (s.put (rekeyStart g 2 none s.dev)))
     ∧ (∀ (x : Rekeying) (page tag : Nat) (s : State), s.dev.grn.rekeying = some x → x.cmd = some (page, tag) →
         winnowerWorks s.dev = true →
       exec .grnRekeyDone s = .next (s.put (granaryNext 1
         (let d := walkOld x.region s.dev
          let d := setRoot (setRegion x.region { regionOf d x.region with oldKey := [] } d)
          let d := rekeyEvent true x.cause x.region { d with grn := { d.grn with rekeying := none } }
          finish page tag 0x0710 stOk (wd (regionOf d x.region).epoch) d))))
     ∧ (∀ (x : Retiring) (s : State), s.dev.grn.retiring = some x → winnowerWorks s.dev = true →
         (x.phase = 1 → fld s.dev.grn.prm1 15 0 ≤ x.ticks → exec .retireDrainEnd s = .next (s.put (retireEvent 2 x.ch 0
           { s.dev with grn := { s.dev.grn with retiring := some { x with phase := 2 } } })))
         ∧ (x.phase = 2 → ∃ t, exec .retireMigrateDone s = .next t
             ∧ t.dev.grn.retiring = some { x with phase := 3, moved := pagesOn s.dev x.ch }
             ∧ t.otp = s.otp ∧ t.ram = s.ram ∧ t.pending = s.pending ∧ t.dev = { s.dev with grn := t.dev.grn }))
     ∧ (∀ (o : Otp) (k n pfn : Nat) (p : PageFrame) (d : Dev), newPlace o d k n = some pfn →
         (movePage o k n p d).1 = p.renewAt (k / 2 ^ 20) (regionOf d (k / 2 ^ 20)) pfn
         ∧ channelOpen o d (pfn / 2 ^ 19) = true ∧ pfn % 2 ^ 19 < 458752 ∧ pfn % 2 ^ 19 ∉ framesUsed d (pfn / 2 ^ 19))
     ∧ (∀ (x : Retiring) (s : State), s.dev.grn.retiring = some x → x.phase = 3 → granaryUp s.dev = true → s.dev.sb.up = true →
         s.dev.grn.waiting = [] →
       exec .retireOtpDone s = .next { s with
         otp := { s.otp with retired := s.otp.retired ++ [x.ch] }
         dev := maintEnd 2 (finish x.page x.tag 0x0711 stOk (wd x.moved) (retireEvent 3 x.ch x.moved
           { s.dev with grn := { s.dev.grn with retiring := none } })) })
     ∧ (∀ s : State, granaryUp s.dev = true →
         exec (.grnScrub .passEnd) s = .next (s.put { s.dev with grn := { s.dev.grn with rowErrors := [] } })
         ∧ (∀ ch row, channelLive s.otp ch = true →
             let x := channelOf s.dev ch
             let key := ch * 2 ^ 24 + row
             let n := tgetD s.dev.grn.rowErrors key 0 + 1
             let d := setChannel ch { x with errors := satInc 32 x.errors } s.dev
             let e := { d with grn := { d.grn with errors := d.grn.errors + 1, rowErrors := tset d.grn.rowErrors key n } }
             (n ≠ fld s.dev.grn.prm0 7 0 → exec (.grnScrub (.correctable ch row)) s = .next (s.put e))
             ∧ (n = fld s.dev.grn.prm0 7 0 → x.rows < 12288 → exec (.grnScrub (.correctable ch row)) s = .next (s.put
                 (let f := setChannel ch { channelOf e ch with rows := x.rows + 1 } e
                  repairEvent 2 ch row { f with grn := { f.grn with rowErrors := tdel f.grn.rowErrors key } })))
             ∧ (n = fld s.dev.grn.prm0 7 0 → 12288 ≤ x.rows →
                 exec (.grnScrub (.correctable ch row)) s = .next (s.put (repairEvent 3 ch row e))))
         ∧ (∀ level i copyB, nodeInMemory s.dev level i = true →
             let ch := nodeChannel (copiesAway s.otp s.dev) s.dev.grn.width i copyB
             exec (.grnScrub (.node level i copyB true)) s = .next (s.put (repairEvent 1 ch i
               (let d := setChannel ch { channelOf s.dev ch with repaired := satInc 32 (channelOf s.dev ch).repaired } s.dev
                { d with grn := { d.grn with repaired := satInc 32 d.grn.repaired } }))))
         ∧ (let stops := fun (f : ScrubFind) (detail ch addr : Nat) => exec (.grnScrub f) s = .next (s.put (haltEntry 0x30 s.otp
              { s.dev with grn := { s.dev.grn with halt := some (detail, ch, addr, s.dev.sys.rtc) } }))
            (∀ level i copyB, nodeInMemory s.dev level i = true →
              let ch := nodeChannel (copiesAway s.otp s.dev) s.dev.grn.width i copyB
              stops (.node level i copyB false) 4 ch (nodeFirst level i * 4096)
              ∧ stops (.nodeMac level i copyB) 5 ch (nodeFirst level i * 4096))
            ∧ (∀ pfn line, frameOk s.otp pfn = true → line < 64 →
              stops (.data pfn line true) 2 (pfn / 2 ^ 19) (pfn * 4096 + 64 * line)
              ∧ stops (.counter pfn) 3 (pfn / 2 ^ 19) (pfn * 4096)
              ∧ (frameHeld s.dev pfn = true → stops (.data pfn line false) 1 (pfn / 2 ^ 19) (pfn * 4096 + 64 * line)
                ∧ stops (.partialRead pfn line) 6 (pfn / 2 ^ 19) (pfn * 4096 + 64 * line)))
            ∧ stops .onDie 7 0x3F 0)))

/-- No two line nonces agree (R347, R350 to R352): the nonce names its region, page, line, counters and block, and
every write of a line moves its counters up, the major counter first, unless the major counter wraps. A line that was
written reads back as written, and its MAC verifies (R348). -/
def Obligations.LineNoncesNeverRepeat : Prop :=
  (∀ (g g' : BitVec 4) (p p' : BitVec 26) (l l' : BitVec 6) (m m' : BitVec 64) (n n' : BitVec 7) (b b' : BitVec 2),
    lineNonce g p l m n b = lineNonce g' p' l' m' n' b' → g = g' ∧ p = p' ∧ l = l' ∧ m = m' ∧ n = n' ∧ b = b')
  ∧ (∀ (line : Nat) (p : PageCtr), p.major.toNat < 2 ^ 64 - 1 →
      let q := (p.write line).1
      (q.old = false ∨ q.old = p.old)
      ∧ (p.major.toNat < q.major.toNat ∨ (q.major = p.major ∧ tgetD p.minors line 0 < tgetD q.minors line 0))
      ∧ (p.major.toNat < q.major.toNat ∨ ∀ l, l ≠ line → tgetD q.minors l 0 = tgetD p.minors l 0))
  ∧ (∀ (line : Nat) (p : PageCtr), tgetD p.minors line 0 ≤ 127 → tgetD (p.write line).1.minors line 0 ≤ 127)
  ∧ (∀ (g line : Nat) (r : Region) (bytes : Bytes) (p : PageFrame), bytes.length = 64 →
      let q := (p.write g r line bytes).1
      q.pfn = p.pfn ∧ q.ctr = (p.ctr.write line).1 ∧ q.plain g r line = bytes ∧ q.verifies g r line = true)

/-- Path commands (R376, R388, R391, R397 to R404): a pair made with both paths DOWN and path A selected, deleted,
read, locked out, forced, switched by hand, cleared, its priorities and profiles set. -/
def Obligations.PathCommandsAct : Prop :=
  Sets .pathPairCreate cmdPathPairCreate (fun _ r d => pathsRefresh (setPair (rf r 0 4 0)
    ⟨bit (rw r 0) 31, bit (rw r 0) 30, rf r 0 29 28, rf r 1 11 0,
      { PathEnd.init with
        carrier := if bit (rw r 0) 31 then rf r 2 25 16 else rf r 2 21 16, txPrio := rf r 3 3 0, heard := rawNow d },
      { PathEnd.init with
        carrier := if bit (rw r 0) 31 then rf r 2 9 0 else rf r 2 5 0, txPrio := rf r 3 7 4, heard := rawNow d },
      0, none, rf r 4 17 0, 0, 0, [], [], 0, none, none, none, !bit (rw r 0) 31, none⟩ d))
  ∧ Sets .pathPairDelete cmdPathPairDelete (fun _ r d => pairDelete (rf r 0 4 0) d)
  ∧ (∀ (r : NcsReq) (p : PathPair) (s : State), tget s.dev.pth.pairs (rf r 0 4 0) = some p →
      (Passes cmdPathStatus r s → exec (.pathStatus r) s = .next (served 0x0802 r stOk (fun _ => pathWords (rf r 0 4 0) p) id s))
      ∧ (Passes cmdPathPrioritySet r s → exec (.pathPrioritySet r) s = .next (served 0x0804 r stOk (fun _ => []) (fun d =>
          setPair (rf r 0 4 0) (p.withEnd (bit (rw r 0) 8)
            { p.pathEnd (bit (rw r 0) 8) with txPrio := rf r 0 19 16 }) d) s))
      ∧ (Passes cmdPathRequest r s →
          let i := rf r 0 4 0
          let path := rf r 0 8 8
          let e := p.pathEnd (path == 1)
          let s' := p.pathEnd (path == 0)
          (rf r 0 31 28 = 0 → exec (.pathRequest r) s = .next (served 0x0803 r stOk (fun _ => []) (fun d => pathsRefresh (setPair i
            { p with a := { p.a with lockout := false }, b := { p.b with lockout := false }, force := none } d)) s))
          ∧ (rf r 0 31 28 = 1 → exec (.pathRequest r) s = .next (served 0x0803 r stOk (fun _ => []) (fun d => pathsRefresh (setPair i
            (p.withEnd (path == 1) { e with lockout := true }) d)) s))
          ∧ (rf r 0 31 28 = 2 → exec (.pathRequest r) s = .next (if e.lockout then served 0x0803 r 0x8800 (fun _ => []) id s
            else served 0x0803 r stOk (fun _ => []) (fun d => pathsRefresh (setPair i { p with force := some path } d)) s))
          ∧ (rf r 0 31 28 = 3 → exec (.pathRequest r) s = .next (
            if e.lockout = false ∧ p.selected ≠ path ∧ e.state = 2 ∧ s'.health ≤ e.health ∧ p.force ≠ some p.selected then
              served 0x0803 r stOk (fun _ => []) (fun d => pathsRefresh (withDefects (switchPath i path 4) d)) s
            else served 0x0803 r 0x8800 (fun _ => []) id s))))
  ∧ Sets .pathProfileWrite cmdPathProfileWrite (fun _ r d => { d with pth := { d.pth with
      profilesNext := tset d.pth.profilesNext (rf r 0 1 0) (rw r 1, rw r 2) } })
  ∧ Answers .pathProfileRead cmdPathProfileRead (fun _ r d => match tget d.pth.profilesNext (rf r 0 1 0) with
      | some p => [p.1, p.2]
      | none => [(pointsProfile d (rf r 0 1 0)).1, (pointsProfile d (rf r 0 1 0)).2])

/-- Claim frames (R383, R384, R386, R387): one on each path per claim period, with the next PN of the claim SC; one
that arrives is judged by its tag, path and PN; a period without one counts as a miss. Guard, holdoff, hold and yard
(R388, R389, R393 to R395): an ALIGNING path is READY after GUARD ticks, a lasting fall is acted on, a hold ends, a
due unit leaves the yard. -/
def Obligations.ClaimsAndPathTimersAct : Prop :=
  ((∀ (i dt : Nat) (p : PathPair) (s : State),
     let d := passTime dt s.dev
     tget d.pth.pairs i = some p → p.line = false → trafficOn d = true →
     (∀ t, p.claimAt = some t → t + usCycles (pfPeriod d p) ≤ rawNow d) →
     exec (.claimFrameSend ⟨i, dt⟩) s = .next (s.put (claimSend i true (claimSend i false
       (setPair i { p with claimAt := some (rawNow d) } d)))))
   ∧ (∀ (i j : Nat) (b : Bool) (p : PathPair) (sc : Sc) (x : SaRec) (d : Dev), tget d.pth.pairs i = some p →
       tget d.fm.scs p.claimSc = some sc → encodingSa d (objKey 0 p.claimSc) = some j → saOf d j = some x →
       x.exhausted = false →
     claimSend i b d = (let h := claimHead d.fm.etype i (b1 b) x.an (sentClaim (p.pathEnd b)) sc.sci x.pn
       let f := h ++ gcmTag x.key (fmIv x sc.sci x.pn) h []
       out (.frame 1 (p.pathEnd b).carrier f (fcsOf true f)) (occupy (lk 0 (p.pathEnd b).carrier) (wireBytes f)
         (match tget d.fm.secys sc.secy with
           | some y => afterPn y j x.pn (setSa j { x with pn := x.pn + 1 } d)
           | none => setSa j { x with pn := x.pn + 1 } d))))
   ∧ (∀ (l i dt : Nat) (f : Bytes) (p q : PathPair) (b : Bool) (s : State),
       let d := passTime dt s.dev
       trafficOn d = true → 60 ≤ f.length → beAt f 12 2 = d.fm.etype → beAt f 14 1 = 2 → beAt f 15 1 = 1 →
       tget d.pth.pairs (beAt f 16 1 % 32) = some q → q.line = false → pairOfLine d l = some (i, p, b) →
     exec (.claimFrameReceive l f dt) s = .next (s.put (
       if claimValid d i p b f then pathsRefresh (setPair i (p.withEnd b { p.pathEnd b with
         missed := false
         heard := rawNow d
         claimPn := beAt f 28 8
         cand := beAt f 18 2
         candRun := if beAt f 18 2 = (p.pathEnd b).cand then (p.pathEnd b).candRun + 1 else 1
         accepted := if 2 ≤ (if beAt f 18 2 = (p.pathEnd b).cand then (p.pathEnd b).candRun + 1 else 1) then beAt f 18 2
           else (p.pathEnd b).accepted }) d)
       else setPair i { p with invalid := p.invalid + 1 } d)))
   ∧ (∀ (i path dt : Nat) (p : PathPair) (s : State),
     let d := passTime dt s.dev
     tget d.pth.pairs i = some p → p.line = false → path < 2 →
     (p.pathEnd (path == 1)).heard + usCycles (pfMiss d p * pfPeriod d p) ≤ rawNow d →
     exec (.claimMissExpiry i ⟨path, dt⟩) s = .next (s.put (pathsRefresh (setPair i (p.withEnd (path == 1)
       { p.pathEnd (path == 1) with missed := true, candRun := 0 }) d)))))
  ∧ ((∀ (i path : Nat) (p : PathPair) (s : State), tget s.dev.pth.pairs i = some p → path < 2 → (p.pathEnd (path == 1)).state = 1 →
         endFit s.dev p (p.pathEnd (path == 1)) = true → (p.pathEnd (path == 1)).since + pfGuard s.dev p ≤ s.dev.sys.ticks →
       exec (.pathGuardExpiry i path) s = .next (s.put (
         let q := p.withEnd (path == 1) { p.pathEnd (path == 1) with state := 2 }
         pathsRefresh (pathStateEvent i q (path == 1) 1 (setPair i q s.dev)))))
     ∧ (∀ (i h t dt : Nat) (p : PathPair) (s : State),
       let d := passTime dt s.dev
       tget d.pth.pairs i = some p → p.holdoff = some (h, t) → t + usCycles (10 * pfHoldoff d p) ≤ rawNow d →
       exec (.holdoffExpiry ⟨i, dt⟩) s = .next (s.put (pathsRefresh (setPair i { p with holdoff := none } d))))
     ∧ (∀ (i t dt : Nat) (p : PathPair) (s : State),
       let d := passTime dt s.dev
       tget d.pth.pairs i = some p → p.hold = some (t, false) → t + 14000 ≤ rawNow d →
       exec (.fastHoldExpiry ⟨i, dt⟩) s = .next (s.put (setPair i { p with hold := some (t, true) } d)))
     ∧ (∀ (n sc num dt : Nat) (p : PathPair) (s : State),
         let d := passTime dt s.dev
         let rest := p.units.filter (fun u => !(u.sc == sc && u.num == num))
         let unit := p.units.find? (fun u => u.sc == sc && u.num == num)
         let free := match unit with | some u => yardRead d n p u d | none => d
         tget d.pth.pairs n = some p → p.hitless = true → trafficOn d = true → unitDue d p num unit ≤ rawNow d →
         (p.line = true → exec (.yardRelease n sc num dt) s = .next (s.put (
           let e := setPair n { p with units := rest, delivered := tset p.delivered 0 num } free
           pathsRefresh (withDefects (fun d => (demapAll p.a.carrier num
             (match unit with | some u => unitFrames e p u | none => []) false d).2) e))))
         ∧ (p.line = false → exec (.yardRelease n sc num dt) s = .next (s.put (
           let e := setPair n { p with units := rest, delivered := tset p.delivered sc (max num (tgetD p.delivered sc 0)) } free
           match unit.bind (·.flight) with | some f => unitToQueue s.otp f e | none => e)))))

/-- The Points (R385, R389, R390): HEALTH of a judged path is the lower of its local class and its accepted claim; a
decision names the other path with the cause of the first row that holds; equal claims between READY paths keep the
selection; both paths not READY keep it unless a lockout or a force takes it. -/
def Obligations.PointsFollowTheDecisionTable : Prop :=
  (∀ (d : Dev) (p : PathPair) (e : PathEnd), (judgeEnd d p e).health ≤ localClass d p e
      ∧ (judgeEnd d p e).health = min (localClass d p e) ((judgeEnd d p e).accepted / 4096)
      ∧ ((judgeEnd d p e).health ≤ 4 → (judgeEnd d p e).margin = 0)
      ∧ (localClass d p e ≤ 3 → (judgeEnd d p e).accepted = 0))
  ∧ (∀ (d : Dev) (p : PathPair) (new cause : Nat), p.selected ≤ 1 → pointsRow d p = some (new, cause) →
      new = 1 - p.selected
      ∧ (cause = 5 ∨ cause = 3 ∨ cause = 2 ∨ cause = 1)
      ∧ (cause = 5 ↔ (p.pathEnd (p.selected == 1)).lockout = true ∧ (p.pathEnd (p.selected == 0)).lockout = false)
      ∧ (cause = 3 → p.force = some new ∧ (p.pathEnd (p.selected == 0)).lockout = false)
      ∧ (cause = 2 ∨ cause = 1 → (p.pathEnd (p.selected == 0)).state = 2)
      ∧ (cause = 1 → p.holdoff = none → claimOf (p.pathEnd (p.selected == 1)) + pfHyst d p ≤ claimOf (p.pathEnd (p.selected == 0))))
  ∧ (∀ (d : Dev) (p : PathPair), p.selected ≤ 1 → 0 < pfHyst d p → p.holdoff = none → p.force = none →
      p.a.lockout = false → p.b.lockout = false → p.a.state = p.b.state →
      claimOf p.a = claimOf p.b → pointsRow d p = none)
  ∧ (∀ (i new cause : Nat) (p : PathPair) (d : Dev), tget d.pth.pairs i = some p →
      tget (switchPath i new cause d).pth.pairs i
        = some { p with selected := new, switches := satInc 16 p.switches, holdoff := none })

/-- Egress commands (R415, R420, R424 to R430): shapers, classes and queue records set with full credit, counts,
samples and the Timetable read, entries written, a swap armed at B_new or the first boundary of the running cycle
after it. Timetables and samples (R418, R420, R422): the gates show the entry that the time gives, an armed swap takes
place at its instant, which is its base time, with EVT_TT_SWAPPED; every queue of the bound ports is sampled. -/
def Obligations.EgressCommandsAct : Prop :=
  (Sets .schShapeSet cmdSchShapeSet (fun _ r d =>
     let k := egressKey (rw r 0)
     setQueue k { queueOf d k with w0 := rw r 1, w1 := rw r 2, credit := ((rw r 2).toNat * 14000 : Nat), creditAt := rawNow d } d)
   ∧ Sets .schClassSet cmdSchClassSet (fun _ r d =>
       if bit (rw r 0) 31 then { d with sch := { d.sch with pcp := tset d.sch.pcp (rf r 0 21 16) (rw r 1) } }
       else { d with sch := { d.sch with secyQueue := tset d.sch.secyQueue (rf r 0 13 0) (rf r 1 2 0) } })
   ∧ Answers .schStatsGet cmdSchStatsGet (fun _ r d => (queueCounts (queueOf d (egressKey (rw r 0)))).flatMap two)
   ∧ (∀ (r : NcsReq) (s : State), Passes cmdSchSampleGet r s → exec (.schSampleGet r) s = .next (served 0x0903 r stOk
       (fun d => sampleWords (queueOf d (egressKey (rw r 0))))
       (fun d => if bit (rw r 0) 30 then setQueue (egressKey (rw r 0))
         { queueOf d (egressKey (rw r 0)) with samples := 0, depth := Hist.init, delay := Hist.init } d else d) s))
   ∧ Answers .schTtStatus cmdSchTtStatus (fun _ r d => ttWords d (rf r 0 21 16))
   ∧ Sets .schQueueWrite cmdSchQueueWrite (fun _ r d =>
       let k := egressKey (rw r 0)
       setQueue k { queueOf d k with
         w0 := rw r 1, w1 := rw r 2, w2 := rw r 3, credit := ((rw r 2).toNat * 14000 : Nat), creditAt := rawNow d } d)
   ∧ Answers .schQueueRead cmdSchQueueRead (fun _ r d =>
       let x := queueOf d (egressKey (rw r 0))
       [x.w0, x.w1, x.w2])
   ∧ Sets .schTtWrite cmdSchTtWrite (fun _ r d => setTt (rf r 0 21 16) { ttOf d (rf r 0 21 16) with
       shadow := (List.range (rw r 1).toNat).foldl (fun t i => tset t (rf r 0 9 0 + i)
         (rf r (2 + 2 * i) 7 0, (rw r (3 + 2 * i)).toNat)) (ttOf d (rf r 0 21 16)).shadow } d)
   ∧ Answers .schTtRead cmdSchTtRead (fun _ r d => (List.range (rw r 1).toNat).flatMap (fun i =>
       let e := if bit (rw r 0) 31 then tgetD (ttOf d (rf r 0 21 16)).shadow (rf r 0 9 0 + i) (0, 0)
         else (ttOf d (rf r 0 21 16)).active.getD (rf r 0 9 0 + i) (0, 0)
       [wd e.1, wd e.2]))
   ∧ (∀ (r : NcsReq) (s : State), Passes cmdSchTtCommit r s →
       let t := ttOf s.dev (rf r 0 21 16)
       exec (.schTtCommit r) s = .next (served 0x0914 r stOk
         (fun _ => [wd (secOf (swapInstant t (ttBase r))), wd (nsOf (swapInstant t (ttBase r)))])
         (setTt (rf r 0 21 16) { t with armed := some (rf r 0 10 0, ttBase r, swapInstant t (ttBase r)) }) s)))
  ∧ ((∀ (p dt : Nat) (s : State),
         let d := passTime dt s.dev
         let t := ttOf d p
         t.active ≠ [] → exec (.ttEntryBoundary p dt) s = .next (s.put (setTt p { t with
           entry := (entryAt t.active (cycleOff t.active t.base (timeNow d))).1 } d)))
     ∧ (∀ (p dt n b i : Nat) (s : State),
         let d := passTime dt s.dev
         let t := ttOf d p
         t.armed = some (n, b, i) → reachedAt (timeNow d) i = true → exec (.ttSwap p dt) s = .next (s.put (ttShow p
           (emit 0 0x0980 (wd (p * 2 ^ 16 + n)) (wd (nsOf i)) (setTt p
             ⟨shadowList t n, i, 0, (List.range n).zip (shadowList t n), none⟩ d)))))
     ∧ (∀ (dt : Nat) (s : State),
         let d := passTime dt s.dev
         (rawNow d / 1024 = d.sch.sampled → exec (.queueSample dt) s = .next (s.put d))
         ∧ (rawNow d / 1024 ≠ d.sch.sampled → exec (.queueSample dt) s = .next (s.put
           (let e := { d with sch := { d.sch with sampled := rawNow d / 1024 } }
            (allQueues e).foldl (fun d k => setQueue k (sampleQueue d (queueOf d k)) d) e)))))

/-- A free port takes a frame (R407, R414, R415): a bound line port from its highest eligible queue, once frames that
no gate opening holds have been dropped; a bound client port from its queue; else it idles. A client port sends local
fault in STAGING and LOCKED (R12). -/
def Obligations.PortTakesHighestEligibleQueue : Prop :=
  (∀ (p dt : Nat) (s : State), p < 64 →
      let d := passTime dt s.dev
      let e := (List.range 8).foldl (fun d q => dropGated p q (queueOf d (lineQueue p q)).frames.length d) d
      portFree d p = true → hostFrame d p = none → lineBound d p = true →
      (∀ q, q ≤ 7 → eligible e p q = true → (∀ k, q < k → k ≤ 7 → eligible e p k = false) →
        exec (.egressSelect p dt) s = .next (s.put (startFrame (lineQueue p q) 0 p e)))
      ∧ ((∀ q, q ≤ 7 → eligible e p q = false) → exec (.egressSelect p dt) s = .next (s.put e)))
  ∧ (∀ (p dt : Nat) (s : State), p < 64 →
      let d := passTime dt s.dev
      portFree d (64 + p) = true → hostFrame d (64 + p) = none →
      (clientBound d p = true → (s.dev.sys.mode = .secure ∨ s.dev.sys.mode = .service) →
        exec (.egressSelect (64 + p) dt) s = .next (s.put (startFrame (clientQueue p) 0 (64 + p) d)))
      ∧ (d.sys.phase = .up → (d.sys.mode = .staging ∨ d.sys.mode = .locked) →
        exec (.egressSelect (64 + p) dt) s = .next (s.put (out (blockedOutput d p) d))))

/-- A swap acts at the first boundary of the running cycle at or after B_new (R420), and a shaper's credit never
passes BURST (R415). -/
def Obligations.SwapFallsOnCycleBoundary : Prop :=
  (∀ (t : Timetable) (b : Nat), t.active ≠ [] → 1 ≤ cycleNs t.active →
      b ≤ swapInstant t b
      ∧ swapInstant t b < b + cycleNs t.active * 2 ^ 32
      ∧ ∃ k : Int, ((swapInstant t b : Nat) : Int) = (t.base : Int) + k * ((cycleNs t.active * 2 ^ 32 : Nat) : Int))
  ∧ (∀ (t : Timetable) (b : Nat), t.active = [] → swapInstant t b = b)
  ∧ (∀ (d : Dev) (x : Queue), (refill d x).credit ≤ burstU x)
  ∧ (∀ (d : Dev) (x : Queue), x.credit ≤ burstU x → x.credit ≤ (refill d x).credit)

/-- Time commands (R434, R435, R436, R443, R453 to R463): time read, a step taken once per epoch, a re-arm, rate,
model, capture, PPS and delays set for their next instants, host PTP frames queued and received, references chosen.
The TU_ registers (R439, R443, R451), where BAR2 is reached: TU_CTL arms the alarms and takes a snapshot, an alarm
value is judged at once, TU_TXQ_ID pops the oldest stamp, TU_TXQ_OVF clears. -/
def Obligations.TimeCommandsAndRegistersAct : Prop :=
  (Answers .timeGet cmdTimeGet (fun _ _ d => stampWords d.tu.epoch (timeNow d) ++ [wd (fracOf (timeNow d)),
     wd (flag d.tu.stepUsed 31 + flag (!d.tu.modelF) 30 + d.tu.refUse * 2 ^ 28 + flag (d.tu.refUse == d.tu.ref) 27
       + flag d.tu.stepMade 26), wd (ofSigned 32 d.tu.rateSet)])
   ∧ (∀ (r : NcsReq) (s : State), Passes cmdTimeStep r s →
       exec (.timeStep r) s = .next (if s.dev.tu.stepUsed || s.dev.tu.pend.any (fun p => !p.rearm)
         then served 0x0A01 r 0x8A00 (fun _ => []) id s
         else served 0x0A01 r stOk (fun _ => []) (fun d => pendTime
           ⟨false, rf r 0 1 0, rw r 1, rw r 2, rw r 3, (alignDelta d).getD 0, d.sys.ticks⟩ d) s))
   ∧ Sets .timeRateSet cmdTimeRateSet (fun _ r d => { d with tu := { d.tu with
       rateSet := (rw r 0).toInt, rateNext := some (rw r 0).toInt } })
   ∧ Sets .timePtpSend cmdTimePtpSend (fun _ r d => { d with tu := { d.tu with ptpOut := d.tu.ptpOut ++
       [⟨rf r 0 31 31, rf r 0 21 16, rf r 0 15 0, bit (rw r 1) 16, payloadBytes r 2 (rf r 1 9 0)⟩] } })
   ∧ (∀ (r : NcsReq) (s : State), Passes cmdTimePtpRecv r s →
       (s.dev.tu.ring = [] → exec (.timePtpRecv r) s = .next (served 0x0A04 r stOk (fun d => [wd (flag d.tu.ringDropped 30)])
         (fun d => { d with tu := { d.tu with ringDropped := false } }) s))
       ∧ (∀ x rest, s.dev.tu.ring = x :: rest → exec (.timePtpRecv r) s = .next (served 0x0A04 r stOk
         (fun d => wd (2 ^ 31 + flag d.tu.ringDropped 30 + x.side * 2 ^ 23 + x.port * 2 ^ 16 + rest.length)
           :: (stampWords x.epoch x.t ++ [wd (x.frame.length * 2 ^ 16 + fracOf x.t)] ++ beWords x.frame))
         (fun d => { d with tu := { d.tu with ring := rest, ringDropped := false } }) s)))
   ∧ Sets .timeCaptureSet cmdTimeCaptureSet (fun _ r d => { d with tu := { d.tu with captureNext := d.tu.captureNext ++
       [(lk (rf r 0 31 31) (rf r 0 21 16), if bit (rw r 0) 30 then
         some (if bit (rw r 0) 29 then some ((rw r 1).toNat * 2 ^ 16 + rf r 2 31 16) else none) else none)] } })
   ∧ Sets .timePpsSet cmdTimePpsSet (fun _ r d => { d with tu := { d.tu with ppsNext := some (rw r 0) } })
   ∧ Answers .timeTodGet cmdTimeTodGet (fun _ _ d => match d.tu.tod with
       | some (locked, sec, e, t) => [wd (2 ^ 31 + flag locked 30 + sec / 2 ^ 32 % 65536), lo32 sec] ++ stampWords e t
       | none => [0, 0, 0, 0, 0])
   ∧ Sets .timeModelSet cmdTimeModelSet (fun _ r d => { d with tu := { d.tu with modelNext := some (!bit (rw r 0) 0) } })
   ∧ Sets .timeRearm cmdTimeRearm (fun _ r d => pendTime
       ⟨true, rf r 0 1 0, rw r 1, rw r 2, rw r 3, (alignDelta d).getD 0, d.sys.ticks⟩ d)
   ∧ Sets .timeDelaySet cmdTimeDelaySet (fun _ r d => { d with tu := { d.tu with
       dUserNext := tset d.tu.dUserNext (selKey (rw r 0)) (rw r 1).toInt } })
   ∧ Answers .timeDelayGet cmdTimeDelayGet (fun _ r d =>
       let k := selKey (rw r 0)
       let typ := match portOfLane d (lk (rf r 0 31 31) (rf r 0 5 0)) with
         | some p => ((portOf d p).map (·.typ)).getD 0
         | none => 0
       let s32 := fun (i : Int) => wd (ofSigned 32 i)
       [s32 (Config.dFix typ (rf r 0 30 30)), s32 (tgetD d.tu.dLock k 0), s32 (tgetD d.tu.dLive k 0),
         s32 (tgetD d.tu.dUser k 0), wd (flag (tgetD d.tu.dCal k false) 31 + tgetD d.tu.dCount k 0)])
   ∧ Sets .timeRefSet cmdTimeRefSet (fun _ r d => { d with tu := { d.tu with ref := rf r 0 1 0, refUse := rf r 0 1 0 } }))
  ∧ ((∀ (v : Word) (s : State), bar2Ready s.dev = true →
       (let d := alarms { s.dev with tu := { s.dev.tu with arm := bit v 30, arm32 := bit v 29 } }
        let t := if bit v 31 then { d with tu := { d.tu with snap := snapWords d } } else d
        exec (.tuCtlSnap v) s = .next (s.put t) ∧ exec (.tuAlarmArmWrite v) s = .next (s.put t)
         ∧ exec (.tuAlarm32ArmWrite v) s = .next (s.put t))
       ∧ exec (.tuAlarmValueWrite 0x030 v) s = .next (s.put (alarms { s.dev with tu := { s.dev.tu with almHi := wd (fld v 15 0) } }))
       ∧ exec (.tuAlarmValueWrite 0x034 v) s = .next (s.put (alarms { s.dev with tu := { s.dev.tu with almLo := v } }))
       ∧ exec (.tuAlarmValueWrite 0x038 v) s = .next (s.put (alarms { s.dev with tu := { s.dev.tu with almNs := v } }))
       ∧ exec (.tuAlarmValueWrite 0x03C v) s = .next (s.put (alarms { s.dev with tu := { s.dev.tu with alm32 := v } }))
       ∧ (bit v 31 = true → exec (.tuTxqOvfClear v) s = .next (s.put
           { s.dev with tu := { s.dev.tu with ovfFlag := false, ovfCount := 0 } })))
     ∧ (∀ (s : State), bar2Ready s.dev = true →
       (s.dev.tu.txq = [] → exec .tuTxqIdRead s = .next (s.put (out (.readValue 0) s.dev)))
       ∧ (∀ x rest, s.dev.tu.txq = x :: rest → exec .tuTxqIdRead s = .next (s.put
           (out (.readValue (wd (2 ^ 31 + x.side * 2 ^ 23 + x.port * 2 ^ 16 + x.id))) { s.dev with tu := { s.dev.tu with
             txq := rest, txqRegs := stampWords x.epoch x.t ++ [wd (fracOf x.t)] } })))))

/-- Edges, messages, references and calibration (R439, R442, R443, R446 to R449): alarms fire at their instants, PPS
and ToD are stamped and sent, a lost reference is left and a restored one taken up, a host PTP frame departs. -/
def Obligations.TimeHappeningsAct : Prop :=
  (∀ (dt : Nat) (s : State), exec (.nativeAlarmFire dt) s = .next (s.put (alarms (passTime dt s.dev)))
    ∧ exec (.alarm32Fire dt) s = .next (s.put (alarms (passTime dt s.dev))))
  ∧ (∀ (falling : Bool) (dt : Nat) (s : State),
      let d := passTime dt s.dev
      tuRuns d = true → falling = bit d.tu.pps 28 → exec (.ppsInEdge falling dt) s = .next (s.put
        (withHw (fun d => { d with tu := { d.tu with
          ppsStamp := some (d.tu.epoch, timeNow d), ppsRaw := rawNow d, ppsIn := true } }) d)))
  ∧ (∀ (dt t : Nat) (s : State),
      let d := passTime dt s.dev
      d.tu.ppsUntil = some t → t ≤ rawNow d →
      exec (.ppsOutPulseEnd dt) s = .next (s.put (out (.pin 0 false) { d with tu := { d.tu with ppsUntil := none } })))
  ∧ (∀ (m : Bytes) (dt e t : Nat) (s : State),
      let d := passTime dt s.dev
      tuRuns d = true → bit d.tu.pps 29 = true → todOk d m = true → d.tu.ppsStamp = some (e, t) →
      exec (.todMessageReceive m dt) s = .next (s.put (withHw (fun d => { d with tu := { d.tu with
        todIn := true, tod := some ((m.getD 3 0).getLsbD 1, beAt m 4 6, e, t) } }) d)))
  ∧ (∀ (dt sec raw : Nat) (s : State),
      let d := passTime dt s.dev
      d.tu.todDue = some (sec, raw) → raw + 17500000 ≤ rawNow d → bit d.tu.pps 30 = true →
      exec (.todMessageSend dt) s = .next (s.put (let v := draw 1 d
        out (.tod (todMessage v.2 (v.1 == 1#1) sec)) { v.2 with tu := { v.2.tu with todDue := none } })))
  ∧ (∀ s : State, exec .turefLost s = .next (s.put (
      let d := { s.dev with tu := { s.dev.tu with turef := 0 } }
      if s.dev.tu.refUse = 0 then d
      else emit 0 0x0A83 (wd (2 ^ 8)) 0
        (withHw (fun d => { d with tu := { d.tu with refUse := 0, refLost := true } }) d))))
  ∧ (∀ (n : Nat) (s : State), n = 1 ∨ n = 2 → exec (.turefRestored n) s = .next (s.put (
      if s.dev.tu.ref = n ∧ s.dev.tu.refUse ≠ n then
        emit 0 0x0A83 (wd n) 0 { s.dev with tu := { s.dev.tu with turef := n, refUse := n } }
      else { s.dev with tu := { s.dev.tu with turef := n } })))
  ∧ (∀ (side dir lane : Nat) (mean : Int) (s : State), side ≤ 1 → dir ≤ 1 → lane < lanes s.otp →
      64 ≤ tgetD s.dev.tu.dBlock (dk side dir lane) 0 →
      let k := dk side dir lane
      let cur := tgetD s.dev.tu.dLive k 0
      exec (.dliveUpdate side dir lane mean) s = .next (s.put { s.dev with tu := { s.dev.tu with
        dLive := if 250 < mean - cur ∨ 250 < cur - mean then tset s.dev.tu.dLive k mean else s.dev.tu.dLive
        dBlock := tset s.dev.tu.dBlock k (tgetD s.dev.tu.dBlock k 0 - 64)
        dCal := tset s.dev.tu.dCal k true } }))
  ∧ (∀ (side dir port : Nat) (f : Bytes) (d : Dev), isPtpEvent f = true →
      let k := dk side dir port
      measurePath side dir port f d = { d with tu := { d.tu with
        dCount := tset d.tu.dCount k (satInc 16 (tgetD d.tu.dCount k 0))
        dBlock := tset d.tu.dBlock k (tgetD d.tu.dBlock k 0 + 1) } })
  ∧ (∀ (side port dt : Nat) (x : PtpOut) (s : State),
      let d := passTime dt s.dev
      let e := { d with tu := { d.tu with ptpOut := d.tu.ptpOut.erase x } }
      let sends := (d.sys.mode = .secure ∨ d.sys.mode = .service)
        ∧ (if side = 1 then clientBound d port else lineBound d port) = true
      d.tu.ptpOut.find? (fun x => lk x.side x.port == lk side port) = some x →
      (¬ sends → exec (.ptpSendDepart side port dt) s = .next (s.put e))
      ∧ (sends → portFree d (lk side port) = true →
        let f := out (.frame (if side = 1 then 0 else 1) port x.frame (crc32 x.frame))
          (occupy (lk side port) (wireBytes x.frame) (measurePath side 1 port x.frame e))
        (x.stamp = false → exec (.ptpSendDepart side port dt) s = .next (s.put f))
        ∧ (x.stamp = true → exec (.ptpSendDepart side port dt) s = .next (s.put (withHw (fun d =>
            if d.tu.txq.length < 256 then
              { d with tu := { d.tu with txq := d.tu.txq ++ [⟨side, port, x.id, d.tu.epoch, stampNow d side 1 port⟩] } }
            else { d with tu := { d.tu with ovfFlag := true, ovfCount := satInc 16 d.tu.ovfCount } }) f)))))

/-- A step and a re-arm (R435, R436): the pending step adds its offset to the time, uses up the step of the epoch and
is reported on every page; a re-arm makes the next epoch current with its step unused, disarms the alarms, cancels
every pending schedule and armed swap. Time runs on (R433, R434): cycles that pass never take it back, and a change of
rate or model re-bases it so that it stays continuous. -/
def Obligations.TimeIsContinuousAndSteps : Prop :=
  ((∀ (p : TimePend) (rest : List TimePend) (s : State), s.dev.tu.pend = p :: rest → p.rearm = false →
       p.tick < s.dev.sys.ticks → 0 ≤ (timeNow s.dev : Int) + pendDelta s.dev p →
     ∃ t, exec .timeStepApply s = .next t
       ∧ (timeNow t.dev : Int) = (timeNow s.dev : Int) + pendDelta s.dev p
       ∧ t.dev.tu.stepUsed = true ∧ t.dev.tu.epoch = s.dev.tu.epoch ∧ t.dev.tu.rate = s.dev.tu.rate
       ∧ t.otp = s.otp ∧ t.ram = s.ram ∧ t.pending = s.pending)
   ∧ (∀ (p : TimePend) (rest : List TimePend) (s : State), s.dev.tu.pend = p :: rest → p.rearm = true →
       p.tick < s.dev.sys.ticks → p.kind = 3 →
     ∃ t, exec .timeRearmApply s = .next t
       ∧ timeNow t.dev = timeNow s.dev
       ∧ t.dev.tu.epoch = (s.dev.tu.epoch + 1) % 65536 ∧ t.dev.tu.stepUsed = false
       ∧ t.dev.tu.arm = false ∧ t.dev.tu.arm32 = false ∧ t.dev.tu.rearmed = true
       ∧ (∀ x ∈ t.dev.sch.tts, x.2.armed = none)
       ∧ t.otp = s.otp ∧ t.ram = s.ram ∧ t.pending = s.pending))
  ∧ ((∀ (n : Nat) (d : Dev), d.tu.cBase ≤ rawNow d → timeNow d ≤ timeNow (passTime n d))
     ∧ (∀ d : Dev, timeNow (timeSettings d) = timeNow d)
     ∧ (∀ (n : Nat) (d : Dev), d.tu.modelF = false → d.tu.modelNext = none → timeNow (passTime n (timeSettings d))
         = timeNow d + n * modelTInc (d.tu.rateNext.getD d.tu.rate))
     ∧ modelTInc 0 = 0x92492492)

/-- Lane commands (R465, R473, R479 to R482, R485 to R491): ports configured and deleted, lanes read, retrained, put
into Fallow and test, profiles, transmit taps and adaptation set. The sequencer (R470, R471, R474, R477, R483, R484):
success takes a lane to its next enabled stage, a time-out retries, falls back or fails with EVT_LANE_FAILED, lost
signal and lost lock send it back, JTAG takes every lane into TEST. -/
def Obligations.LanesAct : Prop :=
  ((∀ (r : NcsReq) (s : State), Passes cmdPortConfig r s → exec (.portConfig r) s = .next (served 0x0200 r stOk (fun _ => [])
     (fun d =>
       let k := pwKey (rw r 0)
       let p : Port := ⟨rf r 1 31 30, rf r 1 27 24, rf r 1 21 20, bit (rw r 1) 16, rf r 1 1 0, false⟩
       let e := { d with ln := { d.ln with ports := tset d.ln.ports k p } }
       if d.ln.jtagDrive then e else (List.range (rf r 1 27 24)).foldl (fun d i => enterStage (k + i) 1 0 d) e) s))
   ∧ (∀ (r : NcsReq) (p : Port) (s : State), Passes cmdPortDelete r s → portOf s.dev (pwKey (rw r 0)) = some p →
     exec (.portDelete r) s = .next (served 0x0201 r stOk (fun _ => []) (fun d =>
       let k := pwKey (rw r 0)
       let e := (portLanes k p).foldl (fun d l => laneOff l d) { d with ln := { d.ln with ports := tdel d.ln.ports k } }
       if p.up then tickEvent ⟨0, 0x0280, k, wd (k / 64 * 2 ^ 31 + k % 64 * 2 ^ 16), wd (k % 64)⟩ e else e) s))
   ∧ Answers .laneStatus cmdLaneStatus (fun _ r d => laneWords d (lwKey (rw r 0)))
   ∧ Sets .laneRetrain cmdLaneRetrain (fun _ r d => pathsRefresh (declareLol (lwKey (rw r 0))
       (lineLockGone (lwKey (rw r 0)) (restart (lwKey (rw r 0)) (rf r 0 9 8) 0 d))))
   ∧ (∀ (r : NcsReq) (p : Port) (s : State), Passes cmdPortFallow r s → portOf s.dev (pwKey (rw r 0)) = some p →
     exec (.portFallow r) s = .next (served 0x0204 r stOk (fun _ => []) (fun d => portRefresh (pwKey (rw r 0))
       ((portLanes (pwKey (rw r 0)) p).foldl (fun d l =>
         if bit (rw r 0) 0 then setLane l { laneOf d l with
             state := 7, held := true, lock := false, retries := 0, waiting := false, trial := none } d
         else if (laneOf d l).state = 7 then enterStage l 3 0 d else d) d)) s))
   ∧ Sets .laneTestSet cmdLaneTestSet (fun _ r d => laneTestSet (rw r 0) d)
   ∧ (∀ (r : NcsReq) (s : State), Passes cmdLaneTestGet r s → exec (.laneTestGet r) s = .next (served 0x0206 r stOk
       (fun d => laneTestWords (laneOf d (lwKey (rw r 0)))) (fun d =>
         let l := laneOf d (lwKey (rw r 0))
         setLane (lwKey (rw r 0)) { l with
           lockLost := false
           bitErrors := if bit (rw r 0) 30 then 0 else l.bitErrors
           bitsChecked := if bit (rw r 0) 30 then 0 else l.bitsChecked } d) s))
   ∧ Sets .laneSeqWrite cmdLaneSeqWrite (fun _ r d => { d with ln := { d.ln with
       profiles := tset d.ln.profiles (rf r 0 1 0) [rw r 1, rw r 2, rw r 3, rw r 4, rw r 5, rw r 6] } })
   ∧ Answers .laneSeqRead cmdLaneSeqRead (fun _ r d => seqProfile d (rf r 0 1 0))
   ∧ Sets .laneTxeqSet cmdLaneTxeqSet (fun _ r d => setLane (lwKey (rw r 0)) { laneOf d (lwKey (rw r 0)) with taps := rw r 1 } d)
   ∧ Sets .laneAdaptSet cmdLaneAdaptSet (fun _ r d => setLane (lwKey (rw r 0))
       { laneOf d (lwKey (rw r 0)) with frozen := bit (rw r 0) 8, trial := none } d))
  ∧ ((∀ (side lane fom : Nat) (m : LockMeas) (s : State), laneKeyOk s.otp side lane = true →
         let k := lk side lane
         let l := laneOf s.dev k
         stageMay s.dev k fom = true → rawNow s.dev - l.stageAt < 1750 * (10 * fld l.word 19 0) →
         (l.state = 1 ∨ l.state = 3 → exec (.laneStageSuccess side lane fom m) s = .next (s.put (pathsRefresh
           (restart k (l.state + 1) 0 (setLane k { l with signal := l.signal || decide (2 ≤ l.state) } s.dev)))))
         ∧ (l.state = 2 → exec (.laneStageSuccess side lane fom m) s = .next (s.put (pathsRefresh
           (let c := draw 64 s.dev
            restart k 3 0 (setLane k { l with fom := fom, coeffs := c.1, signal := true } c.2)))))
         ∧ (l.state = 4 → exec (.laneStageSuccess side lane fom m) s = .next (s.put (pathsRefresh
           (restart k 5 0 (lockDelays side lane m (setLane k { l with signal := true, lock := true } s.dev))))))
         ∧ (∀ p q, l.state = 5 → portOfLane s.dev k = some p → portOf s.dev p = some q →
           exec (.laneStageSuccess side lane fom m) s = .next (s.put (pathsRefresh (portRefresh p ((portLanes p q).foldl
             (fun d x => if (laneOf d x).state = 5 then enterStage x 6 0 d else d) (setLane k { l with signal := true } s.dev)))))))
     ∧ (∀ (side lane dt : Nat) (s : State), laneKeyOk s.otp side lane = true →
         let d := passTime dt s.dev
         let k := lk side lane
         let l := laneOf d k
         1 ≤ l.state → l.state ≤ 5 → l.waiting = false → 1750 * (10 * fld l.word 19 0) ≤ rawNow d - l.stageAt →
         (fld l.word 27 24 = 0 ∨ l.retries < fld l.word 27 24 → exec (.laneStageTimeout side ⟨lane, dt⟩) s = .next (s.put
           (pathsRefresh (restart k l.state (satInc 8 l.retries) d))))
         ∧ (fld l.word 27 24 ≠ 0 → fld l.word 27 24 ≤ l.retries → fld l.word 30 28 ≠ 0 →
           exec (.laneStageTimeout side ⟨lane, dt⟩) s = .next (s.put (pathsRefresh (restart k (fld l.word 30 28) 0 d))))
         ∧ (fld l.word 27 24 ≠ 0 → fld l.word 27 24 ≤ l.retries → fld l.word 30 28 = 0 →
           exec (.laneStageTimeout side ⟨lane, dt⟩) s = .next (s.put (pathsRefresh
             (emit 0 0x0281 (wd (side * 2 ^ 31 + l.state * 2 ^ 8 + lane)) (wd l.fom) (lanePortRefresh k (setLane k
               { l with state := 9, retries := 0, held := false, fom := 0 } d)))))))
     ∧ (∀ (side lane : Nat) (s : State), laneKeyOk s.otp side lane = true →
         let k := lk side lane
         exec (.signalDetectLost side lane) s = .next (s.put (pathsRefresh (
           let d := lineLockGone k (setLane k { laneOf s.dev k with signal := false, chkLocked := false } s.dev)
           let l := laneOf d k
           if l.state = 6 then lanePortRefresh k (setLane k
             { l with state := 3, waiting := true, held := true, retries := 0, trial := none } d)
           else if 2 ≤ l.state ∧ l.state ≤ 5 ∧ l.waiting = false then restart k 1 0 d
           else d)))
         ∧ exec (.signalDetectReturn side lane) s = .next (s.put (pathsRefresh (
           let d := setLane k { laneOf s.dev k with signal := true } s.dev
           if (laneOf s.dev k).waiting then restart k 3 0 d else d)))
         ∧ exec (.laneLockLost side lane) s = .next (s.put (pathsRefresh (declareLol k (lineLockGone k (
           if 4 ≤ (laneOf s.dev k).state ∧ (laneOf s.dev k).state ≤ 6 then
             restart k 3 0 (setLane k { laneOf s.dev k with held := true } s.dev)
           else s.dev))))))
     ∧ (∀ (side lane fom : Nat) (s : State), laneKeyOk s.otp side lane = true →
         let k := lk side lane
         let l := laneOf s.dev k
         l.state = 6 → l.frozen = false →
         (l.trial = none → exec (.adaptStep side lane fom) s = .next (s.put (
           let c := draw 64 s.dev
           setLane k { l with fom := fom, trial := some ⟨fom, s.dev.sys.ticks, l.coeffs⟩, coeffs := c.1 } c.2)))
         ∧ (∀ b, l.trial = some b → b.tick < s.dev.sys.ticks →
           (fom + 1 < b.fom → exec (.adaptStep side lane fom) s = .next (s.put (setLane k { l with
             fom := fom, trial := none, coeffs := b.coeffs, reverts := satInc 16 l.reverts } s.dev)))
           ∧ (b.fom ≤ fom + 1 → exec (.adaptStep side lane fom) s = .next (s.put (setLane k { l with
             fom := fom, trial := none } s.dev)))))
     ∧ (∀ (code : Nat) (s : State), exec (.jtagInstructionLoad code) s = .next (s.put (
         let d := { s.dev with pwr := { s.dev.pwr with jtag := code % 256 } }
         if code % 256 = 0 ∨ code % 256 = 12 ∨ code % 256 = 13 then allLanesTest s.otp d else d)))
     ∧ (∀ s : State, s.dev.ln.jtagDrive = false →
         exec .tapReset s = .next (s.put { s.dev with pwr := { s.dev.pwr with jtag := 1 } }))
     ∧ (∀ s : State, s.dev.ln.jtagDrive = true → exec .tapReset s = .next (s.put (
         ((List.range (lanes s.otp)) ++ (List.range (lanes s.otp)).map (· + 64)).foldl (fun d k =>
           if (portOfLane d k).isSome then restart k 1 0 d else setLane k { laneOf d k with state := 0 } d)
           { s.dev with pwr := { s.dev.pwr with jtag := 1 }, ln := { s.dev.ln with jtagDrive := false } }))))

/-- A lane enters the first enabled stage from the named one on, and ACTIVE is stage 6 (R471, R473): bring-up only
moves forward, coefficients are discarded in stages 1 and 2, the FoM is 0 below stage 3. -/
def Obligations.StageEntryFollowsProfile : Prop :=
  (∀ (ws : List Word) (n : Nat), n ≤ 6 → n ≤ nextStage ws n ∧ nextStage ws n ≤ 6
      ∧ (nextStage ws n < 6 → bit (ws.getD (nextStage ws n - 1) 0) 31 = true)
      ∧ (∀ m, n ≤ m → 1 ≤ m → m < nextStage ws n → bit (ws.getD (m - 1) 0) 31 = false))
  ∧ (∀ (k n retries : Nat) (d : Dev), 1 ≤ n → n ≤ 6 →
      let l := laneOf (enterStage k n retries d) k
      l.state = nextStage (laneProfile d k) n
      ∧ (l.state < 3 → l.held = false ∧ l.fom = 0 ∧ l.coeffs = 0)
      ∧ l.stageAt = rawNow d ∧ l.waiting = false ∧ l.trial = none
      ∧ l.word = (laneProfile d k).getD (l.state - 1) 0
      ∧ (l.state = 6 → l.lock = true ∧ l.retries = 0)
      ∧ ∀ j, j ≠ k → laneOf (enterStage k n retries d) j = laneOf d j)

/-- Key store commands (R501, R502, R506, R513, R515 to R521): identity and attestation answered, slots and counters
read, messages queued, keys derived into slots and slots freed, credentials named. Sealed messages and provisioning
(R503, R504, R509 to R512): a message that passes its checks is journalled and then committed, one that fails ends
with its status; provisioning installs the owner and ends BLANK. -/
def Obligations.KeyStoreActs : Prop :=
  ((∀ (r : NcsReq) (s : State), Passes cmdKsIdentityGet r s → exec (.ksIdentityGet r) s = .next (served 0x0B00 r stOk
       (fun _ => beWords (identityOf s.otp)) (fun d => if r.len = 3 then out (.hostWrite (bufAddr r 0) sealPublic) d else d) s))
   ∧ Starts .ksSealSubmit cmdKsSealSubmit (fun _ r d => { d with ks := { d.ks with
       queue := d.ks.queue ++ [⟨r.page, r.tag, r.buf.take (bufLen r 0)⟩] } })
   ∧ Answers .ksSlotInfo cmdKsSlotInfo (fun o r d => slotWords o d (rf r 0 12 0) r.page)
   ∧ Answers .ksCounterGet cmdKsCounterGet (fun o r d =>
       [wd (if bit (rw r 0) 31 then pageCtrOf d (rf r 0 6 0) else guardCtr d (rf r 0 12 0) r.page), wd (burnWord o)])
   ∧ Sets .ksDerive cmdKsDerive (fun _ r d =>
       let len := (typeLen (rf r 0 23 16)).getD 0
       let key := kdf Config.deviceSecret (deriveInput d (rf r 0 31 30) r.page
         (payloadBytes r 3 (rf r 2 6 0)) (8 * len)) (8 * len)
       let mask := keyBytes key.length (keyBytes 32 d).2
       slotEvent 3 r.page (rf r 0 12 0) 0 (putSlot (rf r 0 12 0)
         ⟨rf r 0 23 16, r.page, rf r 1 15 0, 2, mask.1, xorBytes key mask.1⟩ mask.2))
   ∧ Sets .ksSlotFree cmdKsSlotFree (fun _ r d => dropSlot (rf r 0 12 0) d)
   ∧ (∀ (r : NcsReq) (s : State), Passes cmdKsAttest r s → exec (.ksAttest r) s = .next (served 0x0B06 r stOk (fun d =>
       attestBody s.otp d r ++ beWords (hmac384 s.otp.attest (ascii "BALSEVY ATTEST" ++ wordBytes (attestBody s.otp d r))))
       (fun d => (keyBytes 48 d).2) s))
   ∧ (∀ (r : NcsReq) (s : State), Passes cmdKsProvision r s → s.dev.ks.provision = none →
       exec (.ksProvision r) s = .next (
         let d := deviceJob (taken r 0x0B10 id s).dev
         match provJudge (r.buf.take (bufLen r 0)) with
         | .inl st => s.put (finish r.page r.tag 0x0B10 st 0 d)
         | .inr a => { s.put { d with ks := { d.ks with provision := some ⟨r.page, r.tag, r.buf.take (bufLen r 0)⟩ } } with
             otp := { s.otp with
                       identity := slice (r.buf.take (bufLen r 0)) 8 32
                       attest := a
                       provBegun := sha384 (r.buf.take (bufLen r 0)) } }))
   ∧ Sets .ksCredentialSet cmdKsCredentialSet (fun _ r d =>
       let m := if bit (rw r 0) 16 then some (rf r 1 28 16) else none
       let e := if bit (rw r 0) 17 then some (rf r 1 12 0) else none
       let cs := if m.isNone && e.isNone then tdel d.ks.creds (rf r 0 6 0) else tset d.ks.creds (rf r 0 6 0) (m, e)
       { d with ks := { d.ks with creds := cs } }))
  ∧ ((∀ (job : SealJob) (rest : List SealJob) (s : State), s.dev.ks.prepared = none → s.dev.ks.queue = job :: rest →
       exec (.ksSealProcess false) s = .next (s.put (match sealJudge s.otp (deviceJob s.dev) job.msg with
         | .inr key => sealPrepare job key (deviceJob s.dev)
         | .inl st => finish job.page job.tag 0x0B01 st (wd (smSlot job.msg % 8192))
             (let d := deviceJob s.dev
              { d with ks := { d.ks with queue := rest } }))))
     ∧ (∀ (whole : Bool) (job : SealJob) (j : Journal) (s : State), s.dev.ks.prepared = some job → s.dev.ks.journal = some j →
       exec (.ksSealProcess whole) s = .next { s with
         otp := { s.otp with h := max s.otp.h (min 255 (j.ctr / 2 ^ 24)) }
         dev := finish job.page job.tag 0x0B01 stOk (wd j.slot) (slotEvent (if j.put.isSome then 1 else 2)
           (match j.put with
             | some x => x.owner
             | none => match slotRec s.dev j.slot with | some x => x.owner | none => j.page) j.slot j.ctr
           (let d := match j.put with | some x => putSlot j.slot x s.dev | none => dropSlot j.slot s.dev
            let d := reseal { s.otp with h := max s.otp.h (min 255 (j.ctr / 2 ^ 24)) } (setCounter j.slot j.page j.ctr d)
            { d with ks := { d.ks with jPrep := false, prepared := none } })) })
     ∧ (∀ (job : SealJob) (s : State), s.dev.ks.provision = some job → s.otp.life = .blank →
       ∃ t, exec .provisioningOtpWriteDone s = .next t
         ∧ t.otp = { s.otp with
             life := .provisioned
             ownerHash := sha384 (slice job.msg 40 2592 ++ slice job.msg 2632 97) }
         ∧ (∃ a b, tget t.dev.ks.flash 0 = some a ∧ a.typ = 0x19 ∧ a.owner = 0 ∧ tget t.dev.ks.flash 1 = some b ∧ b.typ = 0x18
             ∧ b.owner = 0)
         ∧ t.dev.ks.provision = none ∧ t.dev.ks.slotCtr = [] ∧ t.dev.ks.pageCtr = [] ∧ t.ram = s.ram ∧ t.pending = s.pending))

/-- The public-key engine (R526, R530, R531, R534 to R538): jobs queued, started, ended with a bus error or, once
their time has passed, a failed check, a verdict, a failed release or their results; aborted, read, wiped; the domain
powers down. -/
def Obligations.PublicKeyEngineActs : Prop :=
  Starts .pkeRun cmdPkeRun (fun _ r d => { d with pke := { d.pke with waiting := d.pke.waiting ++
    [⟨r.page, r.tag, (List.range 22).map (rw r), r.buf, [], none, 0⟩] } })
  ∧ (∀ (j : PkeJob) (rest : List PkeJob) (s : State), s.dev.pke.waiting = j :: rest → s.dev.pke.powered = true →
      s.dev.pke.running = none → exec .pkeJobStart s = .next (s.put (jobStart j s.otp s.dev)))
  ∧ (∀ (good : Bool) (n dt : Nat) (j : PkeJob) (s : State), let d := passTime dt s.dev
      d.pke.running = some j →
      let tries := if jobOp j = 0x39 then max 1 (n % 2 ^ 16) else 0
      let w3 := wd (tries * 2 ^ 16 + 0xF)
      let done := fun (good : Bool) => exec (.pkeJobDone true good ⟨n, dt⟩) s
      let x := keyBytes 64 d
      exec (.pkeJobDone false good ⟨n, dt⟩) s = .next (s.put (jobEnd j 0x8C01 0xF (pkeScrub d)))
      ∧ (rawNow d < j.startAt + jobTime j tries → done good = .next (s.put d))
      ∧ (j.startAt + jobTime j tries ≤ rawNow d →
        (∀ st i, j.fail = some (st, i) → done good = .next (s.put (jobEnd j st (wd i)
            { d with pke := { d.pke with rejects := satInc 32 d.pke.rejects } })))
        ∧ (j.fail = none → jobOp j = 0x10 ∨ jobOp j = 0x22 ∨ jobOp j = 0x38 → done good = .next (s.put
            (jobEnd j (if Config.pkeVerdict (jobOp j) (jobSet j) j.ins then stOk else stAuthFail) 0xF
              { d with pke := { d.pke with completed := satInc 32 d.pke.completed } })))
        ∧ (j.fail = none → pkeSigns (jobOp j) = true → done false = .next (s.put (
            emit 0 0x0C80 (wd (jobOp j * 2 ^ 24 + jobSet j * 2 ^ 16 + j.page)) 0 (jobEnd j stAuthFail w3
              { x.2 with pke := { x.2.pke with faults := satInc 32 x.2.pke.faults } }))))
        ∧ (j.fail = none → pkeVerifies (jobOp j) = false → pkeSigns (jobOp j) = false ∨ good = true →
            done good = .next (s.put (
              if (jobOp j = 0x20 ∨ jobOp j = 0x21) ∧ (jobResult j x.1).2.all (· == 0#8) = true then
                jobEnd j stPointInvalid w3 { x.2 with pke := { x.2.pke with completed := satInc 32 x.2.pke.completed } }
              else jobDeliver j w3 (jobResult j x.1) x.2)))
        ∧ (j.fail = none → jobOp j = 0x01 → done good = .next (s.put (jobDeliver j 0xF
            (beBytes (8 * jobN j) (beNat (j.ins.getD 1 []) * beNat (j.ins.getD 2 []) % beNat (j.ins.getD 0 [])), []) x.2)))))
  ∧ (∀ (r : NcsReq) (j : PkeJob) (s : State), Passes cmdPkeAbort r s → s.dev.pke.running = some j → j.page = r.page →
      j.tag = rf r 0 7 0 → exec (.pkeAbort r) s = .next (served 0x0C01 r stOk (fun _ => [])
        (fun d => jobEnd j 0x8C00 0xF (pkeScrub d)) s))
  ∧ (∀ (r : NcsReq) (s : State), Passes cmdPkeAbort r s →
      (∀ j, s.dev.pke.running = some j → j.page ≠ r.page ∨ j.tag ≠ rf r 0 7 0) →
      exec (.pkeAbort r) s = .next (served 0x0C01 r stOk (fun _ => []) (fun d =>
        finish r.page (rf r 0 7 0) 0x0C00 0x8C00 0xF { d with pke := { d.pke with
          waiting := d.pke.waiting.filter (fun j => !(j.page == r.page && j.tag == rf r 0 7 0)) } }) s))
  ∧ Answers .pkeStatus cmdPkeStatus (fun _ r d =>
      [wd (flag d.pke.running.isSome 31 + ownerField d r.page * 2 ^ 16 + d.pke.waiting.length), wd d.pke.completed,
        wd d.pke.faults, wd d.pke.rejects])
  ∧ Sets .pkeWipe cmdPkeWipe (fun _ r d => if d.pke.owner = some r.page then { d with pke := { d.pke with regs := [] } } else d)
  ∧ (∀ s : State, s.dev.pke.powered = true → s.dev.pke.running = none → s.dev.pke.waiting = [] → 100 ≤ s.dev.pke.idle →
      exec .pkePowerDown s = .next (s.put { s.dev with pke := { s.dev.pke with powered := false, regs := [], idle := 0 } }))

/-- No operand crosses pages (R525): a job of a page that does not own the operand memory starts the same whatever the
operand memory held, and its page owns it from then on. -/
def Obligations.PkeOperandsStayWithTheirPage : Prop :=
  ∀ (j : PkeJob) (o : Otp) (d : Dev), d.pke.owner ≠ some j.page →
    (∀ regs, jobStart j o { d with pke := { d.pke with regs := regs } } = jobStart j o d)
    ∧ (jobStart j o d).pke.owner = some j.page
    ∧ (∀ i x, i < 4 → tget (jobStart j o d).pke.regs i = some x → inSource j i ≠ 0 ∧ inSource j i ≠ 3)

/-- Tamper commands and registers (R551, R552, R555, R557 to R561): status and log answered, a nonce drawn, an unlock
message judged in the order of its checks, responses set, detectors tested, TAMP_EVENT read and cleared. -/
def Obligations.TamperCommandsAct : Prop :=
  Answers .tampStatusGet cmdTampStatusGet (fun o _ d => [tampStatusWord d, wd d.tamp.sticky.toNat, wd d.tamp.active.toNat,
    wd o.fused.toNat, tampResponseWord o d, d.tamp.seq])
  ∧ Answers .tampLogGet cmdTampLogGet (fun _ r d => wd (wholeLog d).length ::
    (List.range (rf r 0 23 16)).flatMap (fun i => match ((wholeLog d).drop (rf r 0 11 0))[i]? with
      | some e => [e.w0, e.w1, e.rtc, e.seq]
      | none => [0, 0, 0, 0]))
  ∧ (∀ (r : NcsReq) (s : State), Passes cmdTampNonceGet r s → exec (.tampNonceGet r) s = .next (
      let d := submitted cmdTampNonceGet.code r s.dev
      let k := keyBytes 32 d
      s.put (respond r.page r.tag stOk (bytesWords 8 k.1)
        { k.2 with tamp := { k.2.tamp with nonce := some k.1, nonceAt := rawNow d } })))
  ∧ (∀ (r : NcsReq) (s : State), Passes cmdTampUnlock r s → exec (.tampUnlock r) s = .next (
      let d := (taken r 0x0D03 id s).dev
      let m := r.buf.take (bufLen r 0)
      s.put (if unlockForm s.otp m = false then finish r.page r.tag 0x0D03 stBadField 0 d
        else if lockingActive s.otp d = true then finish r.page r.tag 0x0D03 0x8D02 0 d
        else if d.tamp.nonce ≠ some (slice m 40 32) then finish r.page r.tag 0x0D03 0x8D00 0 d
        else if ¬(beAt m 72 2 = d.tamp.sticky.toNat ∧ beAt m 74 1 = d.sys.haltCause ∧ beAt m 76 4 = d.tamp.seq.toNat) then
          finish r.page r.tag 0x0D03 0x8D01 0 d
        else
          let x := secondDelay false d
          { x.2 with tamp := { x.2.tamp with
            nonce := none
            unlock := some ⟨r.page, r.tag, d.tamp.sticky.toNat,
              if beAt m 5 1 = 0 ∨ signedBy d (beAt m 5 1) 0 m = true then stOk else stAuthFail, false,
              rawNow d + x.1⟩ } })))
  ∧ Sets .tampResponseSet cmdTampResponseSet (fun _ r d => { d with tamp := { d.tamp with
      set := BitVec.ofNat 24 (rf r 0 23 0), copy := BitVec.ofNat 24 (rf r 0 23 0), minOnly := false } })
  ∧ (∀ (r : NcsReq) (s : State), Passes cmdTampTest r s → exec (.tampTest r) s = .next (
      let x := draw 2 (submitted cmdTampTest.code r s.dev)
      s.put (respond r.page r.tag stOk [wd (x.1.toNat &&& rf r 0 9 8)] x.2)))
  ∧ (∀ s : State, reachable s.dev 0 = true → exec .tampEventRead s = .next (s.put
      (out (.readValue (wd (flag s.dev.tamp.disagree 16 + s.dev.tamp.fired.toNat)))
        { s.dev with tamp := { s.dev.tamp with fired := 0, disagree := false } })))
  ∧ (∀ (r : NcsReq) (s : State), Passes cmdTampStatusGet r s → r.len = 0)

/-- Firing and its second decision (R542, R545 to R550): a source that cannot fire does nothing; a LOG response acts
at once; a locking one waits for its second decision, which comes once its delay has passed, sets the flag, writes the
entry and locks, with LOCK+ERASE where either decision chose it. The verdict of an unlock (R547, R552, R553): a source
that fired meanwhile, a failed signature or disagreeing decisions keep the device LOCKED; a verdict that passes clears
the flags and leaves for STAGING, or for HALTED where a halt cause is recorded. -/
def Obligations.TamperHappeningsAct : Prop :=
  ((∀ (i : Nat) (a b : Bool) (s : State), canFire s.otp s.dev i = false ∨ (a = false ∧ b = false) →
     exec (.tamperSourceFire i a b) s = .next s)
   ∧ (∀ (i : Nat) (a b : Bool) (s : State), canFire s.otp s.dev i = true → a = true ∨ b = true →
     let m := BitVec.ofNat 12 (2 ^ i)
     let n := flag a (2 * i) + flag b (2 * i + 1)
     let f := fun (u : Unlock) => { u with fired := true }
     let d := { s.dev with tamp := { s.dev.tamp with
       active := s.dev.tamp.active ||| m, nonce := none, unlock := s.dev.tamp.unlock.map f } }
     (responseOf s.otp s.dev i = 1 → exec (.tamperSourceFire i a b) s = .next (s.put (logEntry 1 1 (2 ^ i) n
       (withHw (fun d => { d with tamp := { d.tamp with sticky := d.tamp.sticky ||| m, fired := d.tamp.fired ||| m } }) d))))
     ∧ (responseOf s.otp s.dev i ≠ 1 →
       let asleep := d.sys.phase == .dormant || d.sys.phase == .sleeping
       let x := secondDelay asleep d
       exec (.tamperSourceFire i a b) s = .next (s.put { x.2 with tamp := { x.2.tamp with
         decisions := x.2.tamp.decisions ++ [⟨i, n, responseOf s.otp s.dev i, false, asleep, rawNow d + x.1⟩] } })))
   ∧ (∀ (failed : BitVec 24) (s : State), exec (.detectorSelfTest failed) s = .next (s.put
       ((List.range 12).foldl (fun d i =>
         if respField failed i * 4 ^ i = 0 then d else fire i (respField failed i * 4 ^ i) true s.otp d) s.dev)))
   ∧ (∀ (i second dt : Nat) (a b : Bool) (x : Decision) (s : State), i < 12 → canLock (passTime dt s.dev) = true →
       let d0 := passTime dt s.dev
       d0.tamp.decisions.find? (fun x => x.source == i && decide (x.due ≤ rawNow d0)) = some x →
       let m := BitVec.ofNat 12 (2 ^ i)
       let d := withHw (fun d => { d with tamp := { d.tamp with
         decisions := d.tamp.decisions.erase x, sticky := d.tamp.sticky ||| m, fired := d.tamp.fired ||| m
         disagree := d.tamp.disagree || decide (second ≠ x.response) } }) d0
       (second = x.response → exec (.tamperSecondDecision i ⟨second, dt⟩ a b) s = .next (
         let t := lockEntry 0x20 (wd (2 ^ i)) s.otp
           (setLock true (logEntry (if x.selfTest then 4 else 1) x.response (2 ^ i) x.detectors d))
         { s with
           otp := t.1
           dev := if x.response = 3 then eraseKeys t.2 else t.2 }))
       ∧ (second ≠ x.response → exec (.tamperSecondDecision i ⟨second, dt⟩ a b) s = .next (
         let resp := if x.response = 3 ∨ second = 3 then 3 else 2
         let t := lockEntry 0x21 (wd i) s.otp (setLock true (logEntry 2 resp (2 ^ i) x.detectors d))
         { s with
           otp := t.1
           dev := if resp = 3 then eraseKeys t.2 else t.2 })))
   ∧ (∀ (i second dt : Nat) (a b : Bool) (s : State), i < 12 →
       (∀ x ∈ (passTime dt s.dev).tamp.decisions, x.source = i → rawNow (passTime dt s.dev) < x.due) →
       exec (.tamperSecondDecision i ⟨second, dt⟩ a b) s = .next (s.put (passTime dt s.dev)))
   ∧ (∀ (i : Nat) (s : State), exec (.tamperConditionCleared i) s = .next (s.put { s.dev with tamp := { s.dev.tamp with
       active := s.dev.tamp.active &&& ~~~(BitVec.ofNat 12 (2 ^ i)) } }))
   ∧ (∀ s : State, s.dev.sys.phase = .up → s.dev.sb.up = true → s.dev.sys.aoGood = true → s.dev.tamp.provisional = false →
       exec .tamperLogCopy s = .next (s.put { s.dev with tamp := { s.dev.tamp with
         ring := (s.dev.tamp.log.filter (fun e => !s.dev.tamp.ring.contains e) ++ s.dev.tamp.ring).take 4096 } }))
   ∧ (∀ s : State, exec .unlockNonceExpiry s = .next (s.put (
       let d := s.dev
       if d.tamp.nonceAt + usCycles 600000000 ≤ rawNow d then { d with tamp := { d.tamp with nonce := none } } else d))))
  ∧ (∀ (second dt : Nat) (a b : Bool) (u : Unlock) (s : State),
       let d := passTime dt s.dev
       d.tamp.unlock = some u → d.sb.up = true → d.sys.mode = .locked →
       let stop := fun st => finish u.page u.tag 0x0D03 st 0 { d with tamp := { d.tamp with unlock := none } }
       let clear := logEntry 3 0 d.tamp.sticky.toNat 0 { d with tamp := { d.tamp with sticky := 0, erased := false, lock := false } }
       (rawNow d < u.due → exec (.tamperSecondDecision 0x21 ⟨second, dt⟩ a b) s = .next (s.put d))
       ∧ (u.due ≤ rawNow d → u.fired = true → exec (.tamperSecondDecision 0x21 ⟨second, dt⟩ a b) s = .next (s.put (stop 0x8D01)))
       ∧ (u.due ≤ rawNow d → u.fired = false → u.verdict ≠ stOk → exec (.tamperSecondDecision 0x21 ⟨second, dt⟩ a b) s
           = .next (s.put (stop u.verdict)))
       ∧ (u.due ≤ rawNow d → u.fired = false → u.verdict = stOk → second ≠ 1 →
           exec (.tamperSecondDecision 0x21 ⟨second, dt⟩ a b) s = .next (s.put (unlockDisagree u d)))
       ∧ (u.due ≤ rawNow d → u.fired = false → u.verdict = stOk → second = 1 → d.sys.haltCause ≠ 0 →
           exec (.tamperSecondDecision 0x21 ⟨second, dt⟩ a b) s = .next (s.put (goHalted d.sys.haltCause
             { clear with tamp := { clear.tamp with unlock := none } })))
       ∧ (u.due ≤ rawNow d → u.fired = false → u.verdict = stOk → second = 1 → d.sys.haltCause = 0 →
           exec (.tamperSecondDecision 0x21 ⟨second, dt⟩ a b) s = .next (
             let k := ksRecover a b s.otp clear
             let e := if d.tamp.erased then granaryInit k.1 k.2 else k.2
             let e := recoveryEvents k.1 (changeMode .staging 0x22 0 0 e)
             { s with
               otp := k.1
               ram := if d.tamp.erased then [] else s.ram
               dev := finish u.page u.tag 0x0D03 stOk (wd d.tamp.sticky.toNat)
                 { e with tamp := { e.tamp with unlock := none } } })))

/-- LOCK+ERASE leaves no key (R91, R102, R295, R364, R544): no SA key, salt or authentication key, no slot of the key
RAM, no vault key, no Granary key, no KEK and no established state of a peer, no context of a slice, no PKE operand,
no chain, no schedule. The premise is what a destroyed SA holds, which DestroyedAssociation states. -/
def Obligations.LockEraseLeavesNoKey : Prop :=
  ∀ d : Dev, (∀ i x, saOf d i = some x → x.state = 4 → x.key = [] ∧ x.ka = [] ∧ x.salt = []) →
    (∀ i x, saOf (eraseKeys d) i = some x → x.state = 4 ∧ x.key = [] ∧ x.ka = [] ∧ x.salt = [])
    ∧ (eraseKeys d).ks.ram = [] ∧ (eraseKeys d).ks.kv = [] ∧ (eraseKeys d).ks.sealV = [] ∧ (eraseKeys d).ks.unwrapped = false
    ∧ (eraseKeys d).grn.kt = [] ∧ (∀ g, (regionOf (eraseKeys d) g).key = [] ∧ (regionOf (eraseKeys d) g).oldKey = [])
    ∧ (∀ p ∈ (eraseKeys d).kc.peers, p.2.kek = [] ∧ p.2.kck = [] ∧ p.2.estab = false ∧ p.2.state ≠ 2)
    ∧ (∀ n, (sliceOf (eraseKeys d) n).ctxs = []) ∧ (eraseKeys d).dsp.cache = [] ∧ (eraseKeys d).pke.regs = []
    ∧ (eraseKeys d).kc.chains = [] ∧ (eraseKeys d).kc.scheds = [] ∧ (eraseKeys d).tamp.erased = true

/-- Firmware commands (R570, R573, R575, R579): status answered, an update taken up with the verdict of its checks, an
image confirmed where the device is healthy, or reverted. The states of an update (R569, R571, R572, R574 to R576): a
refused image ends the command, an accepted one is STAGED and its activation goes through RECALL, the image slot,
probation, confirmation or fall-back, each with its event. -/
def Obligations.FirmwareActs : Prop :=
  (Answers .fwStatus cmdFwStatus (fun o _ d => [wd (d.fw.state * 2 ^ 28 + o.floor), d.fw.runVersion, d.fw.runSec,
     if d.fw.recallValid then d.fw.recallImg.version else 0, wd (flag d.fw.recallValid 31 + d.fw.recallImg.sec),
     wd (if d.fw.state = 4 then d.fw.left else 0),
     wd (o.revoked.toNat * 16 + match signerIndex d.fw.signerMeas with | some k => 2 ^ k | none => 0), wd d.fw.confirmed])
   ∧ Starts .fwUpdate cmdFwUpdate (fun o r d =>
       let m := r.buf.take (bufLen r 0)
       let d := deviceJob (countLines 1 ((m.length + 63) / 64) d)
       maintStart 0 { d with fw := { d.fw with update := some ⟨r.page, r.tag, imageOf m,
         if manifestOk o m = false then 0x8E02
         else if signerAccepted o (imageOf m).signer = false then 0x8E00
         else if imageSigned m = false then stAuthFail
         else if blocksOk m = false then 0x8E02
         else if (imageOf m).sec < o.floor then 0x8E01
         else stOk, bit (rw r 3) 31, if rf r 3 9 0 = 0 then 120 else rf r 3 9 0⟩ } })
   ∧ (∀ (r : NcsReq) (s : State), Passes cmdFwConfirm r s → exec (.fwConfirm r) s = .next (
       if healthy s.otp (submitted cmdFwConfirm.code r s.dev) = true then served 0x0E02 r stOk (fun _ => []) (fwState 5 1) s
       else served 0x0E02 r 0x8E04 (fun _ => []) id s))
   ∧ (∀ (r : NcsReq) (s : State), Passes cmdFwRevert r s → exec (.fwRevert r) s
       = .next (s.put (recallStarts s.otp (served cmdFwRevert.code r stOk (fun _ => []) (fwState 6 3) s).dev))))
  ∧ ((∀ (u : Update) (s : State), s.dev.fw.update = some u → fwWorks s.dev = true → s.dev.sb.up = true → s.dev.fw.state = 0 →
       exec .fwStaged s = .next (s.put (if u.verdict = stOk then fwState 2 0 (fwState 1 0 s.dev)
         else maintEnd 0 (finish u.page u.tag 0x0E01 u.verdict 0 { s.dev with fw := { s.dev.fw with update := none } }))))
     ∧ (∀ s : State, fwWorks s.dev = true → s.dev.fw.state = 2 →
       exec (.fwRecallWriteDone true) s = .next (
         if s.dev.fw.image.len ≤ (s.dev.sys.ticks - s.dev.fw.stateAt) * 2000 then
           s.put (fwState 3 0 { s.dev with fw := { s.dev.fw with
             recallImg := s.dev.fw.image, recallValid := true, whole := false } })
         else s)
       ∧ exec (.fwRecallWriteDone false) s = .next (s.put (fwAbandon 0x8E03 s.dev)))
     ∧ (∀ (starts : Bool) (u : Update) (s : State), s.dev.fw.update = some u → fwWorks s.dev = true → s.dev.fw.state = 3 →
       exec (.fwImageWriteDone false starts) s = .next (s.put (fwFinish 0x8E03 0 (fwState 6 5 s.dev)))
       ∧ (u.image.len ≤ (s.dev.sys.ticks - s.dev.fw.stateAt) * 2000 →
           exec (.fwImageWriteDone true starts) s = .next (s.put (
           let d := sbStop 3 (fwState 4 0 { s.dev with fw := { s.dev.fw with
             image := u.image, whole := true, left := u.secs * 1000, auto := u.auto, ran := 0 } })
           if starts = true ∧ imageAccepted s.otp u.image = true then fwFinish stOk u.image.version (runImage u.image d)
           else
             let x := draw 16 (fallBack 2 s.otp d)
             fwFinish x.1.toNat 0 x.2)))
       ∧ ((s.dev.sys.ticks - s.dev.fw.stateAt) * 2000 < u.image.len → exec (.fwImageWriteDone true starts) s = .next s))
     ∧ (∀ s : State, exec .fwAutoConfirm s = .next (
         if fwWorks s.dev = true ∧ s.dev.sb.up = true ∧ s.dev.fw.state = 4 ∧ s.dev.fw.auto = true ∧ 30000 ≤ s.dev.fw.ran
           ∧ s.dev.sys.mode ≠ .locked ∧ healthy s.otp s.dev = true then s.put (fwState 5 1 s.dev) else s))
     ∧ (∀ s : State, fwWorks s.dev = true → s.dev.sb.up = true → s.dev.fw.state = 5 → exec .fwConfirmOtpDone s = .next { s with
         otp := { s.otp with
                   floor := max s.otp.floor (min 512 s.dev.fw.image.floor)
                   revoked := s.otp.revoked ||| BitVec.ofNat 4 s.dev.fw.image.revoke }
         dev := maintEnd 0 (fwState 0 0 (dropStaleRecall s.dev.fw.image
           { s.dev with fw := { s.dev.fw with confirmed := satInc 32 s.dev.fw.confirmed, left := 0 } })) })
     ∧ (∀ s : State, fwWorks s.dev = true → s.dev.fw.state = 4 → s.dev.fw.left = 0 →
         exec .fwProbationExpiry s = .next (s.put (fallBack 2 s.otp s.dev)))
     ∧ (∀ s : State, fwWorks s.dev = true → s.dev.sb.up = true → s.dev.fw.state = 6 → exec .fwRestoreDone s = .next (
         if s.dev.fw.recallImg.len ≤ (s.dev.sys.ticks - s.dev.fw.stateAt) * 2000 then
           s.put (maintEnd 0 (fwState 0 6 { s.dev with fw := { s.dev.fw with
             image := s.dev.fw.recallImg, whole := true, left := 0 } }))
         else s)))

/-- A fall-back runs no image below the floor or of a revoked signer (R567, R568, R575): whatever the recall slot
holds, after it the device runs an accepted image, or is HALTED with cause 0x32, or was in LOCKED or a start that
halts later. -/
def Obligations.FallBackRunsAcceptedImage : Prop :=
  ∀ (outcome : Nat) (o : Otp) (d : Dev), d.sys.mode ≠ .halted →
    ((fallBack outcome o d).fw.running = d.fw.recallImg ∧ d.fw.recallValid = true ∧ o.floor ≤ d.fw.recallImg.sec
      ∧ signerAccepted o d.fw.recallImg.signer = true ∧ (fallBack outcome o d).sys.mode = d.sys.mode)
    ∨ ((fallBack outcome o d).sys.mode = .halted ∧ (fallBack outcome o d).sys.haltCause = 0x32
      ∧ (fallBack outcome o d).fw.running = d.fw.running)

/-- Power commands (R592, R594, R602 to R604): status, domains and curves answered, the shadow curve written, a swap
armed, warning thresholds set. Power happenings (R248, R585, R587, R591 to R594, R598, R599, R647): the stretch
follows the curve, sensors are trimmed and leave service, temperatures are read, domains come up, the lane reference
is lost, a rail dips, the reseed limit is reached. -/
def Obligations.PowerActs : Prop :=
  (Answers .pwrStatus cmdPwrStatus (fun o _ d => pmuStatus o d :: (List.range 4).map (pmuSect o d) ++ (List.range 4).map (pmuBelow d)
     ++ [d.pwr.temp0, d.pwr.temp1, d.pwr.power])
   ∧ Answers .pwrDomainGet cmdPwrDomainGet (fun o r d => [wd (flag (domainOn o d (rf r 0 8 0)) 31 + tgetD d.pwr.ups (rf r 0 8 0) 0)])
   ∧ Sets .pwrCurveWrite cmdPwrCurveWrite (fun _ r d => { d with pwr := { d.pwr with shadow := (List.range 9).map (rw r) } })
   ∧ Answers .pwrCurveRead cmdPwrCurveRead (fun _ r d => if bit (rw r 0) 31 then d.pwr.shadow else d.pwr.curve)
   ∧ Sets .pwrCurveCommit cmdPwrCurveCommit (fun _ _ d => { d with pwr := { d.pwr with armed := true, armedAt := d.sys.ticks } })
   ∧ Sets .pwrThermSet cmdPwrThermSet (fun _ r d => { d with pwr := { d.pwr with
       thrStack := rf r 0 15 8, thrJunction := rf r 0 7 0 } }))
  ∧ ((∀ (n dt : Nat) (readings : List Nat) (s : State), n < sectors s.otp → pmuRuns (passTime dt s.dev) = true →
       let d := passTime dt s.dev
       let sag := sagOf d n readings
       let up := setLevel n (max (powerOf d n).level (curveLevel d.pwr.curve sag)) sag d
       exec (.stretchRise n readings dt) s = .next (s.put up)
       ∧ exec (.stretchFall n readings dt) s = .next (s.put (
           if 1 ≤ (powerOf up n).level ∧ sag + curveHyst up.pwr.curve < curveDepth up.pwr.curve ((powerOf up n).level - 1)
             ∧ (powerOf up n).calmAt + curveHold up.pwr.curve ≤ rawNow up then setLevel n ((powerOf up n).level - 1) sag up
           else up)))
     ∧ (∀ s : State, s.dev.pwr.armed = true → pmuRuns s.dev = true → s.dev.pwr.armedAt < s.dev.sys.ticks →
         exec .pwrCurveSwap s = .next (s.put (
         let d := { s.dev with pwr := { s.dev.pwr with curve := s.dev.pwr.shadow, armed := false } }
         (List.range (sectors s.otp)).foldl
           (fun d n => setLevel n (curveLevel d.pwr.curve (powerOf d n).sag) (powerOf d n).sag d) d)))
     ∧ (∀ s : State, s.dev.pwr.armed = false ∨ s.dev.sys.ticks ≤ s.dev.pwr.armedAt → exec .pwrCurveSwap s = .next s)
     ∧ (∀ (r : SensorTick) (s : State), pmuRuns s.dev = true → r.sector < sectors s.otp → r.sensor < 16 →
         (sensorOf s.dev r.sector r.sensor).out = false →
         let x := sensorOf s.dev r.sector r.sensor
         let difference : Int := 750 - r.drop - r.reading
         let t := if x.trim < difference then x.trim + 1 else if difference < x.trim then x.trim - 1 else x.trim
         let t := max (-12) (min 12 t)
         exec (.sensorTrim [r]) s = .next (s.put (setSensor r.sector r.sensor { x with
           trim := t, limitTicks := if t = 12 ∨ t = -12 then x.limitTicks + 1 else 0, offTicks := 0 } s.dev)))
     ∧ (∀ (q r : SensorTick) (s : State), pmuRuns s.dev = true → r.sector < sectors s.otp → q.sector = r.sector →
         r.sensor < 16 → q.sensor < 16 → q.sensor ≠ r.sensor → (sensorOf s.dev r.sector r.sensor).out = false →
         (sensorOf s.dev q.sector q.sensor).out = false →
         let far := fun (a b : SensorTick) => decide (80 < a.reading - b.reading) || decide (80 < b.reading - a.reading)
         ∃ t, exec (.sensorTrim [q, r]) s = .next t
           ∧ (sensorOf t.dev r.sector r.sensor).offTicks
               = if far q r = true then (sensorOf s.dev r.sector r.sensor).offTicks + 1 else 0)
     ∧ (∀ (n i : Nat) (s : State), pmuRuns s.dev = true → n < sectors s.otp → i < 16 → (sensorOf s.dev n i).out = false →
         1000 ≤ (sensorOf s.dev n i).limitTicks ∨ 1000 ≤ (sensorOf s.dev n i).offTicks →
         exec (.sensorOutOfService n i) s = .next (s.put (
           let d := setSensor n i { sensorOf s.dev n i with out := true } s.dev
           let d := setPower n { powerOf d n with stretch := stretchFor d n (powerOf d n).level } d
           let d := withHw (fun d => { d with pwr := { d.pwr with event := d.pwr.event ||| 0x200#10 } }) d
           emit 0 0x0F81 (wd (n * 2 ^ 16 + i)) (wd (sensorsIn d n)) d)))
     ∧ (∀ (js ss : List Int) (w : Word) (s : State), pmuRuns s.dev = true → exec (.thermalRead js ss w) s = .next (s.put (
         let js := js.take (sectors s.otp)
         let ss := ss.take (sectors s.otp)
         let d := { s.dev with pwr := { s.dev.pwr with temp0 := tempWord js, temp1 := tempWord ss, power := w } }
         let d := (List.range js.length).foldl (fun d n => thermalOne false n (js.getD n 0) d) d
         (List.range ss.length).foldl (fun d n => thermalOne true n (ss.getD n 0) d) d)))
     ∧ (∀ (n dt at' : Nat) (s : State), domainIs s.otp n = true → pmuRuns s.dev = true → tget s.dev.pwr.ramps n = some at' →
         let d := passTime dt s.dev
         let up := countUp n { d with pwr := { d.pwr with ramps := tdel d.pwr.ramps n } }
         (domainAsked d n = false ∨ rawNow d < at' + powerUpTime n → exec (.domainPowerUpDone ⟨n, dt⟩) s = .next (s.put d))
         ∧ (domainAsked d n = true → at' + powerUpTime n ≤ rawNow d →
           (n < 128 → exec (.domainPowerUpDone ⟨n, dt⟩) s = .next (s.put up))
           ∧ (128 ≤ n → n < 272 → exec (.domainPowerUpDone ⟨n, dt⟩) s = .next (s.put (slicePowerUp (n - 128) s.otp up)))
           ∧ (272 ≤ n → exec (.domainPowerUpDone ⟨n, dt⟩) s
               = .next (s.put { up with pke := { up.pke with powered := true, idle := 0 } }))))
     ∧ (∀ (n : Nat) (s : State), domainIs s.otp n = true → pmuRuns s.dev = true → tget s.dev.pwr.ramps n = none →
         domainAsked s.dev n = true → ∃ t at', exec (.domainPowerUpDone ⟨n, 0⟩) s = .next t
           ∧ tget t.dev.pwr.ramps n = some at' ∧ rawNow s.dev ≤ at' ∧ (s.dev.pwr.recent.length < 8 → at' = rawNow s.dev)
           ∧ (∀ t8, s.dev.pwr.recent[7]? = some t8 → t8 + 1750 ≤ at'))
     ∧ (∀ s : State, pmuRuns s.dev = true → exec .lrefLoss s = .next (s.put (pathsRefresh ((List.range (lanes s.otp)).foldl
         (fun d n => lockLost 1 n s.otp (lockLost 0 n s.otp d)) { s.dev with pwr := { s.dev.pwr with lref := false } }))))
     ∧ (∀ (ls : List Nat) (fs : List ScrubFind) (s : State), pmuRuns s.dev = true → exec (.railDip ls fs) s = .next (s.put
         (fs.foldl (fun d f => scrub f s.otp d) (pathsRefresh (ls.foldl (fun d k => lockLost (k / 64) (k % 64) s.otp d) s.dev)))))
     ∧ (∀ s : State, pmuRuns s.dev = true → 2 ^ 32 - 1 ≤ s.dev.sl.keyDrbg.requests ∨ 2 ^ 32 - 1 ≤ s.dev.sl.lineDrbg.requests →
         exec .drbgReseedLimit s = .next (s.put (haltEntry 0x31 s.otp s.dev))))

/-- At every sector the throttle answers a sag at once (R592, R593, R598): after STRETCH_RISE the sector stands at
least at every used entry whose DEPTH the sag has reached, and with fewer than 4 sensors in service the stretch is at
least 1/16. -/
def Obligations.StretchMeetsTheCurve : Prop :=
  ∀ (n dt : Nat) (readings : List Nat) (s : State), n < sectors s.otp → pmuRuns (passTime dt s.dev) = true →
    let d := passTime dt s.dev
    let sag := sagOf d n readings
    ∃ t, exec (.stretchRise n readings dt) s = .next t
      ∧ (powerOf t.dev n).sag = sag ∧ curveLevel d.pwr.curve sag ≤ (powerOf t.dev n).level
      ∧ (powerOf d n).level ≤ (powerOf t.dev n).level
      ∧ ((powerOf t.dev n).level ≠ 0 → curveStretch d.pwr.curve ((powerOf t.dev n).level - 1) ≤ (powerOf t.dev n).stretch)
      ∧ (sensorsIn d n < 4 → 1 ≤ (powerOf t.dev n).stretch)
      ∧ (∀ m, m ≠ n → powerOf t.dev m = powerOf d m) ∧ t.dev.pwr.curve = d.pwr.curve
      ∧ t.dev.sys = d.sys ∧ t.otp = s.otp ∧ t.ram = s.ram ∧ t.pending = s.pending

/-- Telemetry commands and control writes (R606, R610, R612, R613, R619, R621): slot counters and snapshot lengths
answered, PCF_CTL and PCF_RING_RD written. Snapshots (R610 to R613): a due snapshot is latched, or lost where the ring
has no room or the previous one is still being written; it is in the ring when its last byte is written, and a failed
write stops snapshots. -/
def Obligations.TelemetryActs : Prop :=
  (Answers .telSlotGet cmdTelSlotGet (fun _ r d =>
     let x := slotOf d (rf r 0 7 0)
     let starved := slotCycles d (rf r 0 7 0) - x.delivered - x.wasted - x.blocked
     [BitVec.ofNat 64 x.delivered, BitVec.ofNat 64 x.wasted, BitVec.ofNat 64 x.blocked, BitVec.ofNat 64 starved].flatMap two)
   ∧ Answers .telSnapInfo cmdTelSnapInfo (fun _ r d => [wd (pad64 (64 + ((sectionsOf (rw r 0)).map (fun i => 16 + sectionSize i)).sum)),
       wd (min 0xFFFFFFFF (d.tel.loadLast * 1000 / 2 ^ d.tel.gleanKNow))])
   ∧ (∀ (v : Word) (s : State), bar2Up s.dev = true →
       let n := max 1 (fld v 15 0)
       let k := min 24 (max 8 (fld v 28 24))
       exec (.pcfSnapNowWrite v) s = .next (s.put { s.dev with tel := { s.dev.tel with
           snapEn := bit v 31, snapNow := true, gleanEn := bit v 29, gleanK := k, snapN := n
           ticks := if (bit v 31 = true ∧ s.dev.tel.snapEn = false) ∨ n ≠ s.dev.tel.snapN then 0 else s.dev.tel.ticks } })
       ∧ exec (.pcfSnapEnWrite v) s = .next (s.put { s.dev with tel := { s.dev.tel with
           snapEn := true, snapNow := s.dev.tel.snapNow || bit v 30, gleanEn := bit v 29, gleanK := k, snapN := n
           ticks := if s.dev.tel.snapEn = false ∨ n ≠ s.dev.tel.snapN then 0 else s.dev.tel.ticks } })
       ∧ exec (.pcfRingRdWrite v) s = .next (if (s.dev.tel.ringWr - v).toNat ≤ s.dev.tel.ringSize.toNat then
           s.put { s.dev with tel := { s.dev.tel with ringRd := v } } else s)))
  ∧ ((∀ s : State, s.dev.tel.due = true → s.dev.sys.mode ≠ .halted →
       let t := { s.dev.tel with due := false, snapNow := false, seq := s.dev.tel.seq + 1 }
       let b := snapshotBytes s.otp { s.dev with tel := t }
       let full := t.ringSize.toNat < telUsed t + telSkip t b.length + b.length
       (t.writing.isSome = true → exec .snapshotLatch s = .next (s.put (withHw (fun d => { d with tel :=
           { snapLost 2 t with records := [] } }) s.dev)))
       ∧ (t.writing = none → full → exec .snapshotLatch s = .next (s.put (withHw (fun d => { d with tel :=
           { snapLost 1 t with records := [] } }) s.dev)))
       ∧ (t.writing = none → ¬full → exec .snapshotLatch s = .next (s.put (
           let d := if telSkip t b.length = 0 then s.dev
             else out (.hostWrite (telBase t + telOffset t) (wordBytes [0x5A575250#32])) s.dev
           { d with tel := { t with records := [], writing := some b, ringWr := t.ringWr + wd (telSkip t b.length) } }))))
     ∧ (∀ (b : Bytes) (s : State), s.dev.tel.writing = some b →
       let t := { s.dev.tel with writing := none }
       exec (.snapshotWritten true) s = .next (s.put (withHw (fun d => { d with tel := { t with
           ringWr := t.ringWr + wd b.length, event := t.event ||| 1
           lostR7 := t.lostR7 - leAt b 30 2, lostS7 := t.lostS7 - leAt b 28 2 } })
             (out (.hostWrite (telBase t + telOffset t) b) s.dev)))
       ∧ exec (.snapshotWritten false) s = .next (s.put (withHw (fun d => { d with tel := { snapLost 3 t with
           snapEn := false, event := t.event ||| 10 } }) s.dev))))

/-- DMA channels (R614, R617, R618, R620): START makes an idle channel pending, STOP ends a running or pending one
with error 7, the lowest pending channel runs, and a channel that ends has its event bit and its error. -/
def Obligations.DmaChannelsAct : Prop :=
  (∀ (c : Nat) (v : Word) (s : State), bar2Up s.dev = true → c < 8 →
    let ctl := (v &&& 0x2CFF0000#32) ||| wd (max 1 (fld v 10 0))
    ((dmaOf s.dev c).state = 0 →
      exec (.dmaStartWrite c v) s = .next (s.put { s.dev with tel := { s.dev.tel with
        dma := tset (tset s.dev.tel.dma c { dmaOf s.dev c with ctl := ctl }) c { dmaOf s.dev c with ctl := ctl, state := 1 } } }))
    ∧ ((dmaOf s.dev c).state ≠ 0 →
      exec (.dmaStopWrite c v) s = .next (s.put (dmaEnd c 7 (setDma c { dmaOf s.dev c with ctl := ctl } s.dev)))))
  ∧ (∀ (host : HostMem) (cut : Option Nat) (c : Nat) (s : State), dmaWorks s.dev = true → dmaNext s.dev = some c →
      exec (.dmaChannelRun host cut) s = .next (
        let x := dmaGo ⟨host, s.ram, s.dev, c, { dmaOf s.dev c with state := 2, hops := 0, done := 0 }, cut, 0⟩
        { s with
          ram := x.ram
          dev := setDma c { x.chan with outcome := x.err } x.dev }))
  ∧ (∀ (c : Nat) (s : State), c < 8 → (dmaOf s.dev c).state = 2 →
      let e := (dmaOf s.dev c).outcome
      exec (.dmaChannelDone c) s = .next (s.put (withHw (fun d =>
        let d := setDma c { dmaOf d c with state := 0, err := e } d
        { d with tel := { d.tel with dmaEvent := d.tel.dmaEvent ||| BitVec.ofNat 16 (2 ^ (if e = 0 then c else 8 + c)) } }) s.dev)))

/-- The accesses of a side (R615): they cover its bytes once and in order, none is longer than 256 bytes or crosses a
4 KiB boundary, and one of 8 bytes or more is aligned to 8. DMA stays in its window (R354, R616): whatever the records
and the host say, a run changes no byte of the window memory that lies outside region 5 or beyond its quota, and no
region's keys or quota. -/
def Obligations.DmaStaysInItsWindow : Prop :=
  (∀ (a n : Nat), ((accesses n a n 0).map (·.2)).sum = n
     ∧ (∀ l r c, accesses n a n 0 = l ++ c :: r → c.1 = (l.map (·.2)).sum)
     ∧ (∀ c ∈ accesses n a n 0, 1 ≤ c.2 ∧ c.2 ≤ 256 ∧ (a + c.1) % 4096 + c.2 ≤ 4096 ∧ (8 ≤ c.2 → (a + c.1) % 8 = 0 ∧ c.2 % 8 = 0)))
  ∧ (∀ (host : HostMem) (cut : Option Nat) (s : State), Memory.wf s.ram = true → ∃ t, exec (.dmaChannelRun host cut) s = .next t
       ∧ (∀ a, windowOk s.dev a 1 = false → t.byte a = s.byte a)
       ∧ t.dev.grn.regions = s.dev.grn.regions ∧ t.dev.kc = s.dev.kc ∧ t.dev.ks = s.dev.ks ∧ t.dev.sys = s.dev.sys
       ∧ t.otp = s.otp ∧ t.pending = s.pending)

/-- The tick boundary (R648, R649): where the TU runs, time comes to the boundary and the tick's counts, events and
settings are carried over, in this order; HALTED only counts time. -/
def Obligations.TickCarriesTheDevice : Prop :=
  ∀ (xs : List LaneTick) (s : State),
    (tuRuns s.dev = false → exec (.tickBoundary xs) s = .next s)
    ∧ (tuRuns s.dev = true → s.dev.sys.mode = .halted → ∃ t, exec (.tickBoundary xs) s = .next t
        ∧ t.dev.sys.ticks = s.dev.sys.ticks + 1 ∧ t.dev.sys.sub = max 1750000 s.dev.sys.sub - 1750000
        ∧ t.dev.sys.mode = .halted ∧ t.dev.kc = s.dev.kc ∧ t.dev.ks = s.dev.ks ∧ t.otp = s.otp ∧ t.ram = s.ram)
    ∧ (tuRuns s.dev = true → s.dev.sys.mode ≠ .halted → exec (.tickBoundary xs) s = .next (s.put (
        let d := sleepTick (boundary s.dev)
        let d := authBursts (flushTickEvents (ptpRxCount (lanesTick s.otp xs d)))
        let d := chainPreload (schTick (dspTick s.otp (timeSettings d)))
        let d := fmTick (kaTick (encodeNow d))
        let d := recalTick (fwTick (grnTick d))
        pathsTick (telTick (powerTick s.otp (countdowns d))))))

/-- Each form of frame mode and of the Dispatcher completes (R145 to R157, R316, R324, R329, R332 to R339, R587): a
request that passes its checks is answered, ST_OK or ST_ACCEPTED, and its effect stands in the next state; an armed
rule swap and a committed placement table take effect at the tick boundary after their commit, a move goes from its
start through switch-over to its drain, a stripe width doubles, relief starts and ends, an idle slice is powered down.
A hint is asked for within the limits of R319 and R336. -/
def Obligations.FrameModeAndDispatcherFormsComplete : Prop :=
  (Completes .fmPortBind cmdFmPortBind stOk (fun _ _ => []) (fun r _ e =>
     tget e.fm.pairs (rf r 0 29 24) = some ⟨rf r 0 21 16, bit (rw r 1) 0, PtpSet.init, none, List.replicate 6 0⟩)
   ∧ Completes .fmPortUnbind cmdFmPortUnbind stOk (fun _ _ => []) (fun r _ e => tget e.fm.pairs (rf r 0 29 24) = none)
   ∧ (∀ (r : NcsReq) (s : State), Passes cmdFmSecyCreate r s → ∃ t y sc x, exec (.fmSecyCreate r) s = .next t
       ∧ Answered r stOk [BitVec.ofNat 32 y, BitVec.ofNat 32 sc] s t
       ∧ tget s.dev.fm.secys y = none ∧ tget t.dev.fm.secys y = some x ∧ x.line = rf r 0 21 16 ∧ x.owner = rf r 0 7 0
       ∧ x.policy = rw r 1 ∧ x.window = (rw r 2).toNat ∧ x.txSc = sc ∧ x.vlan = reqVlan r
       ∧ tget t.dev.fm.scs sc = some ⟨y, true, reqSci r 3, List.replicate 3 0, 0, none⟩)
   ∧ Completes .fmSecySet cmdFmSecySet stOk (fun _ _ => []) (fun r d e => ∀ y, tget d.fm.secys (rf r 0 13 0) = some y →
       tget e.fm.secys (rf r 0 13 0) = some { y with policy := rw r 1, window := (rw r 2).toNat })
   ∧ Completes .fmSecyDelete cmdFmSecyDelete stAccepted (fun _ _ => []) (fun r _ e =>
       tget e.fm.secys (rf r 0 13 0) = none ∧ ∃ n l, e.fm.deletes = l ++ [(r.page, r.tag, n)])
   ∧ (∀ (r : NcsReq) (s : State), Passes cmdFmScCreate r s → ∃ t c, exec (.fmScCreate r) s = .next t
       ∧ Answered r stOk [BitVec.ofNat 32 c] s t
       ∧ tget t.dev.fm.scs c = some ⟨rf r 0 13 0, false, reqSci r 1, List.replicate 8 0, 0, none⟩)
   ∧ Completes .fmScDelete cmdFmScDelete stOk (fun _ _ => []) (fun r _ e => tget e.fm.scs (rf r 0 17 0) = none)
   ∧ Completes .fmStatsGet cmdFmStatsGet stOk (fun r d => ((statsOf d r).getD []).flatMap two) (fun _ d e => e.fm = d.fm)
   ∧ Completes .fmPtpSet cmdFmPtpSet stOk (fun _ _ => []) (fun r d e => ∀ c p, clientOfLine d (rf r 0 21 16) = some c →
       tget d.fm.pairs c = some p → tget e.fm.pairs c = some { p with ptpNext := some (ptpOf r) })
   ∧ Completes .fmBypassSet cmdFmBypassSet stOk (fun _ _ => []) (fun r _ e =>
       e.fm.bypassNext = some (rf r 0 15 0, bit (rw r 0) 16))
   ∧ Completes .fmPnThresholdSet cmdFmPnThresholdSet stOk (fun _ _ => []) (fun r d e =>
       (∀ x ∈ d.kc.sas, x.2.pn < (rw r 1).toNat ∧ x.2.pn < (rw r 2).toNat) →
         ∀ y, tget d.fm.secys (rf r 0 13 0) = some y → tget e.fm.secys (rf r 0 13 0)
           = some { y with thr := (rw r 1).toNat, thrX := (rw r 2).toNat })
   ∧ Completes .fmRuleWrite cmdFmRuleWrite stOk (fun _ _ => []) (fun r _ e => ∀ i, i < (rw r 1).toNat →
       tget (rulesOf e (rf r 0 17 16)).shadow (rf r 0 13 0 + i) = some ((List.range 8).map (fun j => rw r (2 + 8 * i + j))))
   ∧ Completes .fmRuleRead cmdFmRuleRead stOk (fun r d => (List.range (rw r 1).toNat).flatMap (fun i =>
       tgetD (if bit (rw r 0) 31 then (rulesOf d (rf r 0 17 16)).shadow else (rulesOf d (rf r 0 17 16)).active)
         (rf r 0 13 0 + i) (List.replicate 8 0))) (fun _ d e => e.fm = d.fm)
   ∧ Completes .fmRuleCommit cmdFmRuleCommit stOk (fun r d => [(rulesOf d (rf r 0 1 0)).generation + 1]) (fun r d e =>
       (rulesOf e (rf r 0 1 0)).armed = true ∧ (rulesOf e (rf r 0 1 0)).armedAt = d.sys.ticks)
   ∧ (∀ (n : Nat) (s : State), (rulesOf s.dev n).armed = true → (rulesOf s.dev n).armedAt < s.dev.sys.ticks →
       ∃ t, exec (.ruleSwap n) s = .next t ∧ (rulesOf t.dev n).active = (rulesOf s.dev n).shadow
         ∧ (rulesOf t.dev n).generation = (rulesOf s.dev n).generation + 1 ∧ (rulesOf t.dev n).armed = false
         ∧ t.otp = s.otp ∧ t.ram = s.ram ∧ t.pending = s.pending))
  ∧ (Completes .dspGroupGet cmdDspGroupGet stOk (fun r d => groupWords d (rf r 0 7 0)) (fun _ d e => e.dsp = d.dsp)
     ∧ Completes .dspPlaceGet cmdDspPlaceGet stOk (fun r d => placeWords d (ow (rw r 0))) (fun _ d e => e.dsp = d.dsp)
     ∧ Completes .dspStatsGet cmdDspStatsGet stOk (fun _ d => dspStats d) (fun _ d e => e.dsp = d.dsp)
     ∧ Completes .dspHintGet cmdDspHintGet stOk (fun r d => [hintWord d r]) (fun _ d e => e.dsp = d.dsp)
     ∧ (∀ (r : NcsReq) (s : State), Passes cmdDspHintSet r s → s.dev.kc.sas.length ≤ 16384 → s.dev.dsp.avoid.length < 32 →
         ∃ t, exec (.dspHintSet r) s = .next t ∧ Answered r stOk [] s t
           ∧ (rf r 0 31 28 = 1 → t.dev.dsp.pins.contains (ow (rw r 1)) = bit (rw r 0) 27))
     ∧ Completes .dspTableWrite cmdDspTableWrite stOk (fun _ _ => []) (fun r d e => e.dsp.shadow
         = (recordsOf r).foldl (fun t x => tset t (fld (x.getD 0 0) 7 0) x) d.dsp.shadow)
     ∧ Completes .dspTableRead cmdDspTableRead stOk (fun r d =>
         (tgetD (if bit (rw r 0) 31 then d.dsp.shadow else d.dsp.active) (rf r 0 7 0) [0, 0, 0]).take 3)
         (fun _ d e => e.dsp = d.dsp)
     ∧ Completes .dspTableCommit cmdDspTableCommit stAccepted (fun _ _ => []) (fun r d e =>
         e.dsp.commit = some (r.page, r.tag, false, 0) ∧ e.dsp.commitAt = d.sys.ticks)
     ∧ Completes .dspParamWrite cmdDspParamWrite stOk (fun _ _ => []) (fun r _ e => e.dsp.prmNext = some (rw r 0, rw r 1))
     ∧ Completes .dspParamRead cmdDspParamRead stOk (fun _ d => match d.dsp.prmNext with
         | some p => [p.1, p.2]
         | none => [d.dsp.prm0, d.dsp.prm1]) (fun _ d e => e.dsp = d.dsp)
     ∧ (∀ (p tag x : Nat) (s : State), s.dev.dsp.commit = some (p, tag, false, x) → s.dev.dsp.commitAt < s.dev.sys.ticks →
         ∃ t, exec .dspTableSwap s = .next t ∧ t.dev.dsp.active = s.dev.dsp.shadow)
     ∧ (∀ (id : Nat) (m : Move) (s : State), moveOf s.dev id = some m → m.phase = 0 → moveBlocked s.dev id m = false →
         moveLocked s.dev m = false → tgetD s.dev.dsp.started (moveSector m) 0 < fld s.dev.dsp.prm0 7 0 →
         (∀ n ∈ moveTargets s.dev m, slicePowered s.dev n = true) →
         ∃ t, exec (.moveStart id) s = .next t ∧ moveOf t.dev id = some { m with phase := 1 }
           ∧ tgetD t.dev.dsp.started (moveSector m) 0 = tgetD s.dev.dsp.started (moveSector m) 0 + 1)
     ∧ (∀ (id : Nat) (m : Move) (s : State), moveOf s.dev id = some m → m.phase = 1 →
         (∀ n ∈ moveTargets s.dev m, ∀ c ∈ (sliceOf s.dev n).ctxs, c.ready = true ∨ c.sa ∉ moveSas s.dev m) →
         ∃ t, exec (.moveSwitchover id) s = .next t ∧ moveOf t.dev id = some { m with phase := 2, marker := s.dev.fm.nextFlight }
           ∧ (∀ k w b, m.obj = some (k, w, b) → (spreadOf t.dev k).s = w ∧ (spreadOf t.dev k).b = b)
           ∧ (∀ g, m.obj = none → tget s.dev.dsp.groups m.group = some g →
               (tget t.dev.dsp.groups m.group).map (·.slices) = some (g.slices.set m.pos m.dst)))
     ∧ (∀ (id : Nat) (m : Move) (s : State), moveOf s.dev id = some m → m.phase = 2 → draining s.dev m = false →
         ∃ t, exec (.moveDrainComplete id) s = .next t ∧ moveOf t.dev id = none
           ∧ t.dev.dsp.movesDone = s.dev.dsp.movesDone + 1)
     ∧ (∀ (k g : Nat) (s : State), objGroup s.dev k = some g → g < 128 → (tget s.dev.dsp.groups g).isSome = true →
         (tget s.dev.dsp.spreads k).isSome = true → s.dev.dsp.pins.contains k = false →
         s.dev.dsp.moves.any (fun p => p.2.obj.map (·.1) == some k) = false → 2 ≤ (spreadOf s.dev k).above →
         (spreadOf s.dev k).s * 2 ≤ groupW s.dev g →
         ∃ t m b, exec (.stripeWidthChange k) s = .next t ∧ moveOf t.dev s.dev.dsp.nextMove = some m ∧ m.group = g
           ∧ m.obj = some (k, (spreadOf s.dev k).s * 2, b) ∧ m.phase = 0)
     ∧ (∀ (n : Nat) (s : State), n < sectors s.otp → (reliefOf s.dev n).on = false → 2 ≤ (reliefOf s.dev n).above →
         ∃ t, exec (.droopReliefStart n) s = .next t ∧ (reliefOf t.dev n).on = true ∧ (reliefOf t.dev n).calm = 0)
     ∧ (∀ (n : Nat) (s : State), (reliefOf s.dev n).on = true → fld s.dev.dsp.prm1 15 0 ≤ (reliefOf s.dev n).calm →
         ∃ t, exec (.droopReliefEnd n) s = .next t ∧ (reliefOf t.dev n).on = false ∧ (reliefOf t.dev n).moved = [])
     ∧ (∀ (n : Nat) (s : State), (sliceOf s.dev n).state = 1 → isSiding n = false → 100 ≤ (sliceOf s.dev n).idle →
         sliceUnused s.dev n = true → unclaimed s.dev n = true →
         ∃ t, exec (.sliceIdlePowerDown n) s = .next t ∧ (sliceOf t.dev n).state = 0 ∧ (sliceOf t.dev n).ctxs = []
           ∧ (sliceOf t.dev n).seeded = false))
end

