-- ==== Sys2Proof/Laws/Table.lean ====
section
/-!
SUPPORT. Sparse tables: reading what was put, at its number and elsewhere.
-/
namespace Sys2Proof.Machine

theorem tget_tset_same {α : Type} (t : Table α) (k : Nat) (a : α) : tget (tset t k a) k = some a := by
  induction t with
  | nil => simp [tset, tget]
  | cons x t ih =>
    obtain ⟨i, b⟩ := x
    unfold tset
    split
    · simp [tget]
    · split
      · simp [tget]
      · rename_i h1 h2
        simp [tget, h2, ih]
        omega

theorem tgetD_tset_same {α : Type} (t : Table α) (k : Nat) (a d : α) : tgetD (tset t k a) k d = a := by
  simp [tgetD, tget_tset_same]

theorem tget_tset_other {α : Type} (t : Table α) {k j : Nat} (hj : j ≠ k) (a : α) :
    tget (tset t k a) j = tget t j := by
  induction t with
  | nil => simp only [tset, tget]; split <;> (try split) <;> (try rfl) <;> omega
  | cons x t ih =>
    obtain ⟨i, b⟩ := x
    unfold tset
    split
    · rename_i hk
      by_cases hjk : j < k
      · have h2 : tget ((i, b) :: t) j = none := by
          simp only [tget]; rw [if_neg (by omega), if_pos (by omega)]
        rw [h2]; simp only [tget]; rw [if_neg (by omega), if_pos hjk]
      · conv => lhs; unfold tget
        rw [if_neg (by omega), if_neg hjk]
    · split
      · rename_i hk; subst hk
        simp [tget, Ne.symm hj]
      · simp only [tget]
        rw [ih]

theorem tgetD_tset_other {α : Type} (t : Table α) {k j : Nat} (hj : j ≠ k) (a d : α) :
    tgetD (tset t k a) j d = tgetD t j d := by
  simp [tgetD, tget_tset_other t hj]

/-- A map over the entries of a table shows at every number. -/
theorem tget_map {α : Type} (f : α → α) (k : Nat) (t : Table α) :
    tget (t.map (fun p => (p.1, f p.2))) k = (tget t k).map f := by
  induction t with
  | nil => rfl
  | cons a t ih =>
    obtain ⟨i, x⟩ := a
    simp only [List.map_cons, tget]
    split
    · rfl
    · split
      · rfl
      · exact ih

/-- What a table holds at a number stands among its numbers. -/
theorem tget_key {α : Type} (t : Table α) (k : Nat) (x : α) (h : tget t k = some x) : k ∈ t.map (·.1) := by
  induction t with
  | nil => cases h
  | cons a t ih =>
    obtain ⟨i, b⟩ := a
    simp only [tget] at h
    split at h
    · rename_i hk; simp [hk]
    · split at h
      · cases h
      · simp only [List.map_cons, List.mem_cons]; exact .inr (ih h)

end Sys2Proof.Machine
end

