-- ==== Sys2Proof/Laws/Memory.lean ====
section
/-!
SUPPORT. The window memory: every operation on it keeps the canonical form, a byte put is the byte read, every other
byte reads as before.
-/
namespace Sys2Proof.Machine

theorem wfFrom_mono {m : List Host.Cell} {a b : Nat} (h : Memory.wfFrom b m = true) (hab : a ≤ b) :
    Memory.wfFrom a m = true := by
  cases m with
  | nil => rfl
  | cons x t =>
    obtain ⟨i, v⟩ := x
    simp only [Memory.wfFrom, Bool.and_eq_true, decide_eq_true_eq] at h ⊢
    exact ⟨⟨by omega, h.1.2⟩, h.2⟩

theorem wfFrom_tset {m : List Host.Cell} {lo k : Nat} {b : Byte} (h : Memory.wfFrom lo m = true) (hk : lo ≤ k)
    (hb : b ≠ 0) : Memory.wfFrom lo (tset m k b) = true := by
  induction m generalizing lo with
  | nil => simpa [tset, Memory.wfFrom, hk] using hb
  | cons x t ih =>
    obtain ⟨i, v⟩ := x
    simp only [Memory.wfFrom, Bool.and_eq_true, decide_eq_true_eq] at h
    unfold tset
    split
    · rename_i hlt
      simp only [Memory.wfFrom, Bool.and_eq_true, decide_eq_true_eq]
      exact ⟨⟨hk, by simpa using hb⟩, ⟨by omega, h.1.2⟩, h.2⟩
    · split
      · rename_i he; subst he
        simp only [Memory.wfFrom, Bool.and_eq_true, decide_eq_true_eq]
        exact ⟨⟨hk, by simpa using hb⟩, h.2⟩
      · simp only [Memory.wfFrom, Bool.and_eq_true, decide_eq_true_eq]
        exact ⟨h.1, ih h.2 (by omega)⟩

theorem wfFrom_tdel {m : List Host.Cell} {lo k : Nat} (h : Memory.wfFrom lo m = true) :
    Memory.wfFrom lo (tdel m k) = true := by
  induction m generalizing lo with
  | nil => rfl
  | cons x t ih =>
    obtain ⟨i, v⟩ := x
    simp only [Memory.wfFrom, Bool.and_eq_true, decide_eq_true_eq] at h
    simp only [tdel, List.filter_cons]
    split
    · simp only [Memory.wfFrom, Bool.and_eq_true, decide_eq_true_eq]
      exact ⟨h.1, ih h.2⟩
    · exact wfFrom_mono (ih h.2) (by omega)

/-- Putting a byte keeps the canonical form. -/
theorem ramSet_wf {m : List Host.Cell} (h : Memory.wf m = true) (a : Nat) (b : Byte) : Memory.wf (ramSet m a b) = true := by
  unfold ramSet
  split
  · exact wfFrom_tdel h
  · exact wfFrom_tset h (Nat.zero_le a) (by assumption)

/-- Putting a byte string keeps the canonical form. -/
theorem ramPut_wf {m : List Host.Cell} (h : Memory.wf m = true) (a : Nat) (bs : Bytes) : Memory.wf (ramPut m a bs) = true := by
  induction bs generalizing m a with
  | nil => exact h
  | cons b t ih => exact ih (ramSet_wf h a b) (a + 1)

theorem tdel_get (m : List Host.Cell) (k : Nat) : tget (tdel m k) k = none := by
  induction m with
  | nil => rfl
  | cons x t ih =>
    obtain ⟨i, v⟩ := x
    simp only [tdel, List.filter_cons]
    split
    · rename_i h
      have : i ≠ k := by simpa using h
      simp only [tget]; rw [if_neg this]; split
      · rfl
      · exact ih
    · exact ih

theorem tget_low {m : List Host.Cell} {lo n : Nat} (h : Memory.wfFrom lo m = true) (hn : n < lo) : tget m n = none := by
  cases m with
  | nil => rfl
  | cons x t =>
    obtain ⟨i, v⟩ := x
    simp only [Memory.wfFrom, Bool.and_eq_true, decide_eq_true_eq] at h
    simp only [tget]; rw [if_neg (by omega), if_pos (by omega)]

theorem tdel_other {m : List Host.Cell} {lo : Nat} (h : Memory.wfFrom lo m = true) {k n : Nat} (hn : n ≠ k) : tget (tdel m k) n = tget m n := by
  induction m generalizing lo with
  | nil => rfl
  | cons x t ih =>
    obtain ⟨i, v⟩ := x
    simp only [Memory.wfFrom, Bool.and_eq_true, decide_eq_true_eq] at h
    simp only [tdel, List.filter_cons]
    split
    · simp only [tget]; rw [show tget (List.filter (fun p => p.1 != k) t) n = tget t n from ih h.2]
    · rename_i hh
      have : i = k := by simpa using hh
      subst this
      simp only [tget]; rw [if_neg (Ne.symm hn)]
      rw [show tget (List.filter (fun p => p.1 != i) t) n = tget t n from ih h.2]
      split
      · exact tget_low h.2 (by omega)
      · rfl

/-- A byte put is the byte read; every other byte reads as before. -/
theorem ramSet_get {m : List Host.Cell} (h : Memory.wf m = true) (k n : Nat) (b : Byte) :
    ramByte (ramSet m k b) n = if n = k then b else ramByte m n := by
  unfold ramByte ramSet tgetD
  split
  · rename_i hb
    split
    · rename_i hk; subst hk; rw [tdel_get]; simp [hb]
    · rename_i hk; rw [tdel_other h hk]
  · split
    · rename_i hk; subst hk; rw [tget_tset_same]; rfl
    · rename_i hk; rw [tget_tset_other m hk]

end Sys2Proof.Machine
end

