-- ==== Sys2Proof/Laws/Dma.lean ====
section
/-!
SUPPORT. A run of the DMA engine keeps the canonical form of the window memory.
-/
namespace Sys2Proof.Machine

theorem sideWrite_wf (x : DmaRun) (window : Bool) (a : Nat) (b : Bytes) (h : Memory.wf x.ram = true) :
    Memory.wf (sideWrite x window a b).ram = true := by
  unfold sideWrite
  split
  · exact ramPut_wf h a b
  · exact h

theorem dmaStep_wf (sw dw : Bool) (src dst : Nat) (bad : Option (Nat × Nat × Nat)) (x : DmaRun) (c : Nat × Nat)
    (h : Memory.wf x.ram = true) : Memory.wf (dmaStep sw dw src dst bad x c).ram = true := by
  unfold dmaStep
  split
  · exact h
  · split
    · exact h
    · split
      · exact h
      · simp only []
        split
        · exact h
        · exact sideWrite_wf x dw _ _ h

theorem dmaMove_wf (sw dw : Bool) (src dst count : Nat) (x : DmaRun) (h : Memory.wf x.ram = true) :
    Memory.wf (dmaMove sw dw src dst count x).ram = true := by
  unfold dmaMove
  simp only []
  generalize accesses count dst count 0 = l
  generalize sourceFail _ sw src count = bad
  have hx : Memory.wf ({ x with chan := { x.chan with src := src, dst := dst, count := count, done := 0 } } : DmaRun).ram = true := h
  revert hx
  generalize ({ x with chan := { x.chan with src := src, dst := dst, count := count, done := 0 } } : DmaRun) = y
  intro hy
  induction l generalizing y with
  | nil => exact hy
  | cons c t ih => exact ih _ (dmaStep_wf sw dw src dst bad y c hy)

theorem recordDone_wf (a : Nat) (x : DmaRun) (h : Memory.wf x.ram = true) : Memory.wf (recordDone a x).ram = true := by
  unfold recordDone
  simp only []
  split
  · exact h
  · split
    · exact h
    · split <;> exact h

theorem dmaChain_wf (n a : Nat) (x : DmaRun) (h : Memory.wf x.ram = true) : Memory.wf (dmaChain n a x).ram = true := by
  induction n generalizing a x with
  | zero => exact h
  | succ n ih =>
    unfold dmaChain
    simp only []
    split
    · exact h
    · split
      · exact h
      · split
        · exact h
        · split
          · exact h
          · split
            · exact h
            · have hd := recordDone_wf a _ (dmaMove_wf (bit ((recordWords x.mem a).getD 5 0) 3) (bit ((recordWords x.mem a).getD 5 0) 2)
                (pairAt (recordWords x.mem a) 0) (pairAt (recordWords x.mem a) 2) ((recordWords x.mem a).getD 4 0).toNat (dmaSpend x) h)
              split
              · exact hd
              · exact ih _ _ hd

/-- A run keeps the canonical form. -/
theorem dmaRun_wf (host : HostMem) (cut : Option Nat) (o : Otp) (ram : List Host.Cell) (d : Dev)
    (h : Memory.wf ram = true) : Memory.wf (dmaRun host cut o ram d).2.1 = true := by
  unfold dmaRun
  split
  · exact h
  · simp only [dmaGo]
    split
    · exact dmaChain_wf _ _ _ h
    · exact dmaMove_wf _ _ _ _ _ _ h

end Sys2Proof.Machine
end

