-- ==== Sys2Proof/Laws/Ops.lean ====
section
/-!
SUPPORT. What the shared operations of NCS can touch: messages, events, responses, accepted commands and the latching of
a request change the Signal box's part of the device and what leaves it, nothing else.
-/
namespace Sys2Proof.Machine

/-- A device that differs from another in the Signal box's part and in what has left it alone. -/
def OnlySb (a b : Dev) : Prop := b = { a with sb := b.sb, outs := b.outs }

theorem OnlySb.refl (d : Dev) : OnlySb d d := rfl

theorem OnlySb.trans {a b c : Dev} (h : OnlySb a b) (k : OnlySb b c) : OnlySb a c := by
  unfold OnlySb at *
  rw [k, h]

theorem setPage_only (p : Nat) (g : Page) (d : Dev) : OnlySb d (setPage p g d) := rfl

theorem raise_only (v : Nat) (d : Dev) : OnlySb d (raise v d) := by
  unfold raise
  split <;> rfl

theorem emitTag_only (p evt tag : Nat) (w2 w3 : Word) (d : Dev) : OnlySb d (emitTag p evt tag w2 w3 d) := by
  unfold emitTag
  simp only []
  split
  · rfl
  · split
    · exact (setPage_only _ _ d).trans (raise_only _ _)
    · rfl

theorem emit_only (p evt : Nat) (w2 w3 : Word) (d : Dev) : OnlySb d (emit p evt w2 w3 d) := emitTag_only p evt 0 w2 w3 d

theorem emitOn_only (ps : List Nat) (evt : Nat) (w2 w3 : Word) (d : Dev) : OnlySb d (emitOn ps evt w2 w3 d) := by
  unfold emitOn
  induction ps generalizing d with
  | nil => rfl
  | cons p t ih => exact (emit_only p evt w2 w3 d).trans (ih _)

theorem emitAll_only (evt : Nat) (w2 w3 : Word) (d : Dev) : OnlySb d (emitAll evt w2 w3 d) :=
  emitOn_only (List.range 65) evt w2 w3 d

theorem respond_only (p tag st : Nat) (pl : List Word) (d : Dev) : OnlySb d (respond p tag st pl d) := by
  unfold respond
  simp only []
  split
  · rfl
  · split
    · exact (setPage_only _ _ d).trans (raise_only _ _)
    · rfl

theorem accept_only (p tag code : Nat) (d : Dev) : OnlySb d (accept p tag code d) := rfl

theorem finish_only (p tag code st : Nat) (w3 : Word) (d : Dev) : OnlySb d (finish p tag code st w3 d) := by
  unfold finish
  simp only []
  split
  · split
    · exact (setPage_only _ _ d).trans (emitTag_only _ _ _ _ _ _)
    · rfl
  · rfl

theorem latchReq_only (c : Nat) (r : NcsReq) (d : Dev) : OnlySb d (latchReq c r d) := by
  unfold latchReq
  split <;> rfl

theorem pickUp_only (p : Nat) (d : Dev) : OnlySb d (pickUp p d) := rfl

theorem turnAway_only (p : Nat) (d : Dev) : OnlySb d (turnAway p d) := by
  unfold turnAway
  split <;> rfl

theorem setSbUp_only (u : Bool) (d : Dev) : OnlySb d (setSbUp u d) := by
  unfold setSbUp
  split
  · rfl
  · have h : ∀ (l : List Nat) (x : Dev), OnlySb x (l.foldl (fun d p =>
        let g := pageOf d p
        let d' := setPage p { g with sbChg := true } d
        if g.maskSb then d' else raise p d') x) := by
      intro l
      induction l with
      | nil => exact fun x => rfl
      | cons p t ih =>
        intro x
        refine OnlySb.trans ?_ (ih _)
        simp only []
        split
        · rfl
        · exact (setPage_only _ _ x).trans (raise_only _ _)
    exact OnlySb.trans (b := { d with sb := { d.sb with up := u } }) rfl (h _ _)

/-! raise -/

@[simp] theorem raise_sys (v : Nat) (d : Dev) : (raise v d).sys = d.sys := by rw [raise_only]
@[simp] theorem raise_fm (v : Nat) (d : Dev) : (raise v d).fm = d.fm := by rw [raise_only]
@[simp] theorem raise_ln (v : Nat) (d : Dev) : (raise v d).ln = d.ln := by rw [raise_only]
@[simp] theorem raise_lm (v : Nat) (d : Dev) : (raise v d).lm = d.lm := by rw [raise_only]
@[simp] theorem raise_kc (v : Nat) (d : Dev) : (raise v d).kc = d.kc := by rw [raise_only]
@[simp] theorem raise_ks (v : Nat) (d : Dev) : (raise v d).ks = d.ks := by rw [raise_only]
@[simp] theorem raise_sl (v : Nat) (d : Dev) : (raise v d).sl = d.sl := by rw [raise_only]
@[simp] theorem raise_dsp (v : Nat) (d : Dev) : (raise v d).dsp = d.dsp := by rw [raise_only]
@[simp] theorem raise_grn (v : Nat) (d : Dev) : (raise v d).grn = d.grn := by rw [raise_only]
@[simp] theorem raise_pth (v : Nat) (d : Dev) : (raise v d).pth = d.pth := by rw [raise_only]
@[simp] theorem raise_sch (v : Nat) (d : Dev) : (raise v d).sch = d.sch := by rw [raise_only]
@[simp] theorem raise_tu (v : Nat) (d : Dev) : (raise v d).tu = d.tu := by rw [raise_only]
@[simp] theorem raise_pke (v : Nat) (d : Dev) : (raise v d).pke = d.pke := by rw [raise_only]
@[simp] theorem raise_tamp (v : Nat) (d : Dev) : (raise v d).tamp = d.tamp := by rw [raise_only]
@[simp] theorem raise_fw (v : Nat) (d : Dev) : (raise v d).fw = d.fw := by rw [raise_only]
@[simp] theorem raise_pwr (v : Nat) (d : Dev) : (raise v d).pwr = d.pwr := by rw [raise_only]
@[simp] theorem raise_tel (v : Nat) (d : Dev) : (raise v d).tel = d.tel := by rw [raise_only]
@[simp] theorem raise_free (v : Nat) (d : Dev) : (raise v d).free = d.free := by rw [raise_only]

/-! emitTag -/

@[simp] theorem emitTag_sys (p evt tag : Nat) (w2 w3 : Word) (d : Dev) : (emitTag p evt tag w2 w3 d).sys = d.sys := by rw [emitTag_only]
@[simp] theorem emitTag_fm (p evt tag : Nat) (w2 w3 : Word) (d : Dev) : (emitTag p evt tag w2 w3 d).fm = d.fm := by rw [emitTag_only]
@[simp] theorem emitTag_ln (p evt tag : Nat) (w2 w3 : Word) (d : Dev) : (emitTag p evt tag w2 w3 d).ln = d.ln := by rw [emitTag_only]
@[simp] theorem emitTag_lm (p evt tag : Nat) (w2 w3 : Word) (d : Dev) : (emitTag p evt tag w2 w3 d).lm = d.lm := by rw [emitTag_only]
@[simp] theorem emitTag_kc (p evt tag : Nat) (w2 w3 : Word) (d : Dev) : (emitTag p evt tag w2 w3 d).kc = d.kc := by rw [emitTag_only]
@[simp] theorem emitTag_ks (p evt tag : Nat) (w2 w3 : Word) (d : Dev) : (emitTag p evt tag w2 w3 d).ks = d.ks := by rw [emitTag_only]
@[simp] theorem emitTag_sl (p evt tag : Nat) (w2 w3 : Word) (d : Dev) : (emitTag p evt tag w2 w3 d).sl = d.sl := by rw [emitTag_only]
@[simp] theorem emitTag_dsp (p evt tag : Nat) (w2 w3 : Word) (d : Dev) : (emitTag p evt tag w2 w3 d).dsp = d.dsp := by rw [emitTag_only]
@[simp] theorem emitTag_grn (p evt tag : Nat) (w2 w3 : Word) (d : Dev) : (emitTag p evt tag w2 w3 d).grn = d.grn := by rw [emitTag_only]
@[simp] theorem emitTag_pth (p evt tag : Nat) (w2 w3 : Word) (d : Dev) : (emitTag p evt tag w2 w3 d).pth = d.pth := by rw [emitTag_only]
@[simp] theorem emitTag_sch (p evt tag : Nat) (w2 w3 : Word) (d : Dev) : (emitTag p evt tag w2 w3 d).sch = d.sch := by rw [emitTag_only]
@[simp] theorem emitTag_tu (p evt tag : Nat) (w2 w3 : Word) (d : Dev) : (emitTag p evt tag w2 w3 d).tu = d.tu := by rw [emitTag_only]
@[simp] theorem emitTag_pke (p evt tag : Nat) (w2 w3 : Word) (d : Dev) : (emitTag p evt tag w2 w3 d).pke = d.pke := by rw [emitTag_only]
@[simp] theorem emitTag_tamp (p evt tag : Nat) (w2 w3 : Word) (d : Dev) : (emitTag p evt tag w2 w3 d).tamp = d.tamp := by rw [emitTag_only]
@[simp] theorem emitTag_fw (p evt tag : Nat) (w2 w3 : Word) (d : Dev) : (emitTag p evt tag w2 w3 d).fw = d.fw := by rw [emitTag_only]
@[simp] theorem emitTag_pwr (p evt tag : Nat) (w2 w3 : Word) (d : Dev) : (emitTag p evt tag w2 w3 d).pwr = d.pwr := by rw [emitTag_only]
@[simp] theorem emitTag_tel (p evt tag : Nat) (w2 w3 : Word) (d : Dev) : (emitTag p evt tag w2 w3 d).tel = d.tel := by rw [emitTag_only]
@[simp] theorem emitTag_free (p evt tag : Nat) (w2 w3 : Word) (d : Dev) : (emitTag p evt tag w2 w3 d).free = d.free := by rw [emitTag_only]

/-! emit -/

@[simp] theorem emit_sys (p evt : Nat) (w2 w3 : Word) (d : Dev) : (emit p evt w2 w3 d).sys = d.sys := by rw [emit_only]
@[simp] theorem emit_fm (p evt : Nat) (w2 w3 : Word) (d : Dev) : (emit p evt w2 w3 d).fm = d.fm := by rw [emit_only]
@[simp] theorem emit_ln (p evt : Nat) (w2 w3 : Word) (d : Dev) : (emit p evt w2 w3 d).ln = d.ln := by rw [emit_only]
@[simp] theorem emit_lm (p evt : Nat) (w2 w3 : Word) (d : Dev) : (emit p evt w2 w3 d).lm = d.lm := by rw [emit_only]
@[simp] theorem emit_kc (p evt : Nat) (w2 w3 : Word) (d : Dev) : (emit p evt w2 w3 d).kc = d.kc := by rw [emit_only]
@[simp] theorem emit_ks (p evt : Nat) (w2 w3 : Word) (d : Dev) : (emit p evt w2 w3 d).ks = d.ks := by rw [emit_only]
@[simp] theorem emit_sl (p evt : Nat) (w2 w3 : Word) (d : Dev) : (emit p evt w2 w3 d).sl = d.sl := by rw [emit_only]
@[simp] theorem emit_dsp (p evt : Nat) (w2 w3 : Word) (d : Dev) : (emit p evt w2 w3 d).dsp = d.dsp := by rw [emit_only]
@[simp] theorem emit_grn (p evt : Nat) (w2 w3 : Word) (d : Dev) : (emit p evt w2 w3 d).grn = d.grn := by rw [emit_only]
@[simp] theorem emit_pth (p evt : Nat) (w2 w3 : Word) (d : Dev) : (emit p evt w2 w3 d).pth = d.pth := by rw [emit_only]
@[simp] theorem emit_sch (p evt : Nat) (w2 w3 : Word) (d : Dev) : (emit p evt w2 w3 d).sch = d.sch := by rw [emit_only]
@[simp] theorem emit_tu (p evt : Nat) (w2 w3 : Word) (d : Dev) : (emit p evt w2 w3 d).tu = d.tu := by rw [emit_only]
@[simp] theorem emit_pke (p evt : Nat) (w2 w3 : Word) (d : Dev) : (emit p evt w2 w3 d).pke = d.pke := by rw [emit_only]
@[simp] theorem emit_tamp (p evt : Nat) (w2 w3 : Word) (d : Dev) : (emit p evt w2 w3 d).tamp = d.tamp := by rw [emit_only]
@[simp] theorem emit_fw (p evt : Nat) (w2 w3 : Word) (d : Dev) : (emit p evt w2 w3 d).fw = d.fw := by rw [emit_only]
@[simp] theorem emit_pwr (p evt : Nat) (w2 w3 : Word) (d : Dev) : (emit p evt w2 w3 d).pwr = d.pwr := by rw [emit_only]
@[simp] theorem emit_tel (p evt : Nat) (w2 w3 : Word) (d : Dev) : (emit p evt w2 w3 d).tel = d.tel := by rw [emit_only]
@[simp] theorem emit_free (p evt : Nat) (w2 w3 : Word) (d : Dev) : (emit p evt w2 w3 d).free = d.free := by rw [emit_only]

/-! respond -/

@[simp] theorem respond_sys (p tag st : Nat) (pl : List Word) (d : Dev) : (respond p tag st pl d).sys = d.sys := by rw [respond_only]
@[simp] theorem respond_fm (p tag st : Nat) (pl : List Word) (d : Dev) : (respond p tag st pl d).fm = d.fm := by rw [respond_only]
@[simp] theorem respond_ln (p tag st : Nat) (pl : List Word) (d : Dev) : (respond p tag st pl d).ln = d.ln := by rw [respond_only]
@[simp] theorem respond_lm (p tag st : Nat) (pl : List Word) (d : Dev) : (respond p tag st pl d).lm = d.lm := by rw [respond_only]
@[simp] theorem respond_kc (p tag st : Nat) (pl : List Word) (d : Dev) : (respond p tag st pl d).kc = d.kc := by rw [respond_only]
@[simp] theorem respond_ks (p tag st : Nat) (pl : List Word) (d : Dev) : (respond p tag st pl d).ks = d.ks := by rw [respond_only]
@[simp] theorem respond_sl (p tag st : Nat) (pl : List Word) (d : Dev) : (respond p tag st pl d).sl = d.sl := by rw [respond_only]
@[simp] theorem respond_dsp (p tag st : Nat) (pl : List Word) (d : Dev) : (respond p tag st pl d).dsp = d.dsp := by rw [respond_only]
@[simp] theorem respond_grn (p tag st : Nat) (pl : List Word) (d : Dev) : (respond p tag st pl d).grn = d.grn := by rw [respond_only]
@[simp] theorem respond_pth (p tag st : Nat) (pl : List Word) (d : Dev) : (respond p tag st pl d).pth = d.pth := by rw [respond_only]
@[simp] theorem respond_sch (p tag st : Nat) (pl : List Word) (d : Dev) : (respond p tag st pl d).sch = d.sch := by rw [respond_only]
@[simp] theorem respond_tu (p tag st : Nat) (pl : List Word) (d : Dev) : (respond p tag st pl d).tu = d.tu := by rw [respond_only]
@[simp] theorem respond_pke (p tag st : Nat) (pl : List Word) (d : Dev) : (respond p tag st pl d).pke = d.pke := by rw [respond_only]
@[simp] theorem respond_tamp (p tag st : Nat) (pl : List Word) (d : Dev) : (respond p tag st pl d).tamp = d.tamp := by rw [respond_only]
@[simp] theorem respond_fw (p tag st : Nat) (pl : List Word) (d : Dev) : (respond p tag st pl d).fw = d.fw := by rw [respond_only]
@[simp] theorem respond_pwr (p tag st : Nat) (pl : List Word) (d : Dev) : (respond p tag st pl d).pwr = d.pwr := by rw [respond_only]
@[simp] theorem respond_tel (p tag st : Nat) (pl : List Word) (d : Dev) : (respond p tag st pl d).tel = d.tel := by rw [respond_only]
@[simp] theorem respond_free (p tag st : Nat) (pl : List Word) (d : Dev) : (respond p tag st pl d).free = d.free := by rw [respond_only]

/-! accept -/

@[simp] theorem accept_sys (p tag code : Nat) (d : Dev) : (accept p tag code d).sys = d.sys := by rw [accept_only]
@[simp] theorem accept_fm (p tag code : Nat) (d : Dev) : (accept p tag code d).fm = d.fm := by rw [accept_only]
@[simp] theorem accept_ln (p tag code : Nat) (d : Dev) : (accept p tag code d).ln = d.ln := by rw [accept_only]
@[simp] theorem accept_lm (p tag code : Nat) (d : Dev) : (accept p tag code d).lm = d.lm := by rw [accept_only]
@[simp] theorem accept_kc (p tag code : Nat) (d : Dev) : (accept p tag code d).kc = d.kc := by rw [accept_only]
@[simp] theorem accept_ks (p tag code : Nat) (d : Dev) : (accept p tag code d).ks = d.ks := by rw [accept_only]
@[simp] theorem accept_sl (p tag code : Nat) (d : Dev) : (accept p tag code d).sl = d.sl := by rw [accept_only]
@[simp] theorem accept_dsp (p tag code : Nat) (d : Dev) : (accept p tag code d).dsp = d.dsp := by rw [accept_only]
@[simp] theorem accept_grn (p tag code : Nat) (d : Dev) : (accept p tag code d).grn = d.grn := by rw [accept_only]
@[simp] theorem accept_pth (p tag code : Nat) (d : Dev) : (accept p tag code d).pth = d.pth := by rw [accept_only]
@[simp] theorem accept_sch (p tag code : Nat) (d : Dev) : (accept p tag code d).sch = d.sch := by rw [accept_only]
@[simp] theorem accept_tu (p tag code : Nat) (d : Dev) : (accept p tag code d).tu = d.tu := by rw [accept_only]
@[simp] theorem accept_pke (p tag code : Nat) (d : Dev) : (accept p tag code d).pke = d.pke := by rw [accept_only]
@[simp] theorem accept_tamp (p tag code : Nat) (d : Dev) : (accept p tag code d).tamp = d.tamp := by rw [accept_only]
@[simp] theorem accept_fw (p tag code : Nat) (d : Dev) : (accept p tag code d).fw = d.fw := by rw [accept_only]
@[simp] theorem accept_pwr (p tag code : Nat) (d : Dev) : (accept p tag code d).pwr = d.pwr := by rw [accept_only]
@[simp] theorem accept_tel (p tag code : Nat) (d : Dev) : (accept p tag code d).tel = d.tel := by rw [accept_only]
@[simp] theorem accept_free (p tag code : Nat) (d : Dev) : (accept p tag code d).free = d.free := by rw [accept_only]

/-! finish -/

@[simp] theorem finish_sys (p tag code st : Nat) (w3 : Word) (d : Dev) : (finish p tag code st w3 d).sys = d.sys := by rw [finish_only]
@[simp] theorem finish_fm (p tag code st : Nat) (w3 : Word) (d : Dev) : (finish p tag code st w3 d).fm = d.fm := by rw [finish_only]
@[simp] theorem finish_ln (p tag code st : Nat) (w3 : Word) (d : Dev) : (finish p tag code st w3 d).ln = d.ln := by rw [finish_only]
@[simp] theorem finish_lm (p tag code st : Nat) (w3 : Word) (d : Dev) : (finish p tag code st w3 d).lm = d.lm := by rw [finish_only]
@[simp] theorem finish_kc (p tag code st : Nat) (w3 : Word) (d : Dev) : (finish p tag code st w3 d).kc = d.kc := by rw [finish_only]
@[simp] theorem finish_ks (p tag code st : Nat) (w3 : Word) (d : Dev) : (finish p tag code st w3 d).ks = d.ks := by rw [finish_only]
@[simp] theorem finish_sl (p tag code st : Nat) (w3 : Word) (d : Dev) : (finish p tag code st w3 d).sl = d.sl := by rw [finish_only]
@[simp] theorem finish_dsp (p tag code st : Nat) (w3 : Word) (d : Dev) : (finish p tag code st w3 d).dsp = d.dsp := by rw [finish_only]
@[simp] theorem finish_grn (p tag code st : Nat) (w3 : Word) (d : Dev) : (finish p tag code st w3 d).grn = d.grn := by rw [finish_only]
@[simp] theorem finish_pth (p tag code st : Nat) (w3 : Word) (d : Dev) : (finish p tag code st w3 d).pth = d.pth := by rw [finish_only]
@[simp] theorem finish_sch (p tag code st : Nat) (w3 : Word) (d : Dev) : (finish p tag code st w3 d).sch = d.sch := by rw [finish_only]
@[simp] theorem finish_tu (p tag code st : Nat) (w3 : Word) (d : Dev) : (finish p tag code st w3 d).tu = d.tu := by rw [finish_only]
@[simp] theorem finish_pke (p tag code st : Nat) (w3 : Word) (d : Dev) : (finish p tag code st w3 d).pke = d.pke := by rw [finish_only]
@[simp] theorem finish_tamp (p tag code st : Nat) (w3 : Word) (d : Dev) : (finish p tag code st w3 d).tamp = d.tamp := by rw [finish_only]
@[simp] theorem finish_fw (p tag code st : Nat) (w3 : Word) (d : Dev) : (finish p tag code st w3 d).fw = d.fw := by rw [finish_only]
@[simp] theorem finish_pwr (p tag code st : Nat) (w3 : Word) (d : Dev) : (finish p tag code st w3 d).pwr = d.pwr := by rw [finish_only]
@[simp] theorem finish_tel (p tag code st : Nat) (w3 : Word) (d : Dev) : (finish p tag code st w3 d).tel = d.tel := by rw [finish_only]
@[simp] theorem finish_free (p tag code st : Nat) (w3 : Word) (d : Dev) : (finish p tag code st w3 d).free = d.free := by rw [finish_only]

/-! latchReq -/

@[simp] theorem latchReq_sys (c : Nat) (r : NcsReq) (d : Dev) : (latchReq c r d).sys = d.sys := by rw [latchReq_only]
@[simp] theorem latchReq_fm (c : Nat) (r : NcsReq) (d : Dev) : (latchReq c r d).fm = d.fm := by rw [latchReq_only]
@[simp] theorem latchReq_ln (c : Nat) (r : NcsReq) (d : Dev) : (latchReq c r d).ln = d.ln := by rw [latchReq_only]
@[simp] theorem latchReq_lm (c : Nat) (r : NcsReq) (d : Dev) : (latchReq c r d).lm = d.lm := by rw [latchReq_only]
@[simp] theorem latchReq_kc (c : Nat) (r : NcsReq) (d : Dev) : (latchReq c r d).kc = d.kc := by rw [latchReq_only]
@[simp] theorem latchReq_ks (c : Nat) (r : NcsReq) (d : Dev) : (latchReq c r d).ks = d.ks := by rw [latchReq_only]
@[simp] theorem latchReq_sl (c : Nat) (r : NcsReq) (d : Dev) : (latchReq c r d).sl = d.sl := by rw [latchReq_only]
@[simp] theorem latchReq_dsp (c : Nat) (r : NcsReq) (d : Dev) : (latchReq c r d).dsp = d.dsp := by rw [latchReq_only]
@[simp] theorem latchReq_grn (c : Nat) (r : NcsReq) (d : Dev) : (latchReq c r d).grn = d.grn := by rw [latchReq_only]
@[simp] theorem latchReq_pth (c : Nat) (r : NcsReq) (d : Dev) : (latchReq c r d).pth = d.pth := by rw [latchReq_only]
@[simp] theorem latchReq_sch (c : Nat) (r : NcsReq) (d : Dev) : (latchReq c r d).sch = d.sch := by rw [latchReq_only]
@[simp] theorem latchReq_tu (c : Nat) (r : NcsReq) (d : Dev) : (latchReq c r d).tu = d.tu := by rw [latchReq_only]
@[simp] theorem latchReq_pke (c : Nat) (r : NcsReq) (d : Dev) : (latchReq c r d).pke = d.pke := by rw [latchReq_only]
@[simp] theorem latchReq_tamp (c : Nat) (r : NcsReq) (d : Dev) : (latchReq c r d).tamp = d.tamp := by rw [latchReq_only]
@[simp] theorem latchReq_fw (c : Nat) (r : NcsReq) (d : Dev) : (latchReq c r d).fw = d.fw := by rw [latchReq_only]
@[simp] theorem latchReq_pwr (c : Nat) (r : NcsReq) (d : Dev) : (latchReq c r d).pwr = d.pwr := by rw [latchReq_only]
@[simp] theorem latchReq_tel (c : Nat) (r : NcsReq) (d : Dev) : (latchReq c r d).tel = d.tel := by rw [latchReq_only]
@[simp] theorem latchReq_free (c : Nat) (r : NcsReq) (d : Dev) : (latchReq c r d).free = d.free := by rw [latchReq_only]

@[simp] theorem latchReq_up (c : Nat) (r : NcsReq) (d : Dev) : (latchReq c r d).sb.up = d.sb.up := by
  unfold latchReq
  split <;> rfl

/-! Random bytes (R246): a generate request moves the state of its instance alone. -/

theorem random_only (line : Bool) (n : Nat) (d : Dev) : ∃ x, (random line n d).2 = setDrbg line x d := by
  unfold random
  split
  · exact ⟨drbgOf line d, by unfold setDrbg drbgOf; cases line <;> rfl⟩
  · exact ⟨_, rfl⟩

/-! Components that events on every page and SB_UP leave. -/

@[simp] theorem emitOn_sys (ps : List Nat) (evt : Nat) (w2 w3 : Word) (d : Dev) : (emitOn ps evt w2 w3 d).sys = d.sys := by rw [emitOn_only]
@[simp] theorem emitOn_fm (ps : List Nat) (evt : Nat) (w2 w3 : Word) (d : Dev) : (emitOn ps evt w2 w3 d).fm = d.fm := by rw [emitOn_only]
@[simp] theorem emitOn_ln (ps : List Nat) (evt : Nat) (w2 w3 : Word) (d : Dev) : (emitOn ps evt w2 w3 d).ln = d.ln := by rw [emitOn_only]
@[simp] theorem emitOn_lm (ps : List Nat) (evt : Nat) (w2 w3 : Word) (d : Dev) : (emitOn ps evt w2 w3 d).lm = d.lm := by rw [emitOn_only]
@[simp] theorem emitOn_kc (ps : List Nat) (evt : Nat) (w2 w3 : Word) (d : Dev) : (emitOn ps evt w2 w3 d).kc = d.kc := by rw [emitOn_only]
@[simp] theorem emitOn_ks (ps : List Nat) (evt : Nat) (w2 w3 : Word) (d : Dev) : (emitOn ps evt w2 w3 d).ks = d.ks := by rw [emitOn_only]
@[simp] theorem emitOn_sl (ps : List Nat) (evt : Nat) (w2 w3 : Word) (d : Dev) : (emitOn ps evt w2 w3 d).sl = d.sl := by rw [emitOn_only]
@[simp] theorem emitOn_dsp (ps : List Nat) (evt : Nat) (w2 w3 : Word) (d : Dev) : (emitOn ps evt w2 w3 d).dsp = d.dsp := by rw [emitOn_only]
@[simp] theorem emitOn_grn (ps : List Nat) (evt : Nat) (w2 w3 : Word) (d : Dev) : (emitOn ps evt w2 w3 d).grn = d.grn := by rw [emitOn_only]
@[simp] theorem emitOn_pth (ps : List Nat) (evt : Nat) (w2 w3 : Word) (d : Dev) : (emitOn ps evt w2 w3 d).pth = d.pth := by rw [emitOn_only]
@[simp] theorem emitOn_sch (ps : List Nat) (evt : Nat) (w2 w3 : Word) (d : Dev) : (emitOn ps evt w2 w3 d).sch = d.sch := by rw [emitOn_only]
@[simp] theorem emitOn_tu (ps : List Nat) (evt : Nat) (w2 w3 : Word) (d : Dev) : (emitOn ps evt w2 w3 d).tu = d.tu := by rw [emitOn_only]
@[simp] theorem emitOn_pke (ps : List Nat) (evt : Nat) (w2 w3 : Word) (d : Dev) : (emitOn ps evt w2 w3 d).pke = d.pke := by rw [emitOn_only]
@[simp] theorem emitOn_tamp (ps : List Nat) (evt : Nat) (w2 w3 : Word) (d : Dev) : (emitOn ps evt w2 w3 d).tamp = d.tamp := by rw [emitOn_only]
@[simp] theorem emitOn_fw (ps : List Nat) (evt : Nat) (w2 w3 : Word) (d : Dev) : (emitOn ps evt w2 w3 d).fw = d.fw := by rw [emitOn_only]
@[simp] theorem emitOn_pwr (ps : List Nat) (evt : Nat) (w2 w3 : Word) (d : Dev) : (emitOn ps evt w2 w3 d).pwr = d.pwr := by rw [emitOn_only]
@[simp] theorem emitOn_tel (ps : List Nat) (evt : Nat) (w2 w3 : Word) (d : Dev) : (emitOn ps evt w2 w3 d).tel = d.tel := by rw [emitOn_only]
@[simp] theorem emitOn_free (ps : List Nat) (evt : Nat) (w2 w3 : Word) (d : Dev) : (emitOn ps evt w2 w3 d).free = d.free := by rw [emitOn_only]

@[simp] theorem emitAll_sys (evt : Nat) (w2 w3 : Word) (d : Dev) : (emitAll evt w2 w3 d).sys = d.sys := by rw [emitAll_only]
@[simp] theorem emitAll_fm (evt : Nat) (w2 w3 : Word) (d : Dev) : (emitAll evt w2 w3 d).fm = d.fm := by rw [emitAll_only]
@[simp] theorem emitAll_ln (evt : Nat) (w2 w3 : Word) (d : Dev) : (emitAll evt w2 w3 d).ln = d.ln := by rw [emitAll_only]
@[simp] theorem emitAll_lm (evt : Nat) (w2 w3 : Word) (d : Dev) : (emitAll evt w2 w3 d).lm = d.lm := by rw [emitAll_only]
@[simp] theorem emitAll_kc (evt : Nat) (w2 w3 : Word) (d : Dev) : (emitAll evt w2 w3 d).kc = d.kc := by rw [emitAll_only]
@[simp] theorem emitAll_ks (evt : Nat) (w2 w3 : Word) (d : Dev) : (emitAll evt w2 w3 d).ks = d.ks := by rw [emitAll_only]
@[simp] theorem emitAll_sl (evt : Nat) (w2 w3 : Word) (d : Dev) : (emitAll evt w2 w3 d).sl = d.sl := by rw [emitAll_only]
@[simp] theorem emitAll_dsp (evt : Nat) (w2 w3 : Word) (d : Dev) : (emitAll evt w2 w3 d).dsp = d.dsp := by rw [emitAll_only]
@[simp] theorem emitAll_grn (evt : Nat) (w2 w3 : Word) (d : Dev) : (emitAll evt w2 w3 d).grn = d.grn := by rw [emitAll_only]
@[simp] theorem emitAll_pth (evt : Nat) (w2 w3 : Word) (d : Dev) : (emitAll evt w2 w3 d).pth = d.pth := by rw [emitAll_only]
@[simp] theorem emitAll_sch (evt : Nat) (w2 w3 : Word) (d : Dev) : (emitAll evt w2 w3 d).sch = d.sch := by rw [emitAll_only]
@[simp] theorem emitAll_tu (evt : Nat) (w2 w3 : Word) (d : Dev) : (emitAll evt w2 w3 d).tu = d.tu := by rw [emitAll_only]
@[simp] theorem emitAll_pke (evt : Nat) (w2 w3 : Word) (d : Dev) : (emitAll evt w2 w3 d).pke = d.pke := by rw [emitAll_only]
@[simp] theorem emitAll_tamp (evt : Nat) (w2 w3 : Word) (d : Dev) : (emitAll evt w2 w3 d).tamp = d.tamp := by rw [emitAll_only]
@[simp] theorem emitAll_fw (evt : Nat) (w2 w3 : Word) (d : Dev) : (emitAll evt w2 w3 d).fw = d.fw := by rw [emitAll_only]
@[simp] theorem emitAll_pwr (evt : Nat) (w2 w3 : Word) (d : Dev) : (emitAll evt w2 w3 d).pwr = d.pwr := by rw [emitAll_only]
@[simp] theorem emitAll_tel (evt : Nat) (w2 w3 : Word) (d : Dev) : (emitAll evt w2 w3 d).tel = d.tel := by rw [emitAll_only]
@[simp] theorem emitAll_free (evt : Nat) (w2 w3 : Word) (d : Dev) : (emitAll evt w2 w3 d).free = d.free := by rw [emitAll_only]

@[simp] theorem setSbUp_sys (u : Bool) (d : Dev) : (setSbUp u d).sys = d.sys := by rw [setSbUp_only]
@[simp] theorem setSbUp_fm (u : Bool) (d : Dev) : (setSbUp u d).fm = d.fm := by rw [setSbUp_only]
@[simp] theorem setSbUp_ln (u : Bool) (d : Dev) : (setSbUp u d).ln = d.ln := by rw [setSbUp_only]
@[simp] theorem setSbUp_lm (u : Bool) (d : Dev) : (setSbUp u d).lm = d.lm := by rw [setSbUp_only]
@[simp] theorem setSbUp_kc (u : Bool) (d : Dev) : (setSbUp u d).kc = d.kc := by rw [setSbUp_only]
@[simp] theorem setSbUp_ks (u : Bool) (d : Dev) : (setSbUp u d).ks = d.ks := by rw [setSbUp_only]
@[simp] theorem setSbUp_sl (u : Bool) (d : Dev) : (setSbUp u d).sl = d.sl := by rw [setSbUp_only]
@[simp] theorem setSbUp_dsp (u : Bool) (d : Dev) : (setSbUp u d).dsp = d.dsp := by rw [setSbUp_only]
@[simp] theorem setSbUp_grn (u : Bool) (d : Dev) : (setSbUp u d).grn = d.grn := by rw [setSbUp_only]
@[simp] theorem setSbUp_pth (u : Bool) (d : Dev) : (setSbUp u d).pth = d.pth := by rw [setSbUp_only]
@[simp] theorem setSbUp_sch (u : Bool) (d : Dev) : (setSbUp u d).sch = d.sch := by rw [setSbUp_only]
@[simp] theorem setSbUp_tu (u : Bool) (d : Dev) : (setSbUp u d).tu = d.tu := by rw [setSbUp_only]
@[simp] theorem setSbUp_pke (u : Bool) (d : Dev) : (setSbUp u d).pke = d.pke := by rw [setSbUp_only]
@[simp] theorem setSbUp_tamp (u : Bool) (d : Dev) : (setSbUp u d).tamp = d.tamp := by rw [setSbUp_only]
@[simp] theorem setSbUp_fw (u : Bool) (d : Dev) : (setSbUp u d).fw = d.fw := by rw [setSbUp_only]
@[simp] theorem setSbUp_pwr (u : Bool) (d : Dev) : (setSbUp u d).pwr = d.pwr := by rw [setSbUp_only]
@[simp] theorem setSbUp_tel (u : Bool) (d : Dev) : (setSbUp u d).tel = d.tel := by rw [setSbUp_only]
@[simp] theorem setSbUp_free (u : Bool) (d : Dev) : (setSbUp u d).free = d.free := by rw [setSbUp_only]

/-! SB_UP. -/

theorem raise_up (p : Nat) (d : Dev) : (raise p d).sb.up = d.sb.up := by
  unfold raise sendNow holdMsg
  split <;> rfl

theorem emitTag_up (p evt tag : Nat) (w2 w3 : Word) (d : Dev) : (emitTag p evt tag w2 w3 d).sb.up = d.sb.up := by
  unfold emitTag
  dsimp only
  split
  · rfl
  · split
    · rw [raise_up]
      rfl
    · rfl

theorem emitOn_up (ps : List Nat) (evt : Nat) (w2 w3 : Word) (d : Dev) : (emitOn ps evt w2 w3 d).sb.up = d.sb.up := by
  unfold emitOn
  induction ps generalizing d with
  | nil => rfl
  | cons p t ih =>
    rw [List.foldl_cons, ih]
    exact emitTag_up _ _ _ _ _ _

theorem emitAll_up (evt : Nat) (w2 w3 : Word) (d : Dev) : (emitAll evt w2 w3 d).sb.up = d.sb.up := by
  have h := emitOn_up (List.range 65) evt w2 w3 d
  unfold emitOn at h
  unfold emitAll
  exact h

theorem finish_up (p tag code st : Nat) (w3 : Word) (d : Dev) : (finish p tag code st w3 d).sb.up = d.sb.up := by
  unfold finish
  dsimp only
  split
  · split
    · rw [emitTag_up]
      rfl
    · rfl
  · rfl

theorem setSbUp_up (u : Bool) (d : Dev) : (setSbUp u d).sb.up = u := by
  unfold setSbUp
  split
  · assumption
  · have h : ∀ (l : List Nat) (x : Dev), (l.foldl (fun d p =>
        let g := pageOf d p
        let d' := setPage p { g with sbChg := true } d
        if g.maskSb then d' else raise p d') x).sb.up = x.sb.up := by
      intro l
      induction l with
      | nil => exact fun x => rfl
      | cons p t ih =>
        intro x
        rw [List.foldl_cons, ih]
        dsimp only
        split
        · rfl
        · rw [raise_up]
          rfl
    rw [h]

end Sys2Proof.Machine
end

