-- ==== Sys2Proof/Laws/Mode.lean ====
section
/-!
SUPPORT. What a change of mode and the drive of ALERT_N can touch.
-/
namespace Sys2Proof.Machine

/-- Driving ALERT_N touches its level and what leaves the device. -/
theorem driveAlert_cases (d : Dev) :
    driveAlert d = d ∨ ∃ b, driveAlert d = out (.pin 1 (!b)) { d with pwr := { d.pwr with alert := b } } := by
  unfold driveAlert
  extract_lets low
  by_cases h : (d.pwr.alert == low) = true
  · rw [if_pos h]
    exact Or.inl rfl
  · rw [if_neg h]
    exact Or.inr ⟨low, rfl⟩

/-- The device after driving ALERT_N, field by field. -/
theorem driveAlert_eq (d : Dev) : ∃ b o, driveAlert d = { d with pwr := { d.pwr with alert := b }, outs := o } := by
  rcases driveAlert_cases d with h | ⟨b, h⟩
  · exact ⟨d.pwr.alert, d.outs, h⟩
  · exact ⟨b, _, h⟩

/-- A change of mode touches the mode and its cause, the pages, ALERT_N and what leaves the device. -/
theorem changeMode_eq (m : Mode) (c dt : Nat) (w : Word) (d : Dev) :
    ∃ b x o, changeMode m c dt w d = { d with
      sys := { d.sys with mode := m, cause := c }, sb := b, pwr := { d.pwr with alert := x }, outs := o } := by
  unfold changeMode
  obtain ⟨x, o, h⟩ := driveAlert_eq (emitAll 0x01A0 (wd (c * 2 ^ 24 + dt * 2 ^ 16 + modeCode d * 2 ^ 8 + m.code)) w
    { d with sys := { d.sys with mode := m, cause := c } })
  dsimp only
  rw [h, emitAll_only]
  exact ⟨_, x, o, rfl⟩

end Sys2Proof.Machine
end

