-- ==== Sys2Proof/Laws/Objects.lean ====
section
/-!
SUPPORT. The objects of the device by number: what is put at a number is read there, every other number reads as before,
and the rest of the device does not move.
-/
namespace Sys2Proof.Machine

/-! Objects. -/

@[simp] theorem pageOf_setPage_same (k : Nat) (x : Page) (d : Dev) : pageOf (setPage k x d) k = x := tgetD_tset_same _ _ _ _
theorem pageOf_setPage_other (k j : Nat) (hj : j ≠ k) (x : Page) (d : Dev) : pageOf (setPage k x d) j = pageOf d j :=
  tgetD_tset_other _ hj _ _
/-- A lane keeps the time of its last change of signal and of lock. -/
@[simp] theorem laneOf_setLane_same (k : Nat) (x : Lane) (d : Dev) : laneOf (setLane k x d) k = { x with
    signalAt := if x.signal = (laneOf d k).signal then (laneOf d k).signalAt else rawNow d
    lockAt := if x.lock = (laneOf d k).lock then (laneOf d k).lockAt else rawNow d } := tgetD_tset_same _ _ _ _
theorem laneOf_setLane_other (k j : Nat) (hj : j ≠ k) (x : Lane) (d : Dev) : laneOf (setLane k x d) j = laneOf d j :=
  tgetD_tset_other _ hj _ _
@[simp] theorem lmLane_setLm_same (k : Nat) (x : LmLane) (d : Dev) : lmLane (setLm k x d) k = x := tgetD_tset_same _ _ _ _
theorem lmLane_setLm_other (k j : Nat) (hj : j ≠ k) (x : LmLane) (d : Dev) : lmLane (setLm k x d) j = lmLane d j :=
  tgetD_tset_other _ hj _ _
@[simp] theorem sliceOf_setSlice_same (k : Nat) (x : Slice) (d : Dev) : sliceOf (setSlice k x d) k = x := tgetD_tset_same _ _ _ _
theorem sliceOf_setSlice_other (k j : Nat) (hj : j ≠ k) (x : Slice) (d : Dev) : sliceOf (setSlice k x d) j = sliceOf d j :=
  tgetD_tset_other _ hj _ _
@[simp] theorem slotOf_setSlot_same (k : Nat) (x : SlotCtr) (d : Dev) : slotOf (setSlot k x d) k = x := tgetD_tset_same _ _ _ _
theorem slotOf_setSlot_other (k j : Nat) (hj : j ≠ k) (x : SlotCtr) (d : Dev) : slotOf (setSlot k x d) j = slotOf d j :=
  tgetD_tset_other _ hj _ _
@[simp] theorem regionOf_setRegion_same (k : Nat) (x : Region) (d : Dev) : regionOf (setRegion k x d) k = x := tgetD_tset_same _ _ _ _
theorem regionOf_setRegion_other (k j : Nat) (hj : j ≠ k) (x : Region) (d : Dev) : regionOf (setRegion k x d) j = regionOf d j :=
  tgetD_tset_other _ hj _ _
@[simp] theorem channelOf_setChannel_same (k : Nat) (x : Channel) (d : Dev) : channelOf (setChannel k x d) k = x := tgetD_tset_same _ _ _ _
theorem channelOf_setChannel_other (k j : Nat) (hj : j ≠ k) (x : Channel) (d : Dev) : channelOf (setChannel k x d) j = channelOf d j :=
  tgetD_tset_other _ hj _ _
@[simp] theorem saOf_setSa_same (k : Nat) (x : SaRec) (d : Dev) : saOf (setSa k x d) k = some x := tget_tset_same _ _ _
theorem saOf_setSa_other (k j : Nat) (hj : j ≠ k) (x : SaRec) (d : Dev) : saOf (setSa k x d) j = saOf d j :=
  tget_tset_other _ hj _
@[simp] theorem kobjOf_setKobj_same (k : Nat) (x : KObj) (d : Dev) : kobjOf (setKobj k x d) k = x := tgetD_tset_same _ _ _ _
theorem kobjOf_setKobj_other (k j : Nat) (hj : j ≠ k) (x : KObj) (d : Dev) : kobjOf (setKobj k x d) j = kobjOf d j :=
  tgetD_tset_other _ hj _ _
@[simp] theorem queueOf_setQueue_same (k : Nat) (x : Queue) (d : Dev) : queueOf (setQueue k x d) k = x := tgetD_tset_same _ _ _ _
theorem queueOf_setQueue_other (k j : Nat) (hj : j ≠ k) (x : Queue) (d : Dev) : queueOf (setQueue k x d) j = queueOf d j :=
  tgetD_tset_other _ hj _ _
@[simp] theorem ttOf_setTt_same (k : Nat) (x : Timetable) (d : Dev) : ttOf (setTt k x d) k = x := tgetD_tset_same _ _ _ _
theorem ttOf_setTt_other (k j : Nat) (hj : j ≠ k) (x : Timetable) (d : Dev) : ttOf (setTt k x d) j = ttOf d j :=
  tgetD_tset_other _ hj _ _
@[simp] theorem powerOf_setPower_same (k : Nat) (x : Sector) (d : Dev) : powerOf (setPower k x d) k = x := tgetD_tset_same _ _ _ _
theorem powerOf_setPower_other (k j : Nat) (hj : j ≠ k) (x : Sector) (d : Dev) : powerOf (setPower k x d) j = powerOf d j :=
  tgetD_tset_other _ hj _ _
@[simp] theorem moveOf_setMove_same (k : Nat) (x : Move) (d : Dev) : moveOf (setMove k x d) k = some x := tget_tset_same _ _ _
theorem moveOf_setMove_other (k j : Nat) (hj : j ≠ k) (x : Move) (d : Dev) : moveOf (setMove k x d) j = moveOf d j :=
  tget_tset_other _ hj _
@[simp] theorem reliefOf_setRelief_same (k : Nat) (x : Relief) (d : Dev) : reliefOf (setRelief k x d) k = x := tgetD_tset_same _ _ _ _
theorem reliefOf_setRelief_other (k j : Nat) (hj : j ≠ k) (x : Relief) (d : Dev) : reliefOf (setRelief k x d) j = reliefOf d j :=
  tgetD_tset_other _ hj _ _
@[simp] theorem dmaOf_setDma_same (k : Nat) (x : DmaChan) (d : Dev) : dmaOf (setDma k x d) k = x := tgetD_tset_same _ _ _ _
theorem dmaOf_setDma_other (k j : Nat) (hj : j ≠ k) (x : DmaChan) (d : Dev) : dmaOf (setDma k x d) j = dmaOf d j :=
  tgetD_tset_other _ hj _ _

/-! Raising the hardware message. -/

/-- An effect whose hardware sources come up raises their message after it, and does nothing else. -/
theorem withHw_cases (f : Dev → Dev) (d : Dev) : withHw f d = f d ∨ withHw f d = raise 65 (f d) := by
  unfold withHw
  split
  · exact .inr rfl
  · exact .inl rfl

end Sys2Proof.Machine
end

