-- ==== Sys2Proof/Laws/State.lean ====
section
/-!
SUPPORT. What the shapes of a command's effect leave alone: one lemma per field and update, true by unfolding, so that no
later proof unfolds a record update.
-/
namespace Sys2Proof.Machine

@[simp] theorem upd_otp (f : Otp → Dev → Dev) (s : State) : (s.upd f).otp = s.otp := rfl
@[simp] theorem upd_ram (f : Otp → Dev → Dev) (s : State) : (s.upd f).ram = s.ram := rfl
@[simp] theorem upd_pending (f : Otp → Dev → Dev) (s : State) : (s.upd f).pending = s.pending := rfl
@[simp] theorem upd_dev (f : Otp → Dev → Dev) (s : State) : (s.upd f).dev = f s.otp s.dev := rfl

theorem run_next (f : Otp → Dev → Dev) (s : State) : run f s = .next (s.upd f) := rfl

theorem runOtp_next (f : Otp → Dev → Otp × Dev) (s : State) :
    runOtp f s = .next { s with otp := (f s.otp s.dev).1, dev := (f s.otp s.dev).2 } := rfl

theorem runFresh_next (f : Otp → Dev → Dev) (s : State) :
    runFresh f s = .next { s with dev := f s.otp s.dev, ram := [] } := rfl

theorem runAll_next (f : Otp → List Host.Cell → Dev → Otp × List Host.Cell × Dev) (s : State) :
    runAll f s = .next { s with
      otp := (f s.otp s.ram s.dev).1
      ram := (f s.otp s.ram s.dev).2.1
      dev := (f s.otp s.ram s.dev).2.2 } := rfl

/-! What the four shapes say at once. -/

theorem run_keeps (f : Otp → Dev → Dev) (s : State) :
    ∃ t, run f s = .next t ∧ t.pending = s.pending ∧ t.ram = s.ram ∧ t.otp = s.otp := ⟨_, rfl, rfl, rfl, rfl⟩

theorem runOtp_keeps (f : Otp → Dev → Otp × Dev) (s : State) :
    ∃ t, runOtp f s = .next t ∧ t.pending = s.pending ∧ t.ram = s.ram ∧ t.otp = (f s.otp s.dev).1 :=
  ⟨_, rfl, rfl, rfl, rfl⟩

theorem runFresh_keeps (f : Otp → Dev → Dev) (s : State) :
    ∃ t, runFresh f s = .next t ∧ t.pending = s.pending ∧ t.ram = [] ∧ t.otp = s.otp := ⟨_, rfl, rfl, rfl, rfl⟩

theorem runAll_keeps (f : Otp → List Host.Cell → Dev → Otp × List Host.Cell × Dev) (s : State) :
    ∃ t, runAll f s = .next t ∧ t.pending = s.pending ∧ t.ram = (f s.otp s.ram s.dev).2.1
      ∧ t.otp = (f s.otp s.ram s.dev).1 := ⟨_, rfl, rfl, rfl, rfl⟩

theorem runStart_keeps (f : Otp → Dev → Dev) (s : State) :
    ∃ t, runStart f s = .next t ∧ t.pending = s.pending ∧ t.otp = s.otp := ⟨_, rfl, rfl, rfl⟩

/-! The page table. -/

@[simp] theorem setPage_sys (p : Nat) (g : Page) (d : Dev) : (setPage p g d).sys = d.sys := rfl
@[simp] theorem setPage_up (p : Nat) (g : Page) (d : Dev) : (setPage p g d).sb.up = d.sb.up := rfl
@[simp] theorem setPage_pages (p : Nat) (g : Page) (d : Dev) : (setPage p g d).sb.pages = tset d.sb.pages p g := rfl
@[simp] theorem out_outs (x : Output) (d : Dev) : (out x d).outs = d.outs ++ [x] := rfl
@[simp] theorem out_sys (x : Output) (d : Dev) : (out x d).sys = d.sys := rfl
@[simp] theorem out_sb (x : Output) (d : Dev) : (out x d).sb = d.sb := rfl
@[simp] theorem draw_free (w : Nat) (d : Dev) : (draw w d).2 = { d with free := d.free + 1 } := rfl

end Sys2Proof.Machine
end

