-- ==== Sys2Proof/Laws/Serve.lean ====
section
/-!
SUPPORT. How an NCS request is served: what a request that passes its checks leads to, what a rejected one does, what the
response leaves on the page.
-/
namespace Sys2Proof.Machine

/-! The device with the request latched and picked up. -/

theorem submitted_only (c : Nat) (r : NcsReq) (d : Dev) : OnlySb d (submitted c r d) :=
  (latchReq_only c r d).trans (pickUp_only _ _)

@[simp] theorem submitted_sys (c : Nat) (r : NcsReq) (d : Dev) : (submitted c r d).sys = d.sys := latchReq_sys c r d
@[simp] theorem submitted_fm (c : Nat) (r : NcsReq) (d : Dev) : (submitted c r d).fm = d.fm := latchReq_fm c r d
@[simp] theorem submitted_ln (c : Nat) (r : NcsReq) (d : Dev) : (submitted c r d).ln = d.ln := latchReq_ln c r d
@[simp] theorem submitted_lm (c : Nat) (r : NcsReq) (d : Dev) : (submitted c r d).lm = d.lm := latchReq_lm c r d
@[simp] theorem submitted_kc (c : Nat) (r : NcsReq) (d : Dev) : (submitted c r d).kc = d.kc := latchReq_kc c r d
@[simp] theorem submitted_ks (c : Nat) (r : NcsReq) (d : Dev) : (submitted c r d).ks = d.ks := latchReq_ks c r d
@[simp] theorem submitted_sl (c : Nat) (r : NcsReq) (d : Dev) : (submitted c r d).sl = d.sl := latchReq_sl c r d
@[simp] theorem submitted_dsp (c : Nat) (r : NcsReq) (d : Dev) : (submitted c r d).dsp = d.dsp := latchReq_dsp c r d
@[simp] theorem submitted_grn (c : Nat) (r : NcsReq) (d : Dev) : (submitted c r d).grn = d.grn := latchReq_grn c r d
@[simp] theorem submitted_pth (c : Nat) (r : NcsReq) (d : Dev) : (submitted c r d).pth = d.pth := latchReq_pth c r d
@[simp] theorem submitted_sch (c : Nat) (r : NcsReq) (d : Dev) : (submitted c r d).sch = d.sch := latchReq_sch c r d
@[simp] theorem submitted_tu (c : Nat) (r : NcsReq) (d : Dev) : (submitted c r d).tu = d.tu := latchReq_tu c r d
@[simp] theorem submitted_pke (c : Nat) (r : NcsReq) (d : Dev) : (submitted c r d).pke = d.pke := latchReq_pke c r d
@[simp] theorem submitted_tamp (c : Nat) (r : NcsReq) (d : Dev) : (submitted c r d).tamp = d.tamp := latchReq_tamp c r d
@[simp] theorem submitted_fw (c : Nat) (r : NcsReq) (d : Dev) : (submitted c r d).fw = d.fw := latchReq_fw c r d
@[simp] theorem submitted_pwr (c : Nat) (r : NcsReq) (d : Dev) : (submitted c r d).pwr = d.pwr := latchReq_pwr c r d
@[simp] theorem submitted_tel (c : Nat) (r : NcsReq) (d : Dev) : (submitted c r d).tel = d.tel := latchReq_tel c r d
@[simp] theorem submitted_free (c : Nat) (r : NcsReq) (d : Dev) : (submitted c r d).free = d.free := latchReq_free c r d
@[simp] theorem submitted_up (c : Nat) (r : NcsReq) (d : Dev) : (submitted c r d).sb.up = d.sb.up := latchReq_up c r d

/-- A request that reaches the Signal box is served. -/
theorem command_reaches {c : Cmd} {r : NcsReq} {s : State} (h : Reaches c r s) :
    command c r s.otp s.dev = serve c r s.otp (submitted c.code r s.dev) := by
  obtain ⟨⟨h1, h2, h3⟩, h4, h5, h6⟩ := h
  unfold command
  rw [if_neg (by simp [h1, h2]), if_neg (by simp [h3])]
  unfold answer
  rw [if_neg (by simpa using h4), if_neg (by simp [h5]), if_pos h6]
  rfl

/-- A request that passes its checks has its command performed on the device that picked it up. -/
theorem command_passes {c : Cmd} {r : NcsReq} {s : State} (h : Passes c r s) :
    command c r s.otp s.dev = perform c s.otp (submitted c.code r s.dev) r := by
  rw [command_reaches h.1]
  unfold serve
  rw [h.2]

/-- A request that passes its checks has a length that its command takes. -/
theorem passes_len {c : Cmd} {r : NcsReq} {s : State} (h : Passes c r s) : c.lenOk r = true := by
  obtain ⟨⟨_, h3, _⟩, h5⟩ := h
  have hm : (submitted c.code r s.dev).sys.mode ≠ .halted := by simpa using h3
  cases hl : c.lenOk r with
  | true => rfl
  | false =>
    have e : (checks c s.otp (submitted c.code r s.dev) r).isSome = true := by
      unfold checks
      rw [if_neg hm]
      by_cases a : r.len > (if r.page = 65 then 14 else 254)
      · rw [if_pos a]; rfl
      · rw [if_neg a]
        by_cases b : (c.bv128 && !(s.otp.variant = .bv128)) = true
        · rw [if_pos b]; rfl
        · rw [if_neg b, if_pos (by rw [hl]; rfl)]; rfl
    rw [h5] at e
    cases e

/-- A directly answered command. -/
theorem perform_direct {c : Cmd} {o : Otp} {d d' : Dev} {r : NcsReq} {st : Nat} {pl : List Word}
    (h : c.act o d r = (d', st, pl)) (hst : st ≠ stAccepted) :
    perform c o d r = c.after o r st (respond r.page r.tag st pl d') := by
  unfold perform
  rw [h]
  simp [hst]

/-- An accepted command. -/
theorem perform_accepted {c : Cmd} {o : Otp} {d d' : Dev} {r : NcsReq} {pl : List Word}
    (h : c.act o d r = (d', stAccepted, pl)) :
    perform c o d r = c.after o r stAccepted (respond r.page r.tag stAccepted pl (accept r.page r.tag c.code d')) := by
  unfold perform
  rw [h]
  simp

/-- A request that fails a check is answered and changes nothing else. -/
theorem command_rejected {c : Cmd} {r : NcsReq} {s : State} {st : Nat} {pl : List Word} (h : Reaches c r s)
    (hc : checks c s.otp (submitted c.code r s.dev) r = some (st, pl)) :
    command c r s.otp s.dev = respond r.page r.tag st pl (submitted c.code r s.dev) := by
  rw [command_reaches h]
  unfold serve
  rw [hc]

/-- A request that rings while an earlier one of its page is not yet answered is turned away (R47, R80). -/
theorem command_overrun {c : Cmd} {r : NcsReq} {s : State} (h1 : r.page ≤ 65) (h2 : reachable s.dev r.page = true)
    (h3 : latched s.dev r.page = true) : command c r s.otp s.dev = turnAway r.page s.dev := by
  unfold command
  rw [if_neg (by simp [h1, h2]), if_pos h3]

/-- A request behind others waits (R69). -/
theorem command_waits {c : Cmd} {r : NcsReq} {s : State} (h : Rings r s) (hm : s.dev.sys.mode ≠ .halted)
    (hu : s.dev.sb.up = true) (hn : nextRequester (latchReq c.code r s.dev) ≠ some r.page) :
    command c r s.otp s.dev = latchReq c.code r s.dev := by
  obtain ⟨h1, h2, h3⟩ := h
  unfold command
  rw [if_neg (by simp [h1, h2]), if_neg (by simp [h3])]
  unfold answer
  rw [if_neg (by simpa using hm), if_neg (by simp [hu]), if_neg hn]

/-- In HALTED every request is answered ST_HALTED (R77). -/
theorem command_halted {c : Cmd} {r : NcsReq} {s : State} (h : Rings r s) (hm : s.dev.sys.mode = .halted) :
    command c r s.otp s.dev = respond r.page r.tag stHalted [] (latchReq c.code r s.dev) := by
  obtain ⟨h1, h2, h3⟩ := h
  unfold command
  rw [if_neg (by simp [h1, h2]), if_neg (by simp [h3])]
  unfold answer
  rw [if_pos (by simpa using hm)]

/-- While SB_UP is 0 every request is answered ST_BUSY, reason 1 (R74). -/
theorem command_down {c : Cmd} {r : NcsReq} {s : State} (h : Rings r s) (hm : s.dev.sys.mode ≠ .halted)
    (hup : s.dev.sb.up = false) :
    command c r s.otp s.dev = respond r.page r.tag stBusy [1] (latchReq c.code r s.dev) := by
  obtain ⟨h1, h2, h3⟩ := h
  unfold command
  rw [if_neg (by simp [h1, h2]), if_neg (by simp [h3])]
  unfold answer
  rw [if_neg (by simpa using hm), if_pos (by simp [hup])]

/-- The outcome of a request that passes its checks and is answered. -/
theorem passes_answered {c : Cmd} {r : NcsReq} {s : State} {e : Dev} {st : Nat} {pl : List Word} (h : Passes c r s)
    (ha : c.act s.otp (submitted c.code r s.dev) r = (e, st, pl)) (hst : st ≠ stAccepted) :
    run (command c r) s = .next (s.put (c.after s.otp r st (respond r.page r.tag st pl e))) := by
  rw [run_next]
  unfold State.upd
  rw [command_passes h, perform_direct ha hst]
  rfl

/-- The outcome of a request that passes its checks and is accepted. -/
theorem passes_accepted {c : Cmd} {r : NcsReq} {s : State} {e : Dev} {pl : List Word} (h : Passes c r s)
    (ha : c.act s.otp (submitted c.code r s.dev) r = (e, stAccepted, pl)) :
    run (command c r) s = .next (s.put (c.after s.otp r stAccepted
      (respond r.page r.tag stAccepted pl (accept r.page r.tag c.code e)))) := by
  rw [run_next]
  unfold State.upd
  rw [command_passes h, perform_accepted ha]
  rfl

/-- One request whose command has a known effect and answer, and nothing after it. -/
theorem served_at {i : Instr} {c : Cmd} {r : NcsReq} {s : State} {code : Nat} {e : Dev → Dev} {st : Nat} {pl : List Word}
    (hx : exec i s = run (command c r) s) (h : Passes c r s) (hc : c.code = code)
    (ha : c.act s.otp (submitted c.code r s.dev) r = (e (submitted c.code r s.dev), st, pl)) (hst : st ≠ stAccepted)
    (hf : ∀ d, c.after s.otp r st d = d) : exec i s = .next (served code r st (fun _ => pl) e s) := by
  subst hc
  rw [hx, passes_answered h ha hst, hf]
  rfl

/-- The same, shown from what the command does on every device. -/
theorem served_by {i : Instr} {c : Cmd} {r : NcsReq} {s : State} {code : Nat} {e : Dev → Dev} {st : Nat} {pl : Dev → List Word}
    (hx : exec i s = run (command c r) s) (h : Passes c r s) (hc : c.code = code)
    (ha : ∀ d, c.act s.otp d r = (e d, st, pl d)) (hst : st ≠ stAccepted)
    (hf : ∀ d, c.after s.otp r st d = d) : exec i s = .next (served code r st pl e s) := by
  subst hc
  rw [hx, passes_answered h (ha _) hst, hf]
  rfl

/-- A row whose command is accepted: shown from what it does on the device that picked it up. -/
theorem taken_at {i : Instr} {c : Cmd} {r : NcsReq} {s : State} {code : Nat} {e : Dev → Dev} {pl : List Word}
    (hx : exec i s = run (command c r) s) (h : Passes c r s) (hc : c.code = code)
    (ha : c.act s.otp (submitted c.code r s.dev) r = (e (submitted c.code r s.dev), stAccepted, pl)) (hp : pl = [])
    (hf : ∀ d, c.after s.otp r stAccepted d = d) : exec i s = .next (taken r code e s) := by
  subst hp hc
  rw [hx, passes_accepted h ha, hf]
  rfl

/-- A row whose command only reads. -/
theorem answers_intro {i : NcsReq → Instr} {c : Cmd} {pl : Otp → NcsReq → Dev → List Word}
    (hx : ∀ r s, exec (i r) s = run (command c r) s) (ha : ∀ o d r, c.act o d r = (d, stOk, pl o r d))
    (hf : ∀ o r d, c.after o r stOk d = d) : Answers i c pl := by
  intro r s h
  rw [hx, run_next]
  unfold State.upd
  rw [command_passes h, perform_direct (ha _ _ _) (by decide), hf]
  rfl

/-- A row whose command sets something and answers without payload. -/
theorem sets_intro {i : NcsReq → Instr} {c : Cmd} {e : Otp → NcsReq → Dev → Dev}
    (hx : ∀ r s, exec (i r) s = run (command c r) s) (ha : ∀ o d r, c.act o d r = (e o r d, stOk, []))
    (hf : ∀ o r d, c.after o r stOk d = d) : Sets i c e := by
  intro r s h
  rw [hx, run_next]
  unfold State.upd
  rw [command_passes h, perform_direct (ha _ _ _) (by decide), hf]
  rfl

/-- A row whose command is accepted. -/
theorem starts_intro {i : NcsReq → Instr} {c : Cmd} {e : Otp → NcsReq → Dev → Dev}
    (hx : ∀ r s, exec (i r) s = run (command c r) s) (ha : ∀ o d r, c.act o d r = (e o r d, stAccepted, []))
    (hf : ∀ o r d, c.after o r stAccepted d = d) : Starts i c e := by
  intro r s h
  rw [hx, run_next]
  unfold State.upd
  rw [command_passes h, perform_accepted (ha _ _ _), hf]
  rfl

/-- Every NCS row has its request latched and answered; the two rows that also reach OTP or the windows do so only where
the key store or the Granary changed. -/
theorem exec_ncs {i : Instr} {c : Cmd} {r : NcsReq} {s : State} (h : ncsRow i = some (c, r))
    (hg : (command c r s.otp s.dev).grn = s.dev.grn) (hk : (command c r s.otp s.dev).ks = s.dev.ks) :
    exec i s = .next (s.put (command c r s.otp s.dev)) := by
  cases i
  case ksProvision x =>
    cases h
    show execKsProvision r s = _
    unfold execKsProvision
    rw [runOtp_next]
    have ho : provOtp s.otp s.dev (command cmdKsProvision r s.otp s.dev) = s.otp := by
      unfold provOtp
      rw [hk]
      split
      · rename_i h1 h2
        rw [h1] at h2
        cases h2
      · rfl
    dsimp only
    rw [ho]
    rfl
  case grnRegionSet x =>
    cases h
    show execGrnRegionSet r s = _
    unfold execGrnRegionSet
    rw [runAll_next]
    have hq : regionOf (command cmdGrnRegionSet r s.otp s.dev) 5 = regionOf s.dev 5 := by
      unfold regionOf
      rw [hg]
    dsimp only
    rw [hq, if_pos rfl]
    rfl
  all_goals first
    | (cases h; done)
    | (cases h; exact run_next _ _)

/-- The response record on the answered page (R48). -/
theorem answerOf_respond (p tag st : Nat) (pl : List Word) (d : Dev) :
    answerOf (respond p tag st pl d) p = respRecord tag st pl := by
  unfold answerOf respond
  by_cases h : p = 65
  · simp [h]
  · simp only [h, if_false]
    split <;> simp [pageOf, raise, sendNow, holdMsg, out, setPage, tgetD_tset_same] <;>
      (try split) <;> simp [tgetD_tset_same]

end Sys2Proof.Machine
end

