-- ==== Sys2Proof/WellFormed.lean ====
section
/-!
DEFINITION. Which commands are well formed: the numbers of pages, lanes, ports, slices, sectors and other objects lie in
the ranges of the largest variant (R1), an access is word-aligned, a request carries the payload that its length says.
An ill-formed command has no counterpart outside the model; the machine takes it all the same.
-/
namespace Sys2Proof

/-- A request as a page window or the SMBus channel can latch it (R46, R49, R80): the payload has the words that LEN
counts, as far as the record reaches. -/
def NcsReq.wf (r : NcsReq) : Bool :=
  decide (r.page ≤ 65) && decide (r.tag < 256) && decide (r.rsv < 128) && decide (r.len < 2 ^ 32)
    && decide (r.payload.length = min r.len 254) && decide (r.buf.length ≤ 2 ^ 24)

/-- Windows 1 to 64 belong to the virtual functions (R40). -/
def Window.wf : Window → Bool
  | .vf n => decide (1 ≤ n) && decide (n ≤ 64)
  | .pf => true
  | .bar2 => true

/-- A well-formed command. -/
def Instr.wf : Instr → Bool
  | .tickBoundary lanes => lanes.all (fun x => decide (x.key < 128))
  | .ncsDoorbellWrite page _ => decide (page ≤ 64)
  | .requestPickup buf => decide (buf.length ≤ 2 ^ 24)
  | .ncsEvtHeadWrite page _ => decide (page ≤ 64)
  | .ncsEvtLostRead page => decide (page ≤ 64)
  | .ncsIrqMaskWrite page _ => decide (page ≤ 64)
  | .irqCtlWrite _ => true
  | .irqCoalesceExpiry vec => decide (vec ≤ 65)
  | .irqTestFire _ => true
  | .registerWrite win off _ => win.wf && off % 4 == 0
  | .pageHwBusyAnswer page => decide (page ≤ 65)
  | .haltedRequestAnswer page => decide (page ≤ 65)
  | .sbRestartComplete => true
  | .smbBlockWrite words _ => decide (1 ≤ words.length) && decide (words.length ≤ 16)
  | .smbBlockRead => true
  | .smbReadByte => true
  | .smbAddressMatchWake _ => true
  | .ncsPing r => r.wf
  | .ncsGetInfo r => r.wf
  | .ncsSetExpert r => r.wf
  | .ncsSetEvtMask r => r.wf
  | .ncsRingReset r => r.wf
  | .sysGetState r => r.wf
  | .sysSetMode r => r.wf
  | .sysSleep r => r.wf
  | .sysReset r => r.wf
  | .sysResetTrigger => true
  | .sysMgmtRestart r => r.wf
  | .sysAdvanceLife r => r.wf
  | .lifeOtpWriteDone => true
  | .sysClearConfig r => r.wf
  | .sysRecalibrate r => r.wf
  | .recalSliceTestDone _ => true
  | .recalDroopPhaseEnd => true
  | .mainPowerLoss => true
  | .mainPowerReturn _ => true
  | .rstNReset => true
  | .wakeNWake _ => true
  | .rtcAlarmWake => true
  | .aoColdStart => true
  | .startSequence _ => true
  | .modeEntry _ => true
  | .perstNRelease => true
  | .pcieHotReset => true
  | .vfFlr vf => decide (1 ≤ vf) && decide (vf ≤ 64)
  | .dormantReached => true
  | .clientFrameReceive port _ _ _ => decide (port < 64)
  | .lineFrameReceive port _ _ _ => decide (port < 64)
  | .rxIcvVerdict _ => true
  | .contextFetchDone sa => decide (sa < 1048576)
  | .contextLoadDone slice sa => decide (slice < 144) && decide (sa < 1048576)
  | .reorderRelease _ => true
  | .egressSelect port _ => decide (port < 128)
  | .ruleSwap sector => decide (sector < 4)
  | .fmPortBind r => r.wf
  | .fmPortUnbind r => r.wf
  | .fmSecyCreate r => r.wf
  | .fmSecySet r => r.wf
  | .fmSecyDelete r => r.wf
  | .fmScCreate r => r.wf
  | .fmScDelete r => r.wf
  | .fmStatsGet r => r.wf
  | .fmPtpSet r => r.wf
  | .fmBypassSet r => r.wf
  | .fmPnThresholdSet r => r.wf
  | .fmRuleWrite r => r.wf
  | .fmRuleRead r => r.wf
  | .fmRuleCommit r => r.wf
  | .esurdelFrameTransmit laneType clients misses _ => decide (laneType ≤ 3) && clients.all (fun x => decide (x.port < 64))
       && misses.skips.all (fun x => decide (x < 64)) && misses.faults.all (fun x => decide (x < 64))
  | .esurdelFrameReceive lane _ bytes _ _ => decide (lane < 64) && decide (bytes.length = 8192)
  | .barExpiry lane _ => decide (lane < 64)
  | .sheafRelease sheaf fc _ => decide (sheaf < 1024) && decide (fc < 2 ^ 48)
  | .txSuperframeBoundary laneType => decide (laneType ≤ 3)
  | .rxSuperframeBoundary sheaf _ => decide (sheaf < 1024)
  | .lmPortEnable r => r.wf
  | .lmPortDisable r => r.wf
  | .lmSheafCreate r => r.wf
  | .lmSheafDelete r => r.wf
  | .lmClientMap r => r.wf
  | .lmClientUnmap r => r.wf
  | .lmLaneStatus r => r.wf
  | .lmTraceSet r => r.wf
  | .lmTraceGet r => r.wf
  | .lmDescWrite r => r.wf
  | .lmDescRead r => r.wf
  | .lmDescCommit r => r.wf
  | .lmHuntWrite r => r.wf
  | .lmHuntRead r => r.wf
  | .lmTestMode r => r.wf
  | .losDeclare lane => decide (lane.val < 64)
  | .losClear lane => decide (lane.val < 64)
  | .lolClear lane => decide (lane.val < 64)
  | .lofDeclare lane => decide (lane.val < 64)
  | .lofClear lane => decide (lane.val < 64)
  | .losfDeclare lane => decide (lane.val < 64)
  | .loaDeclare lane => decide (lane.val < 64)
  | .loaClear lane => decide (lane.val < 64)
  | .secondsBoundary _ => true
  | .lmDefectGet r => r.wf
  | .lmPmGet r => r.wf
  | .lmDefectParamWrite r => r.wf
  | .lmDefectParamRead r => r.wf
  | .lmMaintSet r => r.wf
  | .shadowRecomputeDone slice _ => decide (slice < 144)
  | .shadowArbitrationDone slice _ _ => decide (slice < 144)
  | .sidingTakeoverDone siding => decide (siding < 144)
  | .maskExpanderReseed slice => decide (slice < 144)
  | .contextRerandomise slice => decide (slice < 144)
  | .drbgReseed => true
  | .entropyTestFail source _ => decide (source ≤ 1)
  | .sourceStartupTestDone source _ => decide (source ≤ 1)
  | .drbgReseedLimit => true
  | .bulkJobDone page tag _ => decide (page ≤ 64) && decide (tag < 256)
  | .sliceStatus r => r.wf
  | .sliceMap r => r.wf
  | .rngStatus r => r.wf
  | .bulkSubmit r => r.wf
  | .bulkCancel r => r.wf
  | .sliceTest r => r.wf
  | .sliceTestDone slice _ => decide (slice < 144)
  | .sliceShadowSet r => r.wf
  | .saInstall r => r.wf
  | .saDestroy r => r.wf
  | .saSetEncoding r => r.wf
  | .saStatus r => r.wf
  | .kcSchedule r => r.wf
  | .kcCancel r => r.wf
  | .kcChainCreate r => r.wf
  | .kcChainDelete r => r.wf
  | .kaPeerSet r => r.wf
  | .kaStart r => r.wf
  | .kaStatus r => r.wf
  | .kcParamWrite r => r.wf
  | .kcParamRead r => r.wf
  | .kcRekeyAll r => r.wf
  | .kcPreload _ _ => true
  | .kcSwitch _ _ => true
  | .saRetireTx sa _ => decide (sa < 1048576)
  | .saRetireRx sa _ => decide (sa < 1048576)
  | .kcSchedLate sa _ => decide (sa < 1048576)
  | .chainPeriodSwitch obj _ => decide (obj < 2 ^ 20)
  | .chainDeriveDone obj => decide (obj < 2 ^ 20)
  | .rekeyAllNextReady => true
  | .saIndexFree sa => decide (sa < 1048576)
  | .kaInitReceive port _ => decide (port < 64)
  | .kaRespReceive port _ => decide (port < 64)
  | .kaFinReceive port _ => decide (port < 64)
  | .kaDoneReceive port _ => decide (port < 64)
  | .kaAbortReceive port _ => decide (port < 64)
  | .kaRetransmit peer => decide (peer < 64)
  | .dspGroupGet r => r.wf
  | .dspPlaceGet r => r.wf
  | .dspStatsGet r => r.wf
  | .dspHintSet r => r.wf
  | .dspHintGet r => r.wf
  | .dspTableWrite r => r.wf
  | .dspTableRead r => r.wf
  | .dspTableCommit r => r.wf
  | .dspTableSwap => true
  | .dspParamWrite r => r.wf
  | .dspParamRead r => r.wf
  | .stripeWidthChange obj => decide (obj < 2 ^ 20)
  | .moveStart _ => true
  | .moveSwitchover _ => true
  | .moveDrainComplete _ => true
  | .droopReliefStart sector => decide (sector < 4)
  | .droopReliefEnd sector => decide (sector < 4)
  | .sliceIdlePowerDown slice => decide (slice < 144)
  | .domainPowerUpDone domain => decide (domain.val < 312)
  | .grnStatus r => r.wf
  | .grnRegionGet r => r.wf
  | .grnChannelGet r => r.wf
  | .grnFaultLog r => r.wf
  | .grnHaltRecord r => r.wf
  | .grnRekey r => r.wf
  | .grnEpochLimit region => decide (region < 6)
  | .grnRekeyDone => true
  | .grnRetire r => r.wf
  | .retireDrainEnd => true
  | .retireMigrateDone => true
  | .retireOtpDone => true
  | .grnRegionSet r => r.wf
  | .grnParamWrite r => r.wf
  | .grnParamRead r => r.wf
  | .grnScrub _ => true
  | .pathPairCreate r => r.wf
  | .pathPairDelete r => r.wf
  | .pathStatus r => r.wf
  | .pathRequest r => r.wf
  | .pathPrioritySet r => r.wf
  | .pathProfileWrite r => r.wf
  | .pathProfileRead r => r.wf
  | .claimFrameSend pair => decide (pair.val < 32)
  | .claimFrameReceive port _ _ => decide (port < 64)
  | .claimMissExpiry pair path => decide (pair < 32) && decide (path.val ≤ 1)
  | .pathGuardExpiry pair path => decide (pair < 32) && decide (path ≤ 1)
  | .holdoffExpiry pair => decide (pair.val < 32)
  | .yardRelease pair _ _ _ => decide (pair < 32)
  | .fastHoldExpiry pair => decide (pair.val < 32)
  | .schShapeSet r => r.wf
  | .schClassSet r => r.wf
  | .schStatsGet r => r.wf
  | .schSampleGet r => r.wf
  | .schTtStatus r => r.wf
  | .schQueueWrite r => r.wf
  | .schQueueRead r => r.wf
  | .schTtWrite r => r.wf
  | .schTtRead r => r.wf
  | .schTtCommit r => r.wf
  | .ttEntryBoundary port _ => decide (port < 64)
  | .ttSwap port _ => decide (port < 64)
  | .queueSample _ => true
  | .timeGet r => r.wf
  | .timeStep r => r.wf
  | .timeStepApply => true
  | .timeRateSet r => r.wf
  | .timePtpSend r => r.wf
  | .ptpSendDepart side port _ => decide (side ≤ 1) && decide (port < 64)
  | .timePtpRecv r => r.wf
  | .timeCaptureSet r => r.wf
  | .timePpsSet r => r.wf
  | .timeTodGet r => r.wf
  | .timeModelSet r => r.wf
  | .timeRearm r => r.wf
  | .timeRearmApply => true
  | .timeDelaySet r => r.wf
  | .timeDelayGet r => r.wf
  | .timeRefSet r => r.wf
  | .nativeAlarmFire _ => true
  | .alarm32Fire _ => true
  | .tuCtlSnap _ => true
  | .tuAlarmArmWrite _ => true
  | .tuAlarm32ArmWrite _ => true
  | .tuAlarmValueWrite off _ => off % 4 == 0
  | .tuTxqIdRead => true
  | .tuTxqOvfClear _ => true
  | .ppsInEdge _ _ => true
  | .todMessageReceive _ _ => true
  | .todMessageSend _ => true
  | .turefLost => true
  | .turefRestored source => decide (1 ≤ source) && decide (source ≤ 2)
  | .dliveUpdate side dir lane _ => decide (side ≤ 1) && decide (dir ≤ 1) && decide (lane < 64)
  | .portConfig r => r.wf
  | .portDelete r => r.wf
  | .laneStatus r => r.wf
  | .laneRetrain r => r.wf
  | .portFallow r => r.wf
  | .laneTestSet r => r.wf
  | .laneTestGet r => r.wf
  | .laneSeqWrite r => r.wf
  | .laneSeqRead r => r.wf
  | .laneTxeqSet r => r.wf
  | .laneAdaptSet r => r.wf
  | .laneStageSuccess side lane fom _ => decide (side ≤ 1) && decide (lane < 64) && decide (fom ≤ 1023)
  | .laneStageTimeout side lane => decide (side ≤ 1) && decide (lane.val < 64)
  | .signalDetectLost side lane => decide (side ≤ 1) && decide (lane < 64)
  | .signalDetectReturn side lane => decide (side ≤ 1) && decide (lane < 64)
  | .laneLockLost side lane => decide (side ≤ 1) && decide (lane < 64)
  | .adaptStep side lane fom => decide (side ≤ 1) && decide (lane < 64) && decide (fom ≤ 1023)
  | .jtagInstructionLoad code => decide (code < 256)
  | .tapReset => true
  | .ksIdentityGet r => r.wf
  | .ksSealSubmit r => r.wf
  | .ksSealProcess _ => true
  | .ksSlotInfo r => r.wf
  | .ksCounterGet r => r.wf
  | .ksDerive r => r.wf
  | .ksSlotFree r => r.wf
  | .ksAttest r => r.wf
  | .ksProvision r => r.wf
  | .ksCredentialSet r => r.wf
  | .keyShareRemask => true
  | .pkeRun r => r.wf
  | .pkeJobStart => true
  | .pkeJobDone _ _ _ => true
  | .pkeAbort r => r.wf
  | .pkeStatus r => r.wf
  | .pkeWipe r => r.wf
  | .pkePowerDown => true
  | .tamperSourceFire source _ _ => decide (source < 12)
  | .tamperSecondDecision _ _ _ _ => true
  | .detectorSelfTest _ => true
  | .tamperLogCopy => true
  | .unlockNonceExpiry => true
  | .tampEventRead => true
  | .tampStatusGet r => r.wf
  | .tampLogGet r => r.wf
  | .tampNonceGet r => r.wf
  | .tampUnlock r => r.wf
  | .tampResponseSet r => r.wf
  | .tampTest r => r.wf
  | .fwStatus r => r.wf
  | .fwUpdate r => r.wf
  | .fwRecallWriteDone _ => true
  | .fwImageWriteDone _ _ => true
  | .fwConfirm r => r.wf
  | .fwAutoConfirm => true
  | .fwConfirmOtpDone => true
  | .fwRevert r => r.wf
  | .fwProbationExpiry => true
  | .fwRestoreDone => true
  | .pwrStatus r => r.wf
  | .pwrDomainGet r => r.wf
  | .pwrCurveWrite r => r.wf
  | .pwrCurveRead r => r.wf
  | .pwrCurveCommit r => r.wf
  | .pwrCurveSwap => true
  | .pwrThermSet r => r.wf
  | .stretchRise sector readings _ => decide (sector < 4) && readings.length == 16
  | .stretchFall sector readings _ => decide (sector < 4) && readings.length == 16
  | .sensorTrim readings => readings.all (fun x => decide (x.sector < 4) && decide (x.sensor < 16))
  | .sensorOutOfService sector sensor => decide (sector < 4) && decide (sensor < 16)
  | .thermalRead _ _ _ => true
  | .telSlotGet r => r.wf
  | .telSnapInfo r => r.wf
  | .snapshotLatch => true
  | .snapshotWritten _ => true
  | .pcfSnapNowWrite _ => true
  | .pcfSnapEnWrite _ => true
  | .pcfRingRdWrite _ => true
  | .dmaStartWrite ch _ => decide (ch < 8)
  | .dmaStopWrite ch _ => decide (ch < 8)
  | .dmaChannelRun _ _ => true
  | .dmaChannelDone ch => decide (ch < 8)
  | .vddAoVbatLoss => true
  | .lrefLoss => true
  | .railDip lanes _ => lanes.all (fun x => decide (x < 128))
  | .tamperConditionCleared source => decide (source < 12)
  | .ppsOutPulseEnd _ => true
  | .fwStaged => true
  | .provisioningOtpWriteDone => true

end Sys2Proof
end

