-- ==== Sys2Proof/Tests/Slice0.lean ====
section
/-!
SUPPORT. The model's own tests: ill-formed commands are refused by WellFormed, every statement has a state and operands
that meet its hypotheses, a few single steps give what the spec's words say.
-/
set_option Elab.async false

namespace Sys2Proof.Tests
open Sys2Proof Sys2Proof.Machine

/-! ### Small states -/

/-- A request of a page, expert, tag 9. -/
def rq (page : Nat) (ws : List Nat) (buf : Bytes := []) : NcsReq :=
  ⟨page, 9, true, 0, ws.length, ws.map (BitVec.ofNat 32), buf⟩

/-- A BV128 in DEPLOYED. -/
def otp : Otp := { Otp.init with variant := .bv128, life := .deployed }

/-- A device past its mode entry. -/
def up (m : Mode) : Dev := { Dev.init with
  sys := { Sys.init with phase := .up, mode := m, linkUp := true, startRun := true, mainGood := true, aoGood := true }
  sb := { SignalBox.init with up := true } }

def st (d : Dev) : State := { State.reset with otp := otp, dev := d }

/-- The device in another phase. -/
def phased (p : Phase) (d : Dev) : Dev := { d with sys := { d.sys with phase := p } }

/-! ### Requests, rings, registers, modes -/

/-- Page 0 with its response read, its mask bits as given. -/
def onPage (g : Page) (d : Dev) : Dev := setPage 0 g d

def entryOf (n : Nat) : RingEntry := ⟨wd n, 0, 0, 0⟩

theorem witness_StepRunsFrontCommand : State.reset.pending = [] := by decide

theorem witness_StepKeepsWindowsCanonical : Memory.wf State.reset.ram = true
    ∧ ∃ t, step { State.reset with pending := [.lrefLoss] } = .next t := ⟨by decide, _, rfl⟩

theorem witness_StepMovesOtpForward : ∃ t, step { State.reset with pending := [.lifeOtpWriteDone] } = .next t := ⟨_, rfl⟩

theorem witness_WindowWriteReadsBack : Memory.wf (ramPut [] 5 [1, 0, 3]) = true := by decide

/-- Page 3 holds a latched request of the given word 0. -/
def latchDev (m : Mode) (w : Word) : Dev :=
  setPage 3 { Page.init with latch := [(0, w), (1, 1#32)], reqBusy := true } (up m)

theorem witness_RequestsAreAnsweredOnTheirPage :
    (ncsRow (.ncsPing (rq 65 [1])) = some (cmdNcsPing, rq 65 [1]) ∧ Rings (rq 65 [1]) (st (up .halted)))
    ∧ (Rings (rq 64 [1]) (st (setSbUp false (up .secure))) ∧ (setSbUp false (up .secure)).sb.up = false)
    ∧ (Reaches cmdNcsPing (rq 0 []) (st (up .secure))
      ∧ checks cmdNcsPing otp (submitted cmdNcsPing.code (rq 0 []) (up .secure)) (rq 0 []) = some (stBadLength, []))
    ∧ (ncsRow (.sysReset (rq 64 [1])) = some (cmdSysReset, rq 64 [1]) ∧ Reaches cmdSysReset (rq 64 [1]) (st (up .secure))
      ∧ cmdSysReset.tenants = false ∧ cmdSysReset.lenOk (rq 64 [1]) = true ∧ cmdSysReset.bv128 = false)
    ∧ (reachable (latchDev .secure 1) 3 = true ∧ latched (latchDev .secure 1) 3 = true
      ∧ reachable { up .secure with sb := { (up .secure).sb with smbBusy := true } } 65 = true
      ∧ latched { up .secure with sb := { (up .secure).sb with smbBusy := true } } 65 = true)
    ∧ (Rings (rq 64 [1]) (st (latchDev .secure 1)) ∧ (latchDev .secure 1).sys.mode ≠ .halted ∧ (latchDev .secure 1).sb.up = true
      ∧ nextRequester (latchReq cmdNcsPing.code (rq 64 [1]) (latchDev .secure 1)) ≠ some 64)
    ∧ ((rq 64 []).page ≤ 64 ∧ (rq 64 []).tag < 256 ∧ stOk < 2 ^ 16 ∧ (5 : Nat) ≠ (rq 64 []).page
      ∧ (pageOf { up .secure with sb := { (up .secure).sb with irqEnable := true } } 64).maskResp = Page.init.maskResp) := by
  (repeat' apply And.intro) <;> first | decide +kernel | rfl

theorem witness_RingKeepsUnreadEntriesAndRoom :
    ({ Page.init with accepted := [⟨1, 0x0124, none⟩] }.accepted.length + ringUsed Page.init ≤ 64 ∧ 0x0200 ≠ evtCmdDone
      ∧ (Page.init.accepted.length < 64 - ringUsed Page.init))
    ∧ (0x0180 < 2 ^ 16 ∧ (255 : Nat) < 256 ∧ ringTakes Page.init 0x0180 = true
      ∧ ringTakes { Page.init with tail := 64 } 0x0180 = false ∧ 1 < ringUsed { Page.init with tail := 64 }) := by
  (repeat' apply And.intro) <;> first | decide +kernel | rfl

theorem witness_DoorbellWhileBusyOnlyOverruns : windowUp (up .secure) 0 = true ∧ bit 0xFFFFFFFF#32 0 = true
    ∧ (pageOf (onPage { Page.init with reqBusy := true } (up .secure)) 0).reqBusy = true := by
  (repeat' apply And.intro) <;> first | decide +kernel | rfl

/-- BAR2 reached, messages enabled, page 64 pending and spaced. -/
def irqDev : Dev := { up .secure with sb := { (up .secure).sb with irqEnable := true, coalesce := 10, spacing := [64], held := [64] } }

theorem witness_PageAndInterruptRegistersAct :
    (windowUp (up .secure) 64 = true ∧ bit 1#32 0 = true ∧ (pageOf (up .secure) 64).reqBusy = false)
    ∧ (((pageOf (up .secure) 0).tail - 0#32).toNat ≤ 64 ∧ 64 < ((pageOf (up .secure) 0).tail - 0xFFFFFFBF#32).toNat)
    ∧ (pagePend (up .secure) 0 = false ∧ (pageOf (up .secure) 0).respValid = false ∧ (pageOf (up .secure) 0).sbChg = false
      ∧ (pageOf (up .secure) 0).tail = (pageOf (up .secure) 0).head)
    ∧ (let g := pageOf (onPage { Page.init with maskResp := true, respValid := true, maskEvt := false, maskSb := false }
        { irqDev with sb := { irqDev.sb with coalesce := 0, spacing := [], held := [] } }) 0
      g.maskResp = true ∧ g.respValid = true ∧ g.maskEvt = false ∧ g.maskSb = false)
    ∧ (windowUp (up .secure) 1 = true ∧ (255 : Nat) < 256 ∧ (1 : Word) ≠ 0)
    ∧ (bar2Up irqDev = true ∧ bit 10#32 31 = false)
    ∧ (bit 0x80000000#32 31 = true ∧ fld 0x80000000#32 15 0 = 0 ∧ (up .secure).sb.spacing = [])
    ∧ (irqDev.sb.spacing.contains 64 = true ∧ irqDev.sb.held.contains 64 = true ∧ irqDev.sb.irqEnable = true ∧ irqDev.sb.coalesce ≠ 0)
    ∧ (({ irqDev with sb := { irqDev.sb with held := [] } } : Dev).sb.held.contains 64 = false)
    ∧ (bit 1#32 0 = true ∧ ({ irqDev with sb := { irqDev.sb with coalesce := 0 } } : Dev).sb.coalesce = 0) := by
  (repeat' apply And.intro) <;> first | decide +kernel | rfl

theorem witness_LatchedAndSmbusRequestsAct :
    (latched (setSbUp false (latchDev .secure 0x01010900#32)) 3 = true ∧ (setSbUp false (latchDev .secure 0x01010900#32)).sb.up = false)
    ∧ (latched (latchDev .halted 0x01010900#32) 3 = true ∧ (latchDev .halted 0x01010900#32).sys.mode = .halted)
    ∧ ((latchDev .secure 0x01010900#32).sb.up = true
      ∧ nextRequester (latchDev .secure 0x01010900#32) = some 3
      ∧ (cmdOf (fld (latchWord (latchDev .secure 0x01010900#32) 3 0) 31 16)).isSome = true)
    ∧ (nextRequester (latchDev .secure 0xFFFF0900#32) = some 3
      ∧ (cmdOf (fld (latchWord (latchDev .secure 0xFFFF0900#32) 3 0) 31 16)).isNone = true
      ∧ (latchWord (latchDev .secure 0xFFFF0900#32) 3 1).toNat ≤ 14)
    ∧ (smbUp (up .secure) = true ∧ (up .secure).sb.smbBusy = false
      ∧ ({ (up .secure).sb with smbBusy := true } : SignalBox).smbBusy = true) := by
  (repeat' apply And.intro) <;> first | decide +kernel | rfl

theorem witness_RingResetClearsRing : Passes cmdNcsRingReset (rq 64 []) (st (up .secure))
    ∧ (Reaches cmdNcsRingReset (rq 0 []) (st (up .locked)) ∧ (rq 0 []).len = 0 ∧ (rq 0 []).rsv % 128 = 0 ∧ (up .locked).sys.mode ≠ .dormant
      ∧ (pageOf (onPage { Page.init with accepted := [⟨1, 0x0124, none⟩] } (up .locked)) 0).accepted ≠ []) := by
  (repeat' apply And.intro) <;> first | decide +kernel | rfl

theorem witness_HousekeepingCommands : Passes cmdNcsPing (rq 65 [7]) (st (up .locked))
    ∧ Passes cmdNcsGetInfo (rq 64 []) (st (up .secure))
    ∧ Passes cmdNcsSetExpert (rq 0 [64, 0xFFFF]) (st (up .staging))
    ∧ Passes cmdNcsSetEvtMask (rq 1 [0xFFFF]) (st (up .secure)) := by
  (repeat' apply And.intro) <;> first | decide +kernel | rfl

theorem witness_SystemCommandsAct :
    (Passes cmdSysGetState (rq 65 []) (st (up .locked))
      ∧ (Passes cmdSysSetMode (rq 0 [2]) (st (up .staging)) ∧ rw (rq 0 [2]) 0 = 2)
      ∧ (Passes cmdSysSetMode (rq 0 [1]) (st (up .secure)) ∧ rw (rq 0 [1]) 0 = 1)
      ∧ (Passes cmdSysReset (rq 65 [1]) (st (up .locked)) ∧ (up .locked).sys.resetPending = none))
    ∧ Passes cmdSysSleep (rq 65 [7, 100]) (st (up .staging))
    ∧ Passes cmdSysClearConfig (rq 0 []) (st (up .staging))
    ∧ Passes cmdSysAdvanceLife (rq 0 [3, 0x4C494645]) (st (up .staging))
    ∧ (({ up .staging with sys := { (up .staging).sys with lifePending := some (.retired, 0, 9) } } : Dev).sys.lifePending
        = some (.retired, 0, 9)
      ∧ (up .staging).sys.phase = .up ∧ otp.life.code < Life.retired.code) := by
  (repeat' apply And.intro) <;> first | decide +kernel | rfl

/-- Recalibration testing slice 3, and in its droop phase. -/
def recalDev (x : Recal) : Dev := { up .secure with sys := { (up .secure).sys with recal := some x } }

theorem witness_ManagementRestartAndRecalibration :
    (Passes cmdSysMgmtRestart (rq 0 []) (st (up .secure))
      ∧ ((setSbUp false (up .secure)).sys.phase = .up ∧ (setSbUp false (up .secure)).sb.up = false))
    ∧ (Passes cmdSysRecalibrate (rq 0 [7]) (st (up .secure))
      ∧ (recalDev ⟨0, 9, true, true, true, some 3, false, 0, false, 0, 0, 0⟩).sys.recal
          = some ⟨0, 9, true, true, true, some 3, false, 0, false, 0, 0, 0⟩
      ∧ (recalDev ⟨0, 9, true, true, true, some 3, false, 0, true, 0, 0, 0⟩).sys.recal
          = some ⟨0, 9, true, true, true, some 3, false, 0, true, 0, 0, 0⟩
      ∧ (recalDev ⟨0, 9, true, true, false, none, true, 100, false, 0, 0, 0⟩).sys.recal
          = some ⟨0, 9, true, true, false, none, true, 100, false, 0, 0, 0⟩) := by
  (repeat' apply And.intro) <;> first | decide +kernel | rfl

/-- The always-on side with every wake source on, the RTC at 5, the alarm at 9. -/
def asleep (p : Phase) : Dev := { up .staging with sys := { (up .staging).sys with
  phase := p, wakePin := true, wakeSmb := true, wakeRtc := true, rtc := 5, rtcAlarm := 9 } }

theorem witness_PowerAndResetHappeningsAct :
    ((up .secure).sys.mainGood = true ∧ (up .secure).sys.aoGood = true)
    ∧ ({ (up .secure).sys with resetPending := some (0, 64) } : Sys).resetPending = some (0, 64)
    ∧ ((asleep .dormant).sys.phase = .dormant ∧ (asleep .dormant).sys.aoGood = true ∧ (asleep .dormant).sys.rtc ≤ 7#32
      ∧ (asleep .dormant).sys.wakePin = true ∧ (asleep .dormant).sys.wakeSmb = true ∧ (asleep .dormant).sys.wakeRtc = true
      ∧ (asleep .dormant).sys.rtc ≤ (asleep .dormant).sys.rtcAlarm)
    ∧ ((asleep .off).sys.phase = .off ∧ (asleep .off).sys.rtc ≤ 5#32)
    ∧ (({ (up .staging).sys with phase := .off, aoGood := false } : Sys).aoGood = false)
    ∧ ((up .secure).sys.phase ≠ .dormant)
    ∧ ((phased .sleeping (up .staging)).sys.phase = .sleeping ∧ (up .staging).ks.prepared = none
      ∧ (up .staging).sys.wakeLatch = none ∧ (up .staging).sys.wakeRtc = false)
    ∧ ((up .staging).sys.linkUp = true) := by
  (repeat' apply And.intro) <;> first | decide +kernel | rfl

/-- A start whose sequence has run. -/
def started : Dev := { phased .starting (up .staging) with sb := SignalBox.init }

theorem witness_StartLosesVolatileStateOnly :
    (State.reset.dev.sys.phase = .starting ∧ State.reset.dev.sys.startRun = false)
    ∧ (started.sys.phase = .starting ∧ started.sys.startRun = true ∧ started.sys.mode ≠ .halted
      ∧ entryTimeOk started 249900 = true ∧ entryTimeOk started 250100 = true ∧ started.sb.up = false ∧ started.sl.startFail = none
      ∧ started.sl.failedAtStart = [] ∧ started.tamp.later = [] ∧ started.grn.retiredAtStart = [] ∧ started.fw.report = none
      ∧ started.ks.recovery = []) := by
  (repeat' apply And.intro) <;> first | decide +kernel | rfl

/-! ### Ports, SecYs, keys -/

/-- A port of lane type and FEC code, one lane wide. -/
def port1 (typ fec : Nat) (cbr : Bool) : Port := ⟨typ, 1, fec, cbr, 0, false⟩

/-- Line ports 0 to 5 and client ports 0 to 5, of 50 Gb/s. -/
def ported (m : Mode) : Dev := { up m with ln := { Lanes.init with ports :=
  [(0, port1 2 1 false), (1, port1 2 1 false), (2, port1 2 1 false), (3, port1 2 1 false), (4, port1 2 1 false), (5, port1 2 1 false),
   (64, port1 2 1 false), (65, port1 2 1 false), (66, port1 2 1 false), (67, port1 2 1 false), (68, port1 3 0 true),
   (69, port1 2 1 false)] } }

def secy0 : Secy := ⟨0, 0, 0, 0x01081002#32, 0, 0, 0xFF000000, 0xFFFFFFFF, none, 16383, List.replicate 14 0⟩

/-- An SA of suite 2 on an object. -/
def saRec (state obj an pn : Nat) : SaRec := { blankSa with
  state := state, obj := obj, an := an, pn := pn, suite := 2, key := List.replicate 32 7 }

def rxSc : Nat := objKey 1 1

/-- Client port 0 bound to line port 0 with SecY 0, its SCs and SAs; client port 1 to line port 1, bare. -/
def bound (m : Mode) : Dev := { ported m with
  fm := { Fm.init with
    pairs := [(0, ⟨0, true, PtpSet.init, none, List.replicate 6 0⟩), (1, ⟨1, true, PtpSet.init, none, List.replicate 6 0⟩)]
    secys := [(0, secy0)]
    scs := [(0, ⟨0, true, 5, List.replicate 3 0, 0, none⟩), (1, ⟨0, false, 6, List.replicate 8 0, 0, none⟩)] }
  kc := { Kc.init with
    sas := [(0, saRec 2 0 0 5), (1, saRec 1 0 1 1), (2, saRec 2 rxSc 0 9), (3, saRec 1 rxSc 1 1)]
    objs := [(0, ⟨[(0, 0), (1, 1)], some 0⟩), (rxSc, ⟨[(0, 2), (1, 3)], none⟩)] } }

/-- A key slot whose every attribute is set. -/
def slot (typ owner n : Nat) : Slot := ⟨typ, owner, 0xFFFF, 2, List.replicate n 3, List.replicate n 5⟩

/-- With keys of 16, 32 and 32 (KDK) bytes, a PSK, and an ECDSA key and its peer's public key in key RAM. -/
def keyed (m : Mode) : Dev := { bound m with ks := { Ks.init with
  ram := [(256, slot 1 0 16), (257, slot 2 0 32), (258, slot 3 0 32), (259, slot 4 0 32), (260, slot 0x10 0 48),
    (261, slot 0x18 0 97), (262, slot 0x19 5 2592), (263, slot 0x18 5 97), (264, slot 1 5 16)] } }

theorem witness_FrameModeCommandsAct :
    (Passes cmdFmPortBind (rq 0 [0x02020000, 1]) (st (bound .staging))
      ∧ Passes cmdFmPortUnbind (rq 0 [0x01000000]) (st (bound .staging))
      ∧ (Passes cmdFmSecyCreate (rq 0 [0x00010000, 0x01081002, 0, 0, 7, 0]) (st (bound .staging))
        ∧ clientOfLine (bound .staging) 1 = some 1 ∧ freeSecy (bound .staging) 0 = some 1 ∧ freeSc (bound .staging) 0 = some 2
        ∧ (ruleIndex (bound .staging) 0 false).isSome = true)
      ∧ Passes cmdFmSecySet (rq 0 [0, 0x01081002, 64]) (st (bound .secure))
      ∧ Passes cmdFmSecyDelete (rq 0 [0]) (st (bound .secure))
      ∧ (Passes cmdFmScCreate (rq 0 [0, 0, 9]) (st (bound .secure)) ∧ freeSc (bound .secure) 0 = some 2)
      ∧ Passes cmdFmScDelete (rq 0 [1]) (st (bound .secure)))
    ∧ (Passes cmdFmStatsGet (rq 0 [0x30000002]) (st (bound .secure))
      ∧ Passes cmdFmPtpSet (rq 0 [0x0000001F, 0x1FF]) (st (bound .secure))
      ∧ Passes cmdFmBypassSet (rq 0 [0x10600]) (st (bound .secure))
      ∧ Passes cmdFmPnThresholdSet (rq 0 [0, 0x80000000, 1]) (st (bound .secure))
      ∧ Passes cmdFmRuleWrite (rq 0 [0x31FFF, 1, 0xA0000000, 0, 0, 0, 0, 0, 0, 0]) (st (bound .secure))
      ∧ Passes cmdFmRuleRead (rq 0 [0x80033FFF, 1]) (st (bound .secure))
      ∧ Passes cmdFmRuleCommit (rq 0 [3]) (st (bound .secure))
      ∧ (let d := { bound .secure with sys := { (bound .secure).sys with ticks := 1 } }
        let x := rulesOf (setRules 3 { rulesOf d 3 with armed := true } d) 3
        x.armed = true ∧ x.armedAt < d.sys.ticks)
      ∧ (rulesOf (bound .secure) 3).armed = false)
    ∧ (reqRule (rq 0 [0x31FFF, 1, 0xA0000000, 0, 0, 0, 0, 0, 0, 0]) 0 = [0xA0000000, 0, 0, 0, 0, 0, 0, 0]
      ∧ 0 < (rw (rq 0 [0x31FFF, 1, 0xA0000000, 0, 0, 0, 0, 0, 0, 0]) 1).toNat) := by
  (repeat' apply And.intro) <;> first | decide +kernel | rfl

/-- A frame of n bytes with an EtherType. -/
def frame (n etype : Nat) : Bytes :=
  List.replicate 6 2 ++ List.replicate 6 4 ++ beBytes 2 etype ++ List.replicate (n - 14) 0

/-- A classifier whose one row, at its first index, has the given word 0. -/
def ruled (w0 : Word) (d : Dev) : Dev := setRules 0 { rulesOf d 0 with active := [(0, [w0, 0, 0, 0, 0, 0, 0, 0])] } d

theorem witness_ClientFramesAreClassified :
    (let f := frame 60 0x0800
      let stay := measurePath 1 0 0 f (passTime 1 (bound .staging))
      let go := measurePath 1 0 0 f (passTime 1 (bound .secure))
      tget stay.fm.pairs 0 = some ⟨0, true, PtpSet.init, none, List.replicate 6 0⟩ ∧ runModes.contains stay.sys.mode = true
      ∧ captures stay 64 f = false ∧ trafficOn stay = false
      ∧ 60 ≤ f.length ∧ tget go.fm.pairs 0 = some ⟨0, true, PtpSet.init, none, List.replicate 6 0⟩
      ∧ runModes.contains go.sys.mode = true ∧ captures go 64 f = false ∧ trafficOn go = true
      ∧ etherType f ≠ 0x8808 ∧ etherType f ≠ go.fm.etype ∧ etherType f ≠ 0x888E ∧ (PtpSet.init.bypass && isPtp f) = false
      ∧ classify go 0 0 true f = .passIt
      ∧ classify (measurePath 1 0 0 f (passTime 1 (ruled 0x80400000#32 (bound .secure)))) 0 0 true f = .dropIt
      ∧ classify (measurePath 1 0 0 f (passTime 1 (ruled 0x90000000#32 (bound .secure)))) 0 0 true f = .protectIt 0
      ∧ tget go.fm.secys 0 = some secy0 ∧ polProtect secy0.policy = true ∧ f.length ≤ 15996)
    ∧ (let f := frame 60 0x8808
      let go := measurePath 1 0 0 f (passTime 1 (bound .secure))
      tget go.fm.pairs 0 = some ⟨0, true, PtpSet.init, none, List.replicate 6 0⟩ ∧ captures go 64 f = false ∧ trafficOn go = true
        ∧ etherType f = 0x8808)
    ∧ (let f := frame 60 0x9999
      let go := measurePath 1 0 0 f (passTime 1 { bound .secure with fm := { (bound .secure).fm with etype := 0x9999 } })
      tget go.fm.pairs 0 = some ⟨0, true, PtpSet.init, none, List.replicate 6 0⟩ ∧ captures go 64 f = false ∧ trafficOn go = true
        ∧ etherType f = go.fm.etype ∧ etherType f ≠ 0x8808) := by
  (repeat' apply And.intro) <;> first | decide +kernel | rfl

/-- A frame in flight. -/
def flight (rx : Bool) (stage : FrameStage) (pn : Nat) : Flight where
  id := 4
  rx := rx
  sa := if rx then 2 else 0
  sc := if rx then 1 else 0
  secy := 0
  pn := pn
  slice := 0
  stage := stage
  void := false
  inp := frame 60 0x0800
  aad := 28
  outp := frame 60 0x0800
  conf := true
  check := true
  verdict := false
  icvOk := true
  hold := true
  released := false
  ingress := if rx then 0 else 64
  egress := if rx then 64 else 0
  policy := secy0.policy
  queue := 0
  arrival := 0
  gen := 0
  owner := 0
  cycles := 9
  ptp := none
  reseal := none
  glean := none

def flying (fs : List Flight) (m : Mode) : Dev := { bound m with fm := { (bound m).fm with flights := fs, nextFlight := 9 } }

/-- Slice 0 ACTIVE, loading the context of SA 0. -/
def loading (m : Mode) : Dev := setSlice 0 { Slice.init with
  state := 1, seeded := true, ctxs := [⟨0, 0, 0, List.replicate 32 1, List.replicate 32 6, [], [], List.replicate 32 0, List.replicate 32 0, false⟩] } (bound m)

/-- SA 0's context does not verify in the Granary. -/
def unsound : Dev :=
  let d := flying [flight false .missing 9] .secure
  { d with grn := { d.grn with frames := [(0, ⟨5, ⟨0, [], false⟩, [(0, ([], []))]⟩)] } }

theorem witness_ReceivePathEvents :
    ((let g := fun (f : Bytes) (d : Dev) => 60 ≤ f.length ∧ pairOfLine d 0 = none ∧ clientOfLine d 0 = some 0
        ∧ tget d.fm.pairs 0 = some ⟨0, true, PtpSet.init, none, List.replicate 6 0⟩ ∧ runModes.contains d.sys.mode = true
        ∧ captures d 0 f = false ∧ trafficOn d = true
      let d := measurePath 0 0 0 (frame 60 0x88E5) (passTime 1 (bound .secure))
      let f := (frame 60 0x0800).take 12 ++ beBytes 2 d.fm.etype ++ [1] ++ List.replicate 45 0
      g (frame 60 0x88E5) d ∧ etherType (frame 60 0x88E5) ≠ d.fm.etype ∧ etherType (frame 60 0x88E5) = 0x88E5
        ∧ tagCount (frame 60 0x88E5) = 0 ∧ (PtpSet.init.bypass && isPtp (frame 60 0x88E5)) = false
        ∧ g (frame 60 0x8808) d ∧ etherType (frame 60 0x8808) ≠ d.fm.etype ∧ etherType (frame 60 0x8808) = 0x8808
        ∧ g f d ∧ etherType f = d.fm.etype ∧ beAt f (etherOff f + 2) 1 = 1)
      ∧ (flightOf (flying [flight true .done 9] .secure) 4 = some (flight true .done 9) ∧ (flight true .done 9).verdict = false
        ∧ (flight true .done 9).icvOk = true ∧ pairOfLine (flying [flight true .done 9] .secure) ((flight true .done 9).ingress % 64) = none)
      ∧ (let d := flying [flight false .missing 9] .secure
        d.fm.flights.filter (fun f => f.stage == .missing && f.sa == 0) = [flight false .missing 9]
          ∧ d.lm.missing.filter (fun m => m.sa == 0) = [] ∧ contextSound d 0 = true)
      ∧ (unsound.fm.flights.filter (fun f => f.stage == .missing && f.sa == 0) = [flight false .missing 9]
          ∧ unsound.lm.missing.filter (fun m => m.sa == 0) = [] ∧ contextSound unsound 0 = false)
      ∧ ((sliceOf (loading .secure) 0).ctxs.any (fun c => c.sa == 0 && !c.ready) = true ∧ slicePowered (loading .secure) 0 = true
        ∧ loadable (loading .secure) 0 = true ∧ (loading .secure).fm.flights = [])
      ∧ ((sliceOf (loading .locked) 0).ctxs.any (fun c => c.sa == 0 && !c.ready) = true
        ∧ loadable (loading .locked) 0 = false ∧ slicePowered (loading .locked) 0 = true))
    ∧ ((flight true .missing 1).stage ≠ .done ∧ ({ flight true .done 1 with void := true } : Flight).void = true
      ∧ (flight true .done 9).void = false ∧ (flight true .done 9).rx = true ∧ (flight true .done 9).hold = true
      ∧ saOf (bound .secure) 2 = some (saRec 2 rxSc 0 9) ∧ tget (bound .secure).fm.secys 0 = some secy0
      ∧ polReplay (flight true .done 8).policy = true
      ∧ (flight true .done 8).pn < max 1 ((saRec 2 rxSc 0 9).pn - secy0.window)) := by
  (repeat' apply And.intro) <;> first | decide +kernel | rfl

theorem witness_PacketNumbersMoveForward :
    (saOf (bound .secure) (flight true .done 9).sa = some (saRec 2 rxSc 0 9)
      ∧ tget (bound .secure).fm.secys (flight true .done 9).secy = some secy0
      ∧ lowestPn secy0 (saRec 2 rxSc 0 9) ≤ (flight true .done 9).pn)
    ∧ ((2 : Nat) ^ 32 - 1 ≤ 2 ^ 32 + 2 ^ 31 - 2 ∧ (2 : Nat) ^ 32 + 2 ^ 31 - 2 < 2 ^ 32 - 1 + 2 ^ 31
      ∧ (2 : Nat) ^ 32 + 2 ^ 31 - 2 < 2 ^ 64) := by
  (repeat' apply And.intro) <;> first | decide +kernel | rfl

/-! ### Line mode -/

/-- Line ports 0 and 1 of 50 Gb/s in line mode, line port 4 not; client port 3 an Ethernet port, 4 a CBR port; Sheaf 5
over lane 0 when `withSheaf`; lane 0 in SYNC at position 7. -/
def lined (m : Mode) (withSheaf : Bool) : Dev := { ported m with lm := { Lm.init with
  ports := [(0, 0), (1, 0), (2, 0)]
  lanes := [(0, { LmLane.init with sync := true, pos := 7, rxSheaf := 5, barred := [(3, 0)] })]
  sheaves := if withSheaf then [(5, ⟨0, [0], []⟩), (6, ⟨0, [1], []⟩)] else [] } }

/-- Client port 4 mapped as CBR onto slots 0 to 1 of Sheaf 5, in every copy of the table. -/
def mapped (m : Mode) : Dev :=
  let r : Table (List Word) := [(4, [0xA0000005#32, 1000000#32, 0x00000002#32, 0#32])]
  let d := lined m true
  { d with lm := { d.lm with shadow := r, txCopy := r, rxCopy := r, txNow := r, rxNow := r } }

theorem witness_LineModeCommandsAct :
    Passes cmdLmPortEnable (rq 0 [0x00040003]) (st (lined .staging false))
    ∧ Passes cmdLmPortDisable (rq 0 [0x00020000]) (st (lined .staging true))
    ∧ Passes cmdLmSheafCreate (rq 0 [0x00010005, 0, 0]) (st (lined .staging false))
    ∧ Passes cmdLmSheafCreate (rq 0 [0x00020005, 4000, 0x0100]) (st (lined .staging false))
    ∧ Passes cmdLmSheafDelete (rq 0 [5]) (st (lined .staging true))
    ∧ (Passes cmdLmClientMap (rq 0 [0x04000005, 0x20000000, 1000000]) (st (lined .staging true))
      ∧ (mapRecord (lined .staging true) (rq 0 [0x04000005, 0x20000000, 1000000])).isSome = true)
    ∧ Passes cmdLmClientUnmap (rq 0 [0x04000000]) (st (mapped .staging))
    ∧ Passes cmdLmLaneStatus (rq 0 [63]) (st (lined .locked true))
    ∧ Passes cmdLmTraceSet (rq 0 (0 :: List.replicate 16 0x41424344)) (st (lined .secure true))
    ∧ Passes cmdLmTraceGet (rq 0 [0x80000000]) (st (lined .secure true))
    ∧ Passes cmdLmDescWrite (rq 0 [4, 0xA0000005, 1000000, 0x00060002, 1015]) (st (lined .secure true))
    ∧ Passes cmdLmDescRead (rq 0 [0x80000004]) (st (mapped .secure))
    ∧ Passes cmdLmDescCommit (rq 0 [5, 0, 2, 0, 2]) (st (mapped .secure))
    ∧ Passes cmdLmHuntWrite (rq 0 [3, 0x00FF0FFF]) (st (lined .secure true))
    ∧ Passes cmdLmHuntRead (rq 0 [3]) (st (lined .secure true))
    ∧ Passes cmdLmTestMode (rq 0 [0x80000000]) (st (lined .secure true))
    ∧ Passes cmdLmDefectGet (rq 0 [0x80000004]) (st (mapped .secure))
    ∧ Passes cmdLmPmGet (rq 0 [0x07000000]) (st (lined .secure true))
    ∧ Passes cmdLmDefectParamWrite (rq 0 [0x01010001, 0x11]) (st (lined .secure true))
    ∧ Passes cmdLmDefectParamRead (rq 0 []) (st (lined .secure true))
    ∧ Passes cmdLmMaintSet (rq 0 [0xC0000000]) (st (lined .secure true)) := by
  (repeat' apply And.intro) <;> first | decide +kernel | rfl

/-- An Esurdel frame without payload. -/
def esFrame : Bytes := List.replicate 8192 0

/-- Sheaf 5 holds one frame of counter value 0. -/
def waitingFrame (m : Mode) (arrival : Nat) : Dev :=
  let d := lined m true
  { d with lm := { d.lm with sheaves := [(5, ⟨1000, [0], [⟨0, 0, .lost, [], arrival⟩]⟩)] } }

/-- Lanes with and without a signal, in and out of SYNC, at n raw cycles. -/
def lossy (signal sync : Bool) (n : Nat) : Dev :=
  let d := setLane 0 { Lane.init with signal := signal, lock := signal } (lined .secure true)
  passTime n (setLm 0 { lmLane d 0 with sync := sync, rxSheaf := if sync then 4 else 5 } d)

theorem witness_LineModeFramesAct :
    ((3 : Nat) < 4 ∧ txRuns (passTime 1 (lined .secure true)) = true)
    ∧ ((let d := passTime 1 (lined .secure true)
        txRuns d = true ∧ isLmLane d 0 = true ∧ (0 : Nat) < lanes otp ∧ esFrame.length = 8192
        ∧ (lmLane d 0).sync = true ∧ 7 = (lmLane d 0).pos ∧ (7 : Nat) < 8192 ∧ 8191 ≠ (lmLane d 0).pos ∧ (8191 : Nat) < 8192
        ∧ isLmLane d 1 = true ∧ (lmLane d 1).sync = false)
      ∧ (let d := passTime 20000000 (lined .secure true)
        (3, 0) ∈ (lmLane d 0).barred ∧ 0 * 25 + hBar (huntOf d 0) * (14336 * 2 ^ laneType d 0) ≤ rawNow d * 25)
      ∧ (let d := passTime 1 (waitingFrame .secure 0)
        tget d.lm.sheaves 5 = some ⟨1000, [0], [⟨0, 0, .lost, [], 0⟩]⟩ ∧ rawNow d < 0 + 1000 * 1750)
      ∧ (let d := passTime 1750000 (waitingFrame .secure 0)
        skewDue d ⟨1000, [0], [⟨0, 0, .lost, [], 0⟩]⟩ [⟨0, 0, .lost, [], 0⟩] = true
        ∧ trafficOn d = true ∧ pathOfSheaf d 5 = none)
      ∧ (trafficOn (waitingFrame .locked 0) = false ∧ egressBlocked (waitingFrame .locked 0) = true)
      ∧ (txRuns (lined .secure true) = true ∧ (2 : Nat) < 4 ∧ (tgetD (lined .secure true).lm.txFc 2 (0, 0)).1 = 256 * 0)
      ∧ (let d := { lined .secure true with lm := { (lined .secure true).lm with commits := [(5, ⟨none, some 12, false⟩)] } }
        txRuns d = true ∧ (tget d.lm.sheaves 5).isSome = true ∧ tget d.lm.commits 5 = some ⟨none, some 12, false⟩)) := by
  (repeat' apply And.intro) <;> first | decide +kernel | rfl

theorem witness_DefectsAndSecondsAct :
    (let periods := fun n => n * (14336 * 2 ^ laneType (lossy true true 1) 0)
      let off := lossy false false 20000000
      let on := lossy true true 20000000
      isLmLane off 0 = true ∧ isLmLane on 0 = true
      ∧ ((laneOf off 0).signal = false ∧ (laneOf off 0).signalAt + 3500 ≤ rawNow off)
      ∧ ((laneOf on 0).signal = true ∧ (laneOf on 0).signalAt + 175000 ≤ rawNow on)
      ∧ ((laneOf on 0).lock = true ∧ (laneOf on 0).lockAt + 175000 ≤ rawNow on)
      ∧ ((lmLane off 0).sync = false ∧ (lmLane off 0).syncAt * 25 + periods (fld off.lm.prm0 23 16) ≤ rawNow off * 25)
      ∧ ((lmLane on 0).sync = true ∧ (lmLane on 0).syncAt * 25 + periods (fld on.lm.prm0 31 24) ≤ rawNow on * 25)
      ∧ ((lmLane on 0).epoch = none ∧ (lmLane on 0).syncAt * 25 + periods 256 ≤ rawNow on * 25)
      ∧ (let d := setLm 0 { lmLane on 0 with fit := some false } on
        fitOf d 0 = some false ∧ (lmLane d 0).fit = some false ∧ (lmLane d 0).fitAt * 25 + periods 8 ≤ rawNow d * 25)
      ∧ (let d := setLm 0 { lmLane on 0 with rxSheaf := 5, fit := some true } on
        fitOf d 0 = some true ∧ (lmLane d 0).fit = some true ∧ (lmLane d 0).fitAt * 25 + periods 64 ≤ rawNow d * 25)
      ∧ rawNow (lossy false false 1) < (laneOf (lossy false false 1) 0).signalAt + 3500)
    ∧ (let d := { lined .secure true with tu := { Tu.init with tBase := secU } }
      tuRuns (passTime 1 d) = true ∧ (passTime 1 d).tu.lastSec < secOf (timeNow (passTime 1 d))) := by
  (repeat' apply And.intro) <;> first | decide +kernel | rfl

theorem witness_PayloadComesBack :
    (List.replicate (ethBlocks 3) (0 : BitVec 257)).length = ethBlocks 3 ∧ (2 : Nat) < 3 ∧ (3 : Nat) < 4 := by
  (repeat' apply And.intro) <;> first | decide +kernel | rfl

/-! ### Slices -/

/-- A DRBG instance that runs. -/
def drbg : Drbg := ⟨true, ⟨List.replicate 32 1, 2⟩, 5⟩

def source (state fails : Nat) : Source := ⟨state, 0, 0, fails, Health.init, []⟩

/-- Page 5 owns a 16-byte slice key in slot 264; a bulk job of page 5 runs on Siding 32. -/
def bulky (m : Mode) : Dev :=
  let d := keyed m
  let job : BulkJob := ⟨5, 7, 1, false, 264, List.replicate 16 1, List.replicate 16 4, List.replicate 16 0, 0, List.replicate 32 0,
    64, 32, some 32, 0, 0⟩
  { d with sl := { d.sl with
    bulk := [job]
    source0 := source 0 0
    source1 := source 1 2
    keyDrbg := drbg
    lineDrbg := drbg } }

/-- A sample of slice 0, its SA at generation 0. -/
def sample (first : Option Bytes) (second : Option Nat) : Sample := ⟨0, 0, 0, 0, 28, List.replicate 60 1, List.replicate 16 9, 32, first, second⟩

def sampled (m : Mode) (x : Sample) : Dev :=
  let d := loading m
  { d with sl := { d.sl with samples := [x] } }

theorem witness_SlicesAndBulkAct :
    (Passes cmdSliceStatus (rq 0 [143]) (st (bound .locked))
      ∧ Passes cmdSliceMap (rq 0 []) (st (bound .locked))
      ∧ Passes cmdRngStatus (rq 65 []) (st (bound .locked))
      ∧ Passes cmdBulkSubmit (rq 5 [0x10000108, 0, 0, 0, 0, 64, 0, 32, 128, 0, 32, 0] (List.replicate 32 0)) (st (bulky .secure))
      ∧ (Passes cmdBulkCancel (rq 5 [7]) (st (bulky .secure))
        ∧ ((bulky .secure).sl.bulk.find? (fun j => j.page == 5 && j.tag == rf (rq 5 [7]) 0 7 0)).isSome = true)
      ∧ (Passes cmdSliceTest (rq 0 [3]) (st (setSlice 3 { Slice.init with state := 7 } (bound .secure)))
        ∧ (sliceOf (setSlice 3 { Slice.init with state := 7 } (bound .secure)) (rf (rq 0 [3]) 0 7 0)).state = 7)
      ∧ Passes cmdSliceShadowSet (rq 0 [0x80000000]) (st (bound .staging)))
    ∧ ((let d := sampled .secure (sample none none)
        d.sys.mode ≠ .locked
        ∧ d.sl.samples.find? (fun x => x.slice == 0 && x.first.isSome == false) = some (sample none none)
        ∧ sampleLives d (sample none none) = true ∧ sampleLives d { sample none none with gen := 1 } = false
        ∧ List.replicate 16 8 ≠ (sample none none).tag)
      ∧ (let x := sample (some (List.replicate 16 8)) (some 33)
        let y := sample (some (List.replicate 16 8)) none
        (sampled .secure x).sl.samples.find? (fun x => x.slice == 0 && x.first.isSome == true) = some x ∧ x.second = some 33
          ∧ List.replicate 16 8 ≠ x.tag
          ∧ (sampled .secure y).sl.samples.find? (fun x => x.slice == 0 && x.first.isSome == true) = some y ∧ y.second = none
          ∧ katFail otp (List.replicate 7 (true, true)) = 0 ∧ katFail otp ((true, false) :: List.replicate 6 (true, true)) ≠ 0)
      ∧ (sliceOf (setSlice 32 { Slice.init with state := 5 } (bound .secure)) 32).state = 5
      ∧ ((143 : Nat) < slices otp ∧ (sliceOf (setSlice 143 { Slice.init with state := 2 } (bulky .secure)) 143).state ≠ 0
        ∧ (bulky .secure).sl.keyDrbg.up = true)
      ∧ (let d := takeSamples 1 [true] (takeSamples 0 [true, false] (bulky .secure))
        let e := { bulky .secure with sl := { (bulky .secure).sl with source0 := source 2 3 } }
        d.sl.keyDrbg.up = true ∧ d.sl.source0.state = 0
          ∧ (takeSamples 1 [true] (takeSamples 0 [true, false] e)).sl.source0.state ≠ 0
          ∧ (takeSamples 1 [true] (takeSamples 0 [true, false] e)).sl.source1.state ≠ 0)
      ∧ ((sourceOf (bulky .secure) 0).state = 0 ∧ (sourceOf (bulky .secure) 0).health = Health.init ∧ (Health.init.samples [true, false]).2 = 0
        ∧ (Health.init.samples (List.replicate 41 true)).2 = 1
        ∧ (Health.init.samples (List.replicate 160 [true, true, true, true, true, false]).flatten).2 = 2)
      ∧ ((sourceOf (bulky .secure) 1).state = 1 ∧ (sourceOf (bulky .secure) 1).fails = 2 ∧ (source 1 0).fails < 2
        ∧ 1024 ≤ (List.replicate 512 [true, false]).flatten.length
        ∧ (Health.init.samples ((List.replicate 512 [true, false]).flatten.take 1024)).2 = 0)
      ∧ ((bulky .secure).sl.bulk.find? (fun j => j.page == 5 && j.tag == 7 && j.siding.isSome)).isSome = true
      ∧ (let d := bound .secure
        ({ d with sl := { d.sl with testing := [(0, 9, 3, true)] } } : Dev).sl.testing.find? (fun x => x.2.2.1 == 3) = some (0, 9, 3, true)))
    := by
  (repeat' apply And.intro) <;> first | decide +kernel | rfl

theorem witness_RenewedSharesKeepKeys :
    (∀ c ∈ (sliceOf (loading .secure) 0).ctxs, c.key1.length = c.key2.length ∧ c.auth1.length = c.auth2.length
      ∧ c.hash1.length = c.hash2.length)
    ∧ (sliceOf (loading .secure) 0).ctxs ≠ []
    ∧ (∀ p ∈ (keyed .secure).ks.flash ++ (keyed .secure).ks.ram, p.2.share1.length = p.2.share2.length)
    ∧ (keyed .secure).ks.ram ≠ [] := by
  (repeat' apply And.intro) <;> first | decide +kernel | rfl

/-! ### Dispatcher and placement -/

/-- Group 0 (line port 0, transmit) on slice 0, with objects of SC 0. -/
def grouped (m : Mode) : Dev :=
  let d := bound m
  { d with dsp := { d.dsp with groups := [(0, ⟨[0], false, false, 0, 0, 0, [0]⟩)] } }

def moving (m : Mode) (x : Move) : Dev :=
  let d := grouped m
  { d with dsp := { d.dsp with moves := [(1, x)] } }

def objMove (phase : Nat) : Move := ⟨0, some (0, 1, 0), 0, 0, 0, 0, phase, 1⟩

/-- Line port 0 of 8 lanes of 200 Gb/s: its groups have eight slices, so a stripe can widen. -/
def wideDev : Dev :=
  let d := grouped .secure
  { d with
    ln := { d.ln with ports := [(0, ⟨0, 8, 1, false, 0, false⟩)] }
    dsp := { d.dsp with spreads := [(0, ⟨1, 0, 0, 0, 2, 0, 0⟩)] } }

/-- The object of SC 0 is pinned, or is not; its group 0 is of class 1. -/
def pinnedDev : Dev :=
  let d := wideDev
  { d with dsp := { d.dsp with pins := [0], spreads := [(0, ⟨8, 0, 0, 0, 0, 64, 0⟩)] } }

/-- The source of a move of positions, group 0 from slice 0 to slice 1. -/
def posMove (phase : Nat) : Move := ⟨0, none, 0, 0, 1, 0, phase, 1⟩

/-- Every slice in service and seeded. -/
def inService (d : Dev) : Dev := setSlice 1 { Slice.init with state := 1, seeded := true } (setSlice 0 { Slice.init with state := 1, seeded := true } d)

def ticked (n : Nat) (d : Dev) : Dev := { d with sys := { d.sys with ticks := n } }

/-- Sector 0 calls for relief, with slices to avoid. -/
def sagging (avoid : List Nat) : Dev :=
  let d := setRelief 0 { Relief.init with above := 2 } (grouped .secure)
  { d with dsp := { d.dsp with avoid := avoid } }

theorem witness_DispatcherAndPlacementAct :
    (Passes cmdDspGroupGet (rq 0 [0]) (st (grouped .locked))
      ∧ Passes cmdDspPlaceGet (rq 0 [0]) (st (grouped .locked))
      ∧ Passes cmdDspStatsGet (rq 0 []) (st (grouped .locked))
      ∧ (let r := rq 0 [0x10000000, 0, 0]
        Passes cmdDspHintSet r (st pinnedDev) ∧ rf r 0 31 28 = 1 ∧ bit (rw r 0) 27 = false)
      ∧ (let r := rq 0 [0x18000000, 0, 0]
        let pin := fun (d : Dev) => { d with dsp := { d.dsp with pins := addNat 0 d.dsp.pins } }
        Passes cmdDspHintSet r (st pinnedDev) ∧ rf r 0 31 28 = 1 ∧ bit (rw r 0) 27 = true ∧ ow (rw r 1) = 0
          ∧ (hintedSas (pin pinnedDev)).length ≤ 16384 ∧ groupW pinnedDev 0 ≤ (spreadOf (pin pinnedDev) 0).s
          ∧ Passes cmdDspHintSet r (st wideDev) ∧ (hintedSas (pin wideDev)).length ≤ 16384
          ∧ (spreadOf (pin wideDev) 0).s < groupW wideDev 0 ∧ objKind 0 < 2)
      ∧ (let r := rq 0 [0x28000001, 0, 0]
        Passes cmdDspHintSet r (st (grouped .secure)) ∧ rf r 0 31 28 = 2)
      ∧ (Passes cmdDspHintSet (rq 0 [0x30000000, 3, 0]) (st (grouped .secure)) ∧ rf (rq 0 [0x30000000, 3, 0]) 0 31 28 = 3
        ∧ bit (rw (rq 0 [0x30000000, 3, 0]) 0) 27 = false)
      ∧ (Passes cmdDspHintSet (rq 0 [0x38000000, 3, 0]) (st (grouped .secure)) ∧ bit (rw (rq 0 [0x38000000, 3, 0]) 0) 27 = true
        ∧ (grouped .secure).dsp.avoid.length < 32)
      ∧ (let d := grouped .secure
        let e := { d with dsp := { d.dsp with avoid := (List.range 32).map (· + 40) } }
        Passes cmdDspHintSet (rq 0 [0x38000000, 3, 0]) (st e) ∧ 32 ≤ e.dsp.avoid.length ∧ e.dsp.avoid.contains 3 = false)
      ∧ (let r := rq 0 [0x48000001, 0, 0]
        Passes cmdDspHintSet r (st (grouped .secure)) ∧ rf r 0 31 28 = 4 ∧ bit (rw r 0) 27 = true ∧ rf r 0 3 0 = 1
          ∧ (let d := grouped .secure
            (hintedSas { d with dsp := { d.dsp with classes := tset d.dsp.classes 0 1 } }).length ≤ 16384))
      ∧ Passes cmdDspHintGet (rq 0 [0x20000000, 3]) (st (grouped .secure))
      ∧ Passes cmdDspTableWrite (rq 0 [0x80010000, 0xFFFFFF03, 0xFFFFFFFF]) (st (setSlice 3 { Slice.init with state := 1 } (grouped .secure)))
      ∧ Passes cmdDspTableRead (rq 0 [0x80000000]) (st (grouped .secure))
      ∧ Passes cmdDspTableCommit (rq 0 []) (st (grouped .secure))
      ∧ Passes cmdDspParamWrite (rq 0 [0x501E1040, 0x32000064]) (st (grouped .secure))
      ∧ Passes cmdDspParamRead (rq 0 []) (st (grouped .locked))
      ∧ (let d := grouped .secure
        let e := ticked 1 { d with dsp := { d.dsp with commit := some (0, 9, false, 0) } }
        e.dsp.commit = some (0, 9, false, 0) ∧ e.dsp.commitAt < e.sys.ticks
          ∧ (∀ g ∈ e.dsp.groups, tget e.dsp.active g.1 = tget e.dsp.shadow g.1)
          ∧ (ticked 0 e).sys.ticks ≤ (ticked 0 e).dsp.commitAt))
    ∧ ((let d := inService (moving .secure (objMove 0))
        moveOf d 1 = some (objMove 0) ∧ (objMove 0).phase = 0 ∧ moveBlocked d 1 (objMove 0) = false ∧ moveLocked d (objMove 0) = false
        ∧ tgetD d.dsp.started (moveSector (objMove 0)) 0 < fld d.dsp.prm0 7 0 ∧ moveTargets d (objMove 0) = [0]
        ∧ (∀ t ∈ moveTargets d (objMove 0), slicePowered d t = true) ∧ (objMove 1).phase ≠ 0)
      ∧ (let d := inService (moving .secure (objMove 1))
        moveOf d 1 = some (objMove 1) ∧ (objMove 1).obj = some (0, 1, 0) ∧ (objMove 1).phase = 1
          ∧ (∀ t ∈ moveTargets d (objMove 1), ∀ c ∈ (sliceOf d t).ctxs, c.ready = true ∨ c.sa ∉ moveSas d (objMove 1)))
      ∧ (let d := inService (moving .secure (posMove 1))
        moveOf d 1 = some (posMove 1) ∧ (posMove 1).obj = none
          ∧ (∀ t ∈ moveTargets d (posMove 1), ∀ c ∈ (sliceOf d t).ctxs, c.ready = true ∨ c.sa ∉ moveSas d (posMove 1)))
      ∧ (moveOf (moving .secure (objMove 2)) 1 = some (objMove 2) ∧ draining (moving .secure (objMove 2)) (objMove 2) = false)
      ∧ (objGroup wideDev 0 = some 0 ∧ (tget wideDev.dsp.groups 0).isSome = true ∧ (tget wideDev.dsp.spreads 0).isSome = true
        ∧ wideDev.dsp.pins.contains 0 = false
        ∧ wideDev.dsp.moves.any (fun p => p.2.obj.map (·.1) == some 0) = false ∧ 2 ≤ (spreadOf wideDev 0).above
        ∧ (spreadOf wideDev 0).s * 2 ≤ groupW wideDev 0
        ∧ (let sp : Spread := ⟨8, 0, 0, 0, 0, 64, 0⟩
          sp.above < 2 ∧ fld wideDev.dsp.prm0 15 8 ≤ sp.under ∧ 2 ≤ sp.s))
      ∧ (let d := setRelief 3 { Relief.init with above := 2 } (bound .secure)
        3 < sectors otp ∧ (reliefOf d 3).on = false ∧ 2 ≤ (reliefOf d 3).above ∧ d.dsp.groups = [])
      ∧ (let g : Nat × Group := (0, ⟨[0], false, false, 0, 0, 0, [0]⟩)
        let d := fun (avoid : List Nat) => setRelief 0 { reliefOf (sagging avoid) 0 with on := true, calm := 0, moved := [] } (sagging avoid)
        (reliefOf (sagging []) 0).on = false ∧ 2 ≤ (reliefOf (sagging []) 0).above
          ∧ reliefGroups (d []) 0 = [g] ∧ (relieve otp 0 g (d [])).isSome = true
          ∧ reliefGroups (d (List.range 144)) 0 = [g] ∧ (relieve otp 0 g (d (List.range 144))).isNone = true)
      ∧ (let d := setRelief 3 { Relief.init with on := true, calm := 100 } (bound .secure)
        (reliefOf d 3).on = true ∧ fld d.dsp.prm1 15 0 ≤ (reliefOf d 3).calm ∧ (reliefOf d 3).moved = [])
      ∧ (let d := setRelief 0 { Relief.init with on := true, calm := 100, moved := [(0, [1])] } (grouped .secure)
        (reliefOf d 0).on = true ∧ fld d.dsp.prm1 15 0 ≤ (reliefOf d 0).calm ∧ (reliefOf d 0).moved = [(0, [1])]
          ∧ (tget (dropWaiting 0 d).dsp.groups 0).isSome = true)
      ∧ (let d := setSlice 7 { Slice.init with state := 1, idle := 100 } (grouped .secure)
        (sliceOf d 7).state = 1 ∧ isSiding 7 = false ∧ 100 ≤ (sliceOf d 7).idle ∧ sliceUnused d 7 = true ∧ unclaimed d 7 = true))
    := by
  (repeat' apply And.intro) <;> first | decide +kernel | rfl

/-- 16,385 SAs of the pinned object. -/
def crowded : Dev :=
  let d := pinnedDev
  { d with kc := { d.kc with sas := List.replicate 16385 (0, saRec 2 0 0 5) } }

/-- A hint that finds more SAs than it may pin. -/
theorem witness_HintsReachTheirLimit :
    Passes cmdDspHintSet (rq 0 [0x18000000, 0, 0]) (st crowded)
    ∧ 16384 < (hintedSas { crowded with dsp := { crowded.dsp with pins := addNat 0 crowded.dsp.pins } }).length
    ∧ Passes cmdDspHintSet (rq 0 [0x48000001, 0, 0]) (st crowded)
    ∧ 16384 < (hintedSas { crowded with dsp := { crowded.dsp with classes := tset crowded.dsp.classes 0 1 } }).length := by
  refine ⟨by (repeat' apply And.intro) <;> first | decide +kernel | rfl, ?_,
    by (repeat' apply And.intro) <;> first | decide +kernel | rfl, ?_⟩ <;>
  · unfold hintedSas crowded
    rw [List.filter_replicate_of_pos (by decide +kernel), List.length_replicate]
    decide

/-! ### SAs, schedules, chains, key agreement -/

/-- A chain on the receive SC, its KEK in slot 258; a schedule of the transmit SC's SA at second 1. -/
def chained (m : Mode) : Dev :=
  let d := keyed m
  let c : Chain := ⟨0, 258, List.replicate 32 1, 1, 7, 10, false, 0, true, 0, none, 0⟩
  { d with kc := { d.kc with
    chains := [(objKey 1 2, c)]
    scheds := [(3, ⟨0, 0, secU, 20, 20, 100, [(0, 1)], false, false, false⟩)] } }

/-- An SA in overlap on the transmit SC, one on the receive SC; a destroyed one; one that has switched. -/
def retiring (m : Mode) : Dev :=
  let d := bound m
  { d with kc := { d.kc with sas :=
    [(0, { saRec 3 0 0 5 with retireAt := some 0 }), (2, { saRec 3 rxSc 0 9 with retireMax := some 0 }),
     (4, { saRec 4 0 2 0 with key := [] }), (5, { saRec 2 rxSc 1 9 with switched := some (3, 0, 20, 100) })] } }

theorem witness_SecurityAssociationCommands :
    ((Passes cmdSaInstall (rq 0 [0x08000000, 257, 0, 0, 0, 0, 1, 0]) (st (keyed .secure))
        ∧ freeSa otp (keyed .secure) = some 4
        ∧ keyReused (keyed .secure) (installRec (keyed .secure) (rq 0 [0x0A000000, 257, 0, 0, 0, 0, 1, 0])) = false)
      ∧ (let r := rq 0 [0x08000000, 257, 0, 0, 0, 0, 0xFF000000, 0]
        Passes cmdSaInstall r (st (keyed .secure)) ∧ pnThreshold secy0 (installRec (keyed .secure) r).suite ≤ (installRec (keyed .secure) r).pn)
      ∧ (let r := rq 0 [0x88000001, 257, 0, 0, 0, 0, 0, 0]
        let x := installRec (keyed .secure) r
        let d := { keyed .secure with
          kc := { (keyed .secure).kc with sas := [(0, { x with an := 1, state := 2 })] }
          lm := (lined .secure false).lm }
        Passes cmdSaInstall r (st d) ∧ freeSa otp d = some 1 ∧ keyReused d (installRec d r) = true)
      ∧ (Passes cmdSaInstall (rq 0 [0x48000001, 257, 0, 0, 0, 0, 1, 0]) (st (keyed .secure))
        ∧ keyReused (keyed .secure) (installRec (keyed .secure) (rq 0 [0x48000001, 257, 0, 0, 0, 0, 1, 0])) = false
        ∧ objKind (installRec (keyed .secure) (rq 0 [0x48000001, 257, 0, 0, 0, 0, 1, 0])).obj ≠ 0)
      ∧ Passes cmdSaDestroy (rq 0 [2]) (st (bound .locked))
      ∧ (Passes cmdSaSetEncoding (rq 0 [0x04000000]) (st (bound .secure))
        ∧ (namedSa (bound .secure) (rw (rq 0 [0x04000000]) 0)).map (·.state) = some 1)
      ∧ (Passes cmdSaSetEncoding (rq 0 [0]) (st (bound .secure))
        ∧ (namedSa (bound .secure) (rw (rq 0 [0]) 0)).map (·.state) = some 2)
      ∧ Passes cmdSaStatus (rq 0 [0xFFFFF]) (st (bound .locked))
      ∧ (saOf (retiring .secure) 4 = some { saRec 4 0 2 0 with key := [] }))
    ∧ ((Passes cmdKcSchedule (rq 0 [0, 0, 0, 0x00010000, 0x04000000]) (st (bound .secure))
        ∧ tooSoon (bound .secure) (schedT (rq 0 [0, 0, 0, 0x00010000, 0x04000000])) = true)
      ∧ (Passes cmdKcSchedule (rq 0 [0, 1, 0, 0x00010000, 0x04000000]) (st (bound .secure))
        ∧ tooSoon (bound .secure) (schedT (rq 0 [0, 1, 0, 0x00010000, 0x04000000])) = false ∧ freeSched (bound .secure) = some 0)
      ∧ Passes cmdKcCancel (rq 0 [3]) (st (chained .secure))
      ∧ Passes cmdKcChainCreate (rq 0 [0x40000002, 258, 7, 0x000A0000])
          (st (let d := keyed .secure
            { d with fm := { d.fm with scs := d.fm.scs ++ [(2, ⟨0, false, 8, List.replicate 8 0, 0, none⟩)] } }))
      ∧ Passes cmdKcChainDelete (rq 0 [0x40000002]) (st (chained .secure))
      ∧ (Passes cmdKcRekeyAll (rq 0 [0, 1, 0, 0]) (st (bound .secure)) ∧ tooSoon (bound .secure) (schedT (rq 0 [0, 1, 0, 0])) = false)
      ∧ Passes cmdKcParamWrite (rq 0 [0x00010001, 1]) (st (bound .secure))
      ∧ Passes cmdKcParamRead (rq 0 []) (st (bound .locked))) := by
  (repeat' apply And.intro) <;> first | decide +kernel | rfl

def at1s (d : Dev) : Dev := { d with tu := { d.tu with tBase := 20 * secU } }

theorem witness_KeyChangeInstantsAct :
    ((tget (passTime 1 (chained .secure)).kc.scheds 3).isSome = true
      ∧ (tget (passTime 1 (at1s (chained .secure))).kc.scheds 3).map (fun x => preloadDue (passTime 1 (at1s (chained .secure))) x) = some true
      ∧ reachedAt (timeNow (passTime 1 (at1s (chained .secure)))) secU = true)
    ∧ ((saOf (passTime 1 (retiring .secure)) 0).map (fun x => (x.state, isTx x.obj, x.retireAt)) = some (3, true, some 0)
      ∧ reachedAt (timeNow (passTime 1 (retiring .secure))) 0 = true
      ∧ (let d := retiring .secure
        let d := passTime 1 { d with kc := { d.kc with sas := [(2, { saRec 3 rxSc 0 9 with retireMax := some 0 })] } }
        let e := setRetire rxSc d
        (saOf d 2).map (fun x => (x.state, isTx x.obj, x.obj)) = some (3, false, rxSc)
          ∧ (saOf e 2).map (fun y => (y.state, isTx y.obj, retireInstant y)) = some (3, false, some 0)
          ∧ reachedAt (timeNow e) 0 = true))
    ∧ ((saOf (passTime 1 (at1s (retiring .secure))) 5).map (fun x => (x.switched, isTx x.obj, x.state, x.t1, x.t1b, x.told))
        = some (some (3, 0, 20, 100), false, 2, none, none, false)
      ∧ reachedAt (timeNow (passTime 1 (at1s (retiring .secure)))) (0 + 20 * tickU) = true)
    ∧ ((tget (passTime 1 (at1s (chained .secure))).kc.chains (objKey 1 2)).map (fun c => (c.period, c.lastPeriod)) = some (10, 0)
      ∧ 0 < secOf (timeNow (passTime 1 (at1s (chained .secure)))) / 10 * 10
      ∧ targetSa (passTime 1 (at1s (chained .secure))) (objKey 1 2, 0) = none
      ∧ (let d := at1s (bound .secure)
        let e := { d with kc := { d.kc with chains := [(0, ⟨0, 258, List.replicate 32 1, 0, 7, 10, false, 0, true, 0, none, 0⟩)] } }
        (targetSa e (0, 0)).isSome = true ∧ isTx 0 = true)
      ∧ (let d := at1s (bound .secure)
        let e := { d with kc := { d.kc with chains := [(rxSc, ⟨0, 258, List.replicate 32 1, 0, 7, 10, false, 0, true, 0, none, 0⟩)] } }
        (targetSa e (rxSc, 0)).isSome = true ∧ isTx rxSc = false))
    ∧ ((slotRec (keyed .secure) 258).isSome = true ∧ slotRec (bound .secure) 258 = none)
    ∧ (let d := bound .secure
      let e := { d with kc := { d.kc with chains := [(0, ⟨0, 258, List.replicate 32 1, 0, 7, 10, false, 0, true, 0, some (0, 9), 0⟩)] } }
      (tget e.kc.chains 0).map (·.creating) = some (some (0, 9)) ∧ e.sb.up = true)
    ∧ (let d := chained .secure
      let e := { d with kc := { d.kc with rekeyAll := some (5, 0) } }
      e.kc.rekeyAll = some (5, 0) ∧ (tget e.kc.scheds 5).isNone = true ∧ e.kc.chains.all (fun c => c.2.nextReady) = true) := by
  (repeat' apply And.intro) <;> first | decide +kernel | rfl

theorem witness_DestroyedAssociationKeepsNoKey : saOf (bound .secure) 0 = some (saRec 2 0 0 5) ∧ (saRec 2 0 0 5).state ≠ 4
    ∧ (1 : Nat) ≠ 0 := by
  (repeat' apply And.intro) <;> first | decide +kernel | rfl

/-- Peer 2: method 3 (a PSK), association 7, on line port 0. -/
def peer (state : Nat) (initiator : Bool) : Peer := { peerOf (rq 0 [0x8C000002, 7, 259, 0, 300, 0, 0, 0]) with
  state := state, initiator := initiator, sends := 1, waited := 200 }

def peered (p : Peer) : Dev :=
  let d := keyed .secure
  { d with kc := { d.kc with peers := [(2, p)] } }

/-- A message of a type, with its form. -/
def kaMsg (typ len : Nat) : Bytes := kaHeader typ 3 len 7 ++ List.replicate (len - 8) 0

theorem witness_KeyAgreementActs :
    Passes cmdKaPeerSet (rq 0 [0x8C000002, 7, 259, 0, 300, 0, 0, 0]) (st (keyed .secure))
    ∧ (Passes cmdKaStart (rq 0 [2]) (st (peered (peer 0 false))) ∧ tget (peered (peer 0 false)).kc.peers 2 = some (peer 0 false))
    ∧ Passes cmdKaStatus (rq 0 [2]) (st (peered (peer 1 true)))
    ∧ ((takeUp 0 (kaHeader 1 3 1757 7 ++ [1, 0, 0, 0] ++ List.replicate 1745 0) (peered (peer 0 false))).1 = some (2, peer 0 false)
      ∧ (let m := kaHeader 1 3 1757 7 ++ [1, 0, 0, 0] ++ List.replicate 1745 0
        beAt m 0 1 = 1 ∧ (peer 0 false).state ≠ 1 ∧ (peer 0 false).answers = true ∧ beAt m 1 1 = (peer 0 false).method
          ∧ kaForm 1 1757 (peer 0 false) m = true ∧ beAt m 8 4 = 0x01000000))
    ∧ ((takeUp 0 (kaMsg 2 1849) (peered (peer 1 true))).1 = some (2, peer 1 true) ∧ (peer 1 true).initiator = true
      ∧ (peer 1 true).state = 1 ∧ beAt (kaMsg 2 1849) 0 1 = 2
      ∧ (peer 1 true).mResp = [] ∧ kaForm 2 (1801 + kaSigLen 3) (peer 1 true) (kaMsg 2 1849) = true)
    ∧ ((takeUp 0 (kaMsg 3 104) (peered (peer 1 false))).1 = some (2, peer 1 false) ∧ (peer 1 false).initiator = false
      ∧ beAt (kaMsg 3 104) 0 1 = 3 ∧ (peer 1 false).state = 1
      ∧ kaForm 3 (56 + kaSigLen 3) (peer 1 false) (kaMsg 3 104) = true)
    ∧ ((takeUp 0 (kaMsg 0x0F 12) (peered (peer 1 true))).1 = some (2, peer 1 true) ∧ kaForm 0x0F 12 (peer 1 true) (kaMsg 0x0F 12) = true)
    ∧ (tget (peered (peer 1 true)).kc.peers 2 = some (peer 1 true) ∧ 200 ≤ (peer 1 true).waited ∧ (peered (peer 1 true)).sb.up = true
      ∧ (peer 1 true).sends < 5 ∧ 5 ≤ ({ peer 1 true with sends := 5 } : Peer).sends) := by
  (repeat' apply And.intro) <;> first | decide +kernel | rfl

/-- The DONE message of R290 is the one that the initiator awaits, whatever its authentication key. -/
theorem witness_KeyAgreementDone (p : Peer) (h : p = { peer 1 true with mFin := [1] }) :
    (takeUp 0 (kaDoneMsg (peered p) p) (peered p)).1 = some (2, p) ∧ p.state = 1 ∧ p.initiator = true ∧ p.mFin ≠ [] := by
  subst h
  exact ⟨rfl, rfl, rfl, by decide⟩

/-! ### Granary -/

/-- The Granary initialised. -/
def granary (m : Mode) : Dev :=
  let d := bound m
  { d with grn := { d.grn with kt := List.replicate 32 1 } }

def rekeyDev (x : Option Rekeying) (y : Option Retiring) : Dev :=
  let d := granary .secure
  { d with grn := { d.grn with
    rekeying := x
    retiring := y } }

theorem witness_GranaryAndWinnowerAct :
    (Passes cmdGrnRekey (rq 0 [4]) (st (granary .secure))
      ∧ (Passes cmdGrnRetire (rq 0 [63]) (st (granary .secure)) ∧ otp.retired.any (fun c => c / 16 == rf (rq 0 [63]) 0 5 0 / 16) = false)
      ∧ (let s : State := { st (granary .secure) with otp := { otp with retired := [48] } }
        Passes cmdGrnRetire (rq 0 [63]) s ∧ s.otp.retired.any (fun c => c / 16 == rf (rq 0 [63]) 0 5 0 / 16) = true)
      ∧ Passes cmdGrnStatus (rq 0 []) (st (granary .locked))
      ∧ Passes cmdGrnRegionGet (rq 0 [5]) (st (granary .locked))
      ∧ Passes cmdGrnChannelGet (rq 0 [63]) (st (granary .locked))
      ∧ Passes cmdGrnFaultLog (rq 0 [0x80000000]) (st (granary .locked))
      ∧ Passes cmdGrnHaltRecord (rq 65 []) (st (granary .locked))
      ∧ Passes cmdGrnRegionSet (rq 0 [4194304, 2097152, 22708224, 262144]) (st (granary .staging))
      ∧ Passes cmdGrnParamWrite (rq 0 [0x01001810, 10000]) (st (granary .secure))
      ∧ Passes cmdGrnParamRead (rq 0 []) (st (granary .secure)))
    ∧ ((let d := setRegion 4 { Region.init with lines := 0x0001000000000000#64 } (granary .secure)
        winnowerWorks d = true ∧ fld d.grn.prm0 31 16 * 2 ^ 40 ≤ (regionOf d 4).lines.toNat ∧ d.grn.waiting.contains 4 = false
          ∧ d.grn.rekeying = none ∧ d.grn.retiring = none)
      ∧ ((rekeyDev (some ⟨2, 1, some (0, 9)⟩) none).grn.rekeying = some ⟨2, 1, some (0, 9)⟩
        ∧ winnowerWorks (rekeyDev (some ⟨2, 1, some (0, 9)⟩) none) = true)
      ∧ ((rekeyDev none (some ⟨63, 1, 10, 0, 0, 9⟩)).grn.retiring = some ⟨63, 1, 10, 0, 0, 9⟩
        ∧ winnowerWorks (rekeyDev none (some ⟨63, 1, 10, 0, 0, 9⟩)) = true
        ∧ fld (rekeyDev none (some ⟨63, 1, 10, 0, 0, 9⟩)).grn.prm1 15 0 ≤ 10)
      ∧ ((rekeyDev none (some ⟨63, 2, 0, 0, 0, 9⟩)).grn.retiring = some ⟨63, 2, 0, 0, 0, 9⟩
        ∧ winnowerWorks (rekeyDev none (some ⟨63, 2, 0, 0, 0, 9⟩)) = true
        ∧ (newPlace otp (rekeyDev none (some ⟨63, 2, 0, 0, 0, 9⟩)) (4 * 2 ^ 20) 0).isSome = true)
      ∧ ((rekeyDev none (some ⟨63, 3, 0, 7, 0, 9⟩)).grn.retiring = some ⟨63, 3, 0, 7, 0, 9⟩
        ∧ granaryUp (rekeyDev none (some ⟨63, 3, 0, 7, 0, 9⟩)) = true ∧ (granary .secure).sb.up = true ∧ (granary .secure).grn.waiting = [])
      ∧ (granaryUp (granary .secure) = true ∧ channelLive otp 63 = true
        ∧ tgetD (granary .secure).grn.rowErrors (63 * 2 ^ 24 + 5) 0 + 1 ≠ fld (granary .secure).grn.prm0 7 0
        ∧ (let n := fld (granary .secure).grn.prm0 7 0 - 1
          let d := granary .secure
          let e := { d with grn := { d.grn with rowErrors := [(63 * 2 ^ 24 + 5, n)] } }
          tgetD e.grn.rowErrors (63 * 2 ^ 24 + 5) 0 + 1 = fld e.grn.prm0 7 0 ∧ (channelOf e 63).rows < 12288)
        ∧ 12288 ≤ ({ channelOf (granary .secure) 63 with rows := 12288 } : Channel).rows)
      ∧ (nodeInMemory (granary .secure) 3 5 = true ∧ frameOk otp 7 = true ∧ (63 : Nat) < 64
        ∧ (let d := granary .secure
          frameHeld { d with grn := { d.grn with frames := [(0, ⟨7, ⟨0, [], false⟩, []⟩)] } } 7 = true))) := by
  (repeat' apply And.intro) <;> first | decide +kernel | rfl

theorem witness_LineNoncesNeverRepeat :
    lineNonce 1#4 2#26 3#6 4#64 5#7 0#2 = lineNonce 1#4 2#26 3#6 4#64 5#7 0#2
    ∧ (⟨2 ^ 64 - 2, [(3, 127)], true⟩ : PageCtr).major.toNat < 2 ^ 64 - 1
    ∧ (List.replicate 64 (7 : Byte)).length = 64
    ∧ tgetD (⟨2 ^ 64 - 2, [(3, 127)], true⟩ : PageCtr).minors 3 0 ≤ 127 := by
  (repeat' apply And.intro) <;> first | decide +kernel | rfl

/-! ### Path pairs -/

/-- A frame-mode pair 4 of line ports 0 and 3 with the claim SC 0. -/
def pair4 : PathPair := reqPair (bound .secure) (rq 0 [0x40000004, 40, 0x00000003, 0x00000021, 0])

/-- Both paths READY with class 15. -/
def readyPair : PathPair := { pair4 with
  a := { pair4.a with state := 2, accepted := 0xFFFF, health := 15, missed := false }
  b := { pair4.b with state := 2, accepted := 0xFFFF, health := 15, missed := false } }

def paired (p : PathPair) : Dev :=
  let d := bound .secure
  { d with
    pth := { d.pth with pairs := [(4, p)] }
    ln := { d.ln with lanes := [(0, { Lane.init with signal := true, lock := true }), (3, { Lane.init with signal := true, lock := true })] } }

theorem witness_PathCommandsAct :
    Passes cmdPathPairCreate (rq 0 [4, 0, 0x00000003, 0x00000021, 0]) (st (bound .secure))
    ∧ Passes cmdPathPairCreate (rq 0 [0xC0000004, 40, 0x00050006, 0x00000021, 0]) (st (mapped .secure))
    ∧ Passes cmdPathPairDelete (rq 0 [4]) (st (paired readyPair))
    ∧ (tget (paired readyPair).pth.pairs (rf (rq 0 [4]) 0 4 0) = some readyPair ∧ Passes cmdPathStatus (rq 65 [4]) (st (paired readyPair))
      ∧ Passes cmdPathPrioritySet (rq 0 [0x000F0104]) (st (paired readyPair))
      ∧ Passes cmdPathRequest (rq 0 [0x00000004]) (st (paired readyPair)) ∧ rf (rq 0 [0x00000004]) 0 31 28 = 0
      ∧ Passes cmdPathRequest (rq 0 [0x10000104]) (st (paired readyPair)) ∧ rf (rq 0 [0x10000104]) 0 31 28 = 1
      ∧ Passes cmdPathRequest (rq 0 [0x20000104]) (st (paired readyPair)) ∧ rf (rq 0 [0x20000104]) 0 31 28 = 2
      ∧ Passes cmdPathRequest (rq 0 [0x30000104]) (st (paired readyPair)) ∧ rf (rq 0 [0x30000104]) 0 31 28 = 3)
    ∧ Passes cmdPathProfileWrite (rq 0 [3, 0x00010000, 0x00010110]) (st (bound .secure))
    ∧ Passes cmdPathProfileRead (rq 0 [3]) (st (bound .secure)) := by
  (repeat' apply And.intro) <;> first | decide +kernel | rfl

/-- A claim frame for pair 4, path B. -/
def claimBytes : Bytes :=
  List.replicate 12 2 ++ beBytes 2 (bound .secure).fm.etype ++ [2, 1, 0x84, 0] ++ beBytes 2 0xF000 ++ beBytes 8 6 ++ beBytes 8 9 ++ List.replicate 24 0

theorem witness_ClaimsAndPathTimersAct :
    ((let p := { readyPair with claimAt := some 0 }
        let d := passTime 20000000 (paired p)
        tget d.pth.pairs 4 = some p ∧ p.line = false ∧ trafficOn d = true ∧ p.claimAt = some 0 ∧ 0 + usCycles (pfPeriod d p) ≤ rawNow d)
      ∧ ((tget (paired readyPair).fm.scs readyPair.claimSc).isSome = true ∧ encodingSa (paired readyPair) (objKey 0 readyPair.claimSc) = some 0
        ∧ (saOf (paired readyPair) 0).map (·.exhausted) = some false)
      ∧ (let d := passTime 1 (paired readyPair)
        trafficOn d = true ∧ 60 ≤ claimBytes.length ∧ beAt claimBytes 12 2 = d.fm.etype ∧ beAt claimBytes 14 1 = 2
          ∧ beAt claimBytes 15 1 = 1 ∧ readyPair.line = false
          ∧ tget d.pth.pairs (beAt claimBytes 16 1 % 32) = some readyPair ∧ pairOfLine d 3 = some (4, readyPair, true))
      ∧ (let d := passTime 200000000 (paired readyPair)
        tget d.pth.pairs 4 = some readyPair ∧ (1 : Nat) < 2
          ∧ (readyPair.pathEnd (1 == 1)).heard + usCycles (pfMiss d readyPair * pfPeriod d readyPair) ≤ rawNow d))
    ∧ ((let p := { readyPair with b := { readyPair.b with state := 1 } }
        (p.pathEnd true).state = 1 ∧ endFit (paired p) p (p.pathEnd true) = true
          ∧ (let d := paired p
            let e := { d with sys := { d.sys with ticks := 100000 } }
            tget e.pth.pairs 4 = some p ∧ endFit e p (p.pathEnd true) = true ∧ (p.pathEnd true).since + pfGuard e p ≤ e.sys.ticks))
      ∧ (let p := { readyPair with holdoff := some (3, 0) }
        let d := passTime 200000000 (paired p)
        tget d.pth.pairs 4 = some p ∧ p.holdoff = some (3, 0) ∧ 0 + usCycles (10 * pfHoldoff d p) ≤ rawNow d)
      ∧ (let p := { readyPair with hold := some (0, false) }
        let d := passTime 14000 (paired p)
        tget d.pth.pairs 4 = some p ∧ p.hold = some (0, false) ∧ 0 + 14000 ≤ rawNow d)
      ∧ (let d := passTime 20000000 (paired readyPair)
        tget d.pth.pairs 4 = some readyPair ∧ readyPair.hitless = true ∧ trafficOn d = true ∧ readyPair.line = false
          ∧ unitDue d readyPair 0 none ≤ rawNow d ∧ unitDue d { readyPair with line := true } 0 none ≤ rawNow d)) := by
  (repeat' apply And.intro) <;> first | decide +kernel | rfl

theorem witness_PointsFollowTheDecisionTable :
    ((judgeEnd (paired pair4) pair4 pair4.a).health ≤ 4
      ∧ localClass { paired pair4 with ln := (bound .secure).ln } pair4 pair4.a ≤ 3)
    ∧ (let p := { readyPair with a := { readyPair.a with lockout := true } }
      p.selected ≤ 1 ∧ pointsRow (paired p) p = some (1, 5))
    ∧ (let p := { readyPair with force := some 1 }
      pointsRow (paired p) p = some (1, 3))
    ∧ (let p := { readyPair with a := { readyPair.a with state := 0 } }
      pointsRow (paired p) p = some (1, 2))
    ∧ (let p := { readyPair with a := { readyPair.a with health := 6 } }
      (pointsRow (paired p) p).isSome = true)
    ∧ (readyPair.selected ≤ 1 ∧ 0 < pfHyst (paired readyPair) readyPair ∧ readyPair.holdoff = none ∧ readyPair.force = none
      ∧ readyPair.a.lockout = false ∧ readyPair.b.lockout = false ∧ readyPair.a.state = readyPair.b.state
      ∧ claimOf readyPair.a = claimOf readyPair.b)
    ∧ tget (paired readyPair).pth.pairs 4 = some readyPair := by
  (repeat' apply And.intro) <;> first | decide +kernel | rfl

/-! ### Egress -/

def qframe : QFrame := ⟨1, frame 60 0x0800, false, 0, 0, 64, none, none, false, false, none, none, none⟩

/-- Queue 6 of line port 0 and the queue of client port 0 hold a frame each. -/
def queued (m : Mode) : Dev := setQueue (lineQueue 0 6) { Queue.init with frames := [qframe] }
  (setQueue (clientQueue 0) { Queue.init with frames := [qframe] } (bound m))

def gated (t : Timetable) : Dev := setTt 0 t (bound .secure)

/-- Two entries of 1 ms. -/
def tt2 : Timetable := ⟨[(0x7F, 1000000), (0x80, 1000000)], 0, 0, [(0, (1, 500000)), (1, (2, 500000))], none⟩

theorem witness_EgressCommandsAct :
    (Passes cmdSchShapeSet (rq 0 [0x00000006, 0x00186A00, 84]) (st (bound .secure))
      ∧ Passes cmdSchClassSet (rq 0 [0x80000000, 0x66543210, 0]) (st (bound .secure))
      ∧ Passes cmdSchClassSet (rq 0 [0, 6, 0]) (st (bound .secure))
      ∧ Passes cmdSchStatsGet (rq 0 [0x80000000]) (st (bound .locked))
      ∧ Passes cmdSchSampleGet (rq 0 [0x40000007]) (st (bound .locked))
      ∧ Passes cmdSchTtStatus (rq 0 [0x003F0000]) (st (bound .locked))
      ∧ Passes cmdSchQueueWrite (rq 0 [7, 1600000, 16777216, 4194304]) (st (bound .secure))
      ∧ Passes cmdSchQueueRead (rq 0 [7]) (st (bound .locked))
      ∧ Passes cmdSchTtWrite (rq 0 [0x000003FF, 1, 0xFF, 50]) (st (bound .secure))
      ∧ Passes cmdSchTtRead (rq 0 [0x800003FF, 1]) (st (bound .secure))
      ∧ Passes cmdSchTtCommit (rq 0 [2, 0, 1, 0]) (st (gated tt2))
      ∧ Passes cmdSchTtCommit (rq 0 [0, 0, 60, 0]) (st (gated tt2)))
    ∧ ((ttOf (passTime 1 (gated tt2)) 0).active ≠ []
      ∧ ((ttOf (passTime 1 (gated { tt2 with armed := some (2, 0, 0) })) 0).armed = some (2, 0, 0)
        ∧ reachedAt (timeNow (passTime 1 (gated { tt2 with armed := some (2, 0, 0) }))) 0 = true)
      ∧ (rawNow (passTime 1 (gated tt2)) / 1024 = (passTime 1 (gated tt2)).sch.sampled
        ∧ rawNow (passTime 1024 (gated tt2)) / 1024 ≠ (passTime 1024 (gated tt2)).sch.sampled)) := by
  (repeat' apply And.intro) <;> first | decide +kernel | rfl

/-- What a port has after its gated frames have gone. -/
def ungated (p : Nat) (d : Dev) : Dev :=
  (List.range 8).foldl (fun d q => dropGated p q (queueOf d (lineQueue p q)).frames.length d) d

theorem witness_PortTakesHighestEligibleQueue :
    ((let d := passTime 1 (queued .secure)
      portFree d 0 = true ∧ hostFrame d 0 = none ∧ lineBound d 0 = true ∧ eligible (ungated 0 d) 0 6 = true
        ∧ (∀ k, 6 < k → k ≤ 7 → eligible (ungated 0 d) 0 k = false))
      ∧ (∀ q, q ≤ 7 → eligible (ungated 0 (passTime 1 (queued .staging))) 0 q = false))
    ∧ (let d := passTime 1 (queued .secure)
      portFree d (64 + 0) = true ∧ hostFrame d (64 + 0) = none ∧ clientBound d 0 = true ∧ (queued .secure).sys.mode = .secure)
    ∧ (let d := passTime 1 (queued .locked)
      portFree d (64 + 0) = true ∧ hostFrame d (64 + 0) = none ∧ d.sys.phase = .up ∧ d.sys.mode = .locked) := by
  refine ⟨⟨⟨by decide +kernel, by decide +kernel, by decide +kernel, by decide +kernel, ?_⟩, ?_⟩,
    by (repeat' apply And.intro) <;> decide +kernel, by (repeat' apply And.intro) <;> decide +kernel⟩
  · intro k h h'
    have : k = 7 := by omega
    subst this
    decide +kernel
  · have h : ((List.range 8).all fun q => !eligible (ungated 0 (passTime 1 (queued .staging))) 0 q) = true := by decide +kernel
    intro q hq
    simpa using List.all_eq_true.mp h q (by simp; omega)

theorem witness_SwapFallsOnCycleBoundary : (tt2.active ≠ [] ∧ 1 ≤ cycleNs tt2.active) ∧ Timetable.init.active = []
    ∧ Queue.init.credit ≤ burstU { Queue.init with w2 := 0x6A010000#32 } := by
  (repeat' apply And.intro) <;> first | decide +kernel | rfl

/-! ### Time -/

/-- The device with other time state. -/
def timed (m : Mode) (f : Tu → Tu) : Dev :=
  let d := bound m
  { d with tu := f d.tu }

/-- 20 s, with a PPS edge stamped at it and a ToD message accepted for it. -/
def ppsTu (t : Tu) : Tu := { t with
  tBase := 20 * secU
  ppsStamp := some (0, 20 * secU)
  tod := some (true, 21, 0, 20 * secU)
  pps := 0x60000064#32 }

/-- A ToD message for second 21. -/
def todBytes : Bytes := todMessage (timed .secure ppsTu) true 21

/-- 2 ms after the PPS edge. -/
def todDev : Dev :=
  let d := timed .secure ppsTu
  { d with sys := { d.sys with ticks := 2 } }

theorem witness_TimeCommandsAndRegistersAct :
    (Passes cmdTimeGet (rq 65 []) (st (up .locked))
      ∧ Passes cmdTimeStep (rq 0 [0, 0, 5, 0]) (st (timed .secure ppsTu))
      ∧ Passes cmdTimeStep (rq 0 [1, 0, 5, 999999999]) (st (timed .secure ppsTu))
      ∧ Passes cmdTimeStep (rq 0 [2, 0, 0, 0]) (st (timed .secure ppsTu))
      ∧ Passes cmdTimeRateSet (rq 0 [0xFE0C0000]) (st (up .secure))
      ∧ Passes cmdTimePtpSend (rq 0 ([0x80000001, 60] ++ List.replicate 15 0)) (st (bound .secure))
      ∧ (Passes cmdTimePtpRecv (rq 0 []) (st (bound .secure)) ∧ (bound .secure).tu.ring = [])
      ∧ ((timed .secure (fun t => { t with ring := [⟨0, 0, 0, 0, frame 60 0x88F7⟩] })).tu.ring = [⟨0, 0, 0, 0, frame 60 0x88F7⟩])
      ∧ Passes cmdTimeCaptureSet (rq 0 [0xE0000000, 0x01020304, 0x05060000]) (st (bound .secure))
      ∧ Passes cmdTimePpsSet (rq 0 [0xF0000000 + 500000]) (st (up .secure))
      ∧ Passes cmdTimeTodGet (rq 0 []) (st (up .locked))
      ∧ Passes cmdTimeModelSet (rq 0 [1]) (st (up .staging))
      ∧ Passes cmdTimeRearm (rq 0 [3, 0, 0, 0]) (st (up .secure))
      ∧ Passes cmdTimeDelaySet (rq 0 [0xC000003F, 0xFFFE7960]) (st (up .secure))
      ∧ Passes cmdTimeDelayGet (rq 0 [0xC000003F]) (st (up .locked))
      ∧ Passes cmdTimeRefSet (rq 0 [0]) (st (up .staging))
      ∧ Passes cmdTimeRefSet (rq 0 [2]) (st (timed .staging (fun t => { t with turef := 2 }))))
    ∧ (bar2Ready (up .secure) = true ∧ bit 0xE0000000#32 31 = true
      ∧ (timed .secure (fun t => { t with txq := [⟨1, 3, 7, 0, 5⟩] })).tu.txq = [⟨1, 3, 7, 0, 5⟩]) := by
  (repeat' apply And.intro) <;> first | decide +kernel | rfl

theorem witness_TimeHappeningsAct :
    (tuRuns (passTime 1 todDev) = true ∧ bit (passTime 1 todDev).tu.pps 28 = false
      ∧ bit (passTime 1 (timed .secure (fun t => { t with pps := 0x10000064#32 }))).tu.pps 28 = true)
    ∧ (let d := passTime 20000 (timed .secure (fun t => { t with ppsUntil := some 17500 }))
      d.tu.ppsUntil = some 17500 ∧ 17500 ≤ rawNow d)
    ∧ (bit (passTime 1 todDev).tu.pps 29 = true ∧ todOk (passTime 1 todDev) todBytes = true
      ∧ (passTime 1 todDev).tu.ppsStamp = some (0, 20 * secU))
    ∧ (let d := timed .secure (fun t => { ppsTu t with todDue := some (21, 0) })
      (passTime 17500000 d).tu.todDue = some (21, 0) ∧ 0 + 17500000 ≤ rawNow (passTime 17500000 d)
        ∧ bit (passTime 17500000 d).tu.pps 30 = true)
    ∧ ((1 : Nat) = 1 ∨ (1 : Nat) = 2) ∧ (63 : Nat) < lanes otp
    ∧ 64 ≤ tgetD (timed .secure (fun t => { t with dBlock := [(dk 1 0 5, 64)] })).tu.dBlock (dk 1 0 5) 0
    ∧ isPtpEvent ((frame 60 0x88F7).take 14 ++ [0, 2] ++ List.replicate 44 0) = true
    ∧ (let x : PtpOut := ⟨1, 0, 7, true, frame 60 0x88F7⟩
      let y : PtpOut := ⟨1, 1, 7, false, frame 60 0x88F7⟩
      let d := passTime 1 (timed .secure (fun t => { t with ptpOut := [x, y] }))
      d.tu.ptpOut.find? (fun x => lk x.side x.port == lk 1 0) = some x ∧ d.tu.ptpOut.find? (fun x => lk x.side x.port == lk 1 1) = some y
        ∧ d.sys.mode = .secure ∧ clientBound d 0 = true ∧ portFree d (lk 1 0) = true ∧ x.stamp = true ∧ y.stamp = false
        ∧ clientBound d 1 = true ∧ portFree d (lk 1 1) = true
        ∧ (passTime 1 (timed .locked (fun t => { t with ptpOut := [x, y] }))).sys.mode = .locked) := by
  (repeat' apply And.intro) <;> first | decide +kernel | rfl

theorem witness_TimeIsContinuousAndSteps :
    (let x : TimePend := ⟨false, 0, 0xFFFFFFFF#32, 0xFFFFFFFF#32, 0, 0, 0⟩
      let y : TimePend := ⟨true, 3, 0, 0, 0, 0, 0⟩
      let d := ticked 1 (timed .secure (fun t => { ppsTu t with pend := [x] }))
      let e := ticked 1 (timed .secure (fun t => { t with pend := [y] }))
      d.tu.pend = [x] ∧ x.tick < d.sys.ticks ∧ 0 ≤ (timeNow d : Int) + pendDelta d x
        ∧ e.tu.pend = [y] ∧ y.rearm = true ∧ y.tick < e.sys.ticks ∧ y.kind = 3)
    ∧ ((todDev.tu.cBase ≤ rawNow todDev) ∧ todDev.tu.modelF = false ∧ todDev.tu.modelNext = none) := by
  (repeat' apply And.intro) <;> first | decide +kernel | rfl

/-! ### Lanes -/

/-- Client lane 1 in a state, of the port of client port 1. -/
def laned (l : Lane) : Dev := setLane 65 l (ported .secure)

def laneIn (state : Nat) : Lane := { Lane.init with state := state, word := 0x80000001#32 }

theorem witness_LanesAct :
    (Passes cmdPortConfig (rq 0 [0x80080000, 0x08100000]) (st (ported .staging))
      ∧ (Passes cmdPortDelete (rq 0 [0x80010000]) (st (ported .staging)) ∧ (portOf (ported .staging) (pwKey (rw (rq 0 [0x80010000]) 0))).isSome = true)
      ∧ Passes cmdLaneStatus (rq 65 [0x8000003F]) (st (ported .locked))
      ∧ Passes cmdLaneRetrain (rq 0 [0x80000301]) (st (ported .secure))
      ∧ Passes cmdPortFallow (rq 0 [0x80010001]) (st (ported .secure))
      ∧ Passes cmdLaneTestSet (rq 0 [0x91100001]) (st (ported .secure))
      ∧ Passes cmdLaneTestGet (rq 0 [0xC0000001]) (st (ported .locked))
      ∧ Passes cmdLaneSeqWrite (rq 0 [3, 0x80000001, 0x80000001, 0x80000001, 0x80000001, 0x80000001, 0x80000000]) (st (up .staging))
      ∧ Passes cmdLaneSeqRead (rq 0 [3]) (st (up .locked))
      ∧ Passes cmdLaneTxeqSet (rq 0 [0x80000008, 0x00FA37FE]) (st (up .staging))
      ∧ Passes cmdLaneAdaptSet (rq 0 [0x80000101]) (st (up .secure)))
    ∧ ((let d := fun n => laned (laneIn n)
        let within := fun n => laneKeyOk otp 1 1 = true ∧ stageMay (d n) (lk 1 1) 1023 = true ∧ (laneOf (d n) (lk 1 1)).state = n
          ∧ rawNow (d n) - (laneOf (d n) (lk 1 1)).stageAt < 1750 * (10 * fld (laneOf (d n) (lk 1 1)).word 19 0)
        within 1 ∧ within 2 ∧ within 3 ∧ within 4 ∧ within 5
          ∧ portOfLane (d 5) (lk 1 1) = some 65 ∧ (portOf (d 5) 65).isSome = true)
      ∧ (let d := fun (w : Word) => passTime 17500 (laned { laneIn 4 with word := w, retries := 3 })
        let late := fun w => 1 ≤ (laneOf (d w) (lk 1 1)).state ∧ (laneOf (d w) (lk 1 1)).state ≤ 5
          ∧ (laneOf (d w) (lk 1 1)).waiting = false ∧ (laneOf (d w) (lk 1 1)).retries = 3
          ∧ 1750 * (10 * fld (laneOf (d w) (lk 1 1)).word 19 0) ≤ rawNow (d w) - (laneOf (d w) (lk 1 1)).stageAt
        late 0x80000001#32 ∧ fld 0x80000001#32 27 24 = 0
          ∧ late 0x84000001#32 ∧ 3 < fld 0x84000001#32 27 24
          ∧ late 0x93000001#32 ∧ fld 0x93000001#32 27 24 ≠ 0 ∧ fld 0x93000001#32 27 24 ≤ 3 ∧ fld 0x93000001#32 30 28 ≠ 0
          ∧ late 0x83000001#32 ∧ fld 0x83000001#32 27 24 ≠ 0 ∧ fld 0x83000001#32 27 24 ≤ 3 ∧ fld 0x83000001#32 30 28 = 0)
      ∧ ((laneOf (laned (laneIn 6)) (lk 1 1)).state = 6 ∧ (laneIn 6).frozen = false ∧ (laneIn 6).trial = none
        ∧ (let d := ticked 1 (laned { laneIn 6 with trial := some ⟨200, 0, 0⟩ })
          (laneOf d (lk 1 1)).trial = some ⟨200, 0, 0⟩ ∧ (⟨200, 0, 0⟩ : Trial).tick < d.sys.ticks ∧ 198 + 1 < (⟨200, 0, 0⟩ : Trial).fom
            ∧ (⟨200, 0, 0⟩ : Trial).fom ≤ 199 + 1))
      ∧ ((ported .secure).ln.jtagDrive = false
        ∧ ({ ported .secure with ln := { (ported .secure).ln with jtagDrive := true } } : Dev).ln.jtagDrive = true)) := by
  (repeat' apply And.intro) <;> first | decide +kernel | rfl

theorem witness_StageEntryFollowsProfile :
    ((0 : Nat) ≤ 6 ∧ (6 : Nat) ≤ 6) ∧ ((1 : Nat) ≤ 1 ∧ (1 : Nat) ≤ 6)
    ∧ nextStage [0x80000001#32, 0#32, 0x80000001#32, 0x80000001#32, 0x80000001#32, 0x80000000#32] 2 = 3 := by
  (repeat' apply And.intro) <;> first | decide +kernel | rfl

/-! ### Key store, public-key engine -/

/-- BLANK, before provisioning. -/
def blankSt (d : Dev) : State := { st d with otp := { otp with life := .blank } }

def sealing (f : Ks → Ks) : Dev :=
  let d := keyed .secure
  { d with ks := f d.ks }

theorem witness_KeyStoreActs :
    (Passes cmdKsIdentityGet (rq 65 []) (st (keyed .locked))
      ∧ Passes cmdKsIdentityGet (rq 0 [64, 0, 1665]) (st (keyed .locked))
      ∧ Passes cmdKsSealSubmit (rq 0 [64, 0, 1748] (List.replicate 1748 0)) (st (keyed .secure))
      ∧ Passes cmdKsSlotInfo (rq 5 [264]) (st (keyed .locked))
      ∧ Passes cmdKsCounterGet (rq 5 [0x80000005]) (st (keyed .locked))
      ∧ Passes cmdKsDerive (rq 5 [0x4002012C, 0xF11D, 4, 0x41424344]) (st (keyed .secure))
      ∧ Passes cmdKsSlotFree (rq 5 [264]) (st (keyed .secure))
      ∧ Passes cmdKsAttest (rq 0 (List.replicate 8 1)) (st (keyed .locked))
      ∧ (Passes cmdKsProvision (rq 0 [64, 0, 5000] (List.replicate 5000 0)) (blankSt (keyed .staging)) ∧ (keyed .staging).ks.provision = none)
      ∧ Passes cmdKsCredentialSet (rq 0 [0x00030005, 0x01060107]) (st (keyed .secure)))
    ∧ (((sealing (fun k => { k with queue := [⟨0, 9, []⟩] })).ks.prepared = none
        ∧ (sealing (fun k => { k with queue := [⟨0, 9, []⟩] })).ks.queue = ⟨0, 9, []⟩ :: [])
      ∧ ((sealing (fun k => { k with prepared := some ⟨0, 9, []⟩, journal := some ⟨256, none, 5, 0⟩ })).ks.prepared = some ⟨0, 9, []⟩
        ∧ (sealing (fun k => { k with prepared := some ⟨0, 9, []⟩, journal := some ⟨256, none, 5, 0⟩ })).ks.journal = some ⟨256, none, 5, 0⟩)
      ∧ ((sealing (fun k => { k with provision := some ⟨0, 9, []⟩ })).ks.provision = some ⟨0, 9, []⟩
        ∧ (blankSt (keyed .staging)).otp.life = .blank)) := by
  (repeat' apply And.intro) <;> first | decide +kernel | rfl

/-- A job of page 0 for an operation, its inputs as found. -/
def job (op : Nat) (fail : Option (Nat × Nat)) : PkeJob :=
  ⟨0, 9, [BitVec.ofNat 32 (op * 2 ^ 24 + 1)] ++ List.replicate 21 0, [], [[3], [2], [2]], fail, 0⟩

def pkeDev (r : Option PkeJob) (w : List PkeJob) : Dev :=
  let d := keyed .secure
  { d with pke := { d.pke with powered := true, running := r, waiting := w, idle := 100 } }

theorem witness_PublicKeyEngineActs :
    Passes cmdPkeRun (rq 0 ([0x01000001, 0, 0, 0x40000000, 64, 0, 8, 0x40000000, 128, 0, 8, 0x40000000, 192, 0, 8, 0, 0, 0, 0, 256, 0, 8]))
        (st (keyed .secure))
    ∧ ((pkeDev none [job 1 none]).pke.waiting = [job 1 none] ∧ (pkeDev none [job 1 none]).pke.powered = true
      ∧ (pkeDev none [job 1 none]).pke.running = none)
    ∧ ((pkeDev (some (job 1 none)) []).pke.running = some (job 1 none) ∧ (job 1 none).fail = none ∧ jobOp (job 1 none) = 0x01
      ∧ (job 1 (some (0x8C03, 1))).fail = some (0x8C03, 1) ∧ jobOp (job 0x22 none) = 0x22
      ∧ rawNow (passTime 1 (pkeDev (some (job 1 none)) [])) < (job 1 none).startAt + jobTime (job 1 none) 0
      ∧ (job 1 none).startAt + jobTime (job 1 none) 0 ≤ rawNow (passTime 20000000 (pkeDev (some (job 1 none)) []))
      ∧ (passTime 20000000 (pkeDev (some (job 1 none)) [])).pke.running = some (job 1 none)
      ∧ pkeSigns (jobOp (job 0x11 none)) = true ∧ pkeVerifies (jobOp (job 0x20 none)) = false ∧ pkeSigns (jobOp (job 0x20 none)) = false)
    ∧ (Passes cmdPkeAbort (rq 0 [9]) (st (pkeDev (some (job 1 none)) [])) ∧ (job 1 none).page = (rq 0 [9]).page
      ∧ (job 1 none).tag = rf (rq 0 [9]) 0 7 0)
    ∧ Passes cmdPkeAbort (rq 0 [9]) (st (pkeDev none [job 1 none]))
    ∧ Passes cmdPkeStatus (rq 0 []) (st (pkeDev none []))
    ∧ Passes cmdPkeWipe (rq 0 []) (st (pkeDev none []))
    ∧ ((pkeDev none []).pke.powered = true ∧ (pkeDev none []).pke.running = none ∧ (pkeDev none []).pke.waiting = []
      ∧ 100 ≤ (pkeDev none []).pke.idle) := by
  (repeat' apply And.intro) <;> first | decide +kernel | rfl

theorem witness_PkeOperandsStayWithTheirPage : (pkeDev none []).pke.owner ≠ some (job 1 none).page ∧ (0 : Nat) < 4
    ∧ (let d := keyed .secure
      let j : PkeJob := { job 1 none with words := [0x01000001#32, 0, 0, 0x40000000#32, 0, 0, 8#32] ++ List.replicate 15 0 }
      let e := { d with pke := { d.pke with owner := some 5, regs := [(3, ⟨[1], true⟩)] } }
      e.pke.owner ≠ some j.page ∧ (tget (jobStart j otp e).pke.regs 0).isSome = true ∧ (tget (jobStart j otp e).pke.regs 3).isNone = true) := by
  (repeat' apply And.intro) <;> first | decide +kernel | rfl

/-! ### Tamper, firmware, power, telemetry, DMA, tick -/

def tampered (m : Mode) (f : Tamp → Tamp) : Dev :=
  let d := keyed m
  { d with tamp := f d.tamp }

theorem witness_TamperCommandsAct :
    Passes cmdTampStatusGet (rq 65 []) (st (up .locked))
    ∧ Passes cmdTampLogGet (rq 0 [0x003C0FFF]) (st (up .locked))
    ∧ Passes cmdTampNonceGet (rq 0 []) (st (up .locked))
    ∧ Passes cmdTampUnlock (rq 0 [64, 0, 128] (List.replicate 128 0)) (st (up .locked))
    ∧ Passes cmdTampResponseSet (rq 0 [0xFFFFFF]) (st (up .staging))
    ∧ Passes cmdTampTest (rq 0 [0x30B]) (st (up .staging))
    ∧ reachable (up .secure) 0 = true := by
  (repeat' apply And.intro) <;> first | decide +kernel | rfl

theorem witness_TamperHappeningsAct :
    ((canFire otp (up .secure) 12 = false ∧ canFire otp (up .secure) 11 = true)
      ∧ (responseOf otp (up .secure) 11 = 1 ∧ responseOf otp (tampered .secure (fun t => { t with set := 0xFFFFFF#24 })) 11 = 3)
      ∧ (let x : Decision := ⟨5, 0x400, 2, false, false, 1⟩
        let d := passTime 1 (tampered .secure (fun t => { t with decisions := [x] }))
        let e := passTime 0 (tampered .secure (fun t => { t with decisions := [x] }))
        d.tamp.decisions.find? (fun x => x.source == 5 && decide (x.due ≤ rawNow d)) = some x ∧ canLock d = true
          ∧ (∀ x ∈ e.tamp.decisions, x.source = 5 → rawNow e < x.due) ∧ e.tamp.decisions ≠ [])
      ∧ ((up .secure).sys.phase = .up ∧ (up .secure).sb.up = true ∧ (up .secure).sys.aoGood = true ∧ (up .secure).tamp.provisional = false))
    ∧ (let u : Unlock := ⟨0, 9, 1, stOk, false, 1⟩
      let d := passTime 1 (tampered .locked (fun t => { t with unlock := some u }))
      d.tamp.unlock = some u ∧ d.sb.up = true ∧ d.sys.mode = .locked ∧ u.due ≤ rawNow d ∧ u.fired = false ∧ u.verdict = stOk
        ∧ d.sys.haltCause = 0 ∧ rawNow (passTime 0 (tampered .locked (fun t => { t with unlock := some u }))) < u.due
        ∧ ({ u with fired := true } : Unlock).fired = true ∧ ({ u with verdict := stAuthFail } : Unlock).verdict ≠ stOk
        ∧ ({ d with sys := { d.sys with haltCause := 0x30 } } : Dev).sys.haltCause ≠ 0) := by
  (repeat' apply And.intro) <;> first | decide +kernel | rfl

theorem witness_LockEraseLeavesNoKey : (∀ p ∈ (bound .secure).kc.sas, p.2.state = 4 → p.2.key = [] ∧ p.2.ka = [] ∧ p.2.salt = [])
    ∧ (saOf (retiring .secure) 4).map (fun x => (x.state, x.key, x.ka, x.salt)) = some (4, [], [], []) := by
  constructor
  · decide +kernel
  · decide +kernel

/-- An update in a state, with what it finds. -/
def updating (state verdict : Nat) : Dev :=
  let d := keyed .secure
  { d with fw := { d.fw with
    state := state
    auto := true
    ran := 30000
    update := some ⟨0, 9, Image.init, verdict, true, 120⟩ } }

theorem witness_FirmwareActs :
    (Passes cmdFwStatus (rq 65 []) (st (up .locked))
      ∧ Passes cmdFwUpdate (rq 0 [64, 0, 81920, 0x80000258] (List.replicate 4 0)) (st (keyed .secure))
      ∧ Passes cmdFwConfirm (rq 0 []) (st (updating 4 stOk))
      ∧ Passes cmdFwRevert (rq 0 []) (st (updating 4 stOk)))
    ∧ (((updating 0 stOk).fw.update = some ⟨0, 9, Image.init, stOk, true, 120⟩ ∧ fwWorks (updating 0 stOk) = true
        ∧ (updating 0 stOk).sb.up = true ∧ (updating 0 stOk).fw.state = 0)
      ∧ (fwWorks (updating 2 stOk) = true ∧ (updating 2 stOk).fw.state = 2)
      ∧ (let d := ticked 1000000 (updating 3 stOk)
        let long : Image := { Image.init with len := 81920 }
        fwWorks d = true ∧ d.fw.state = 3 ∧ Image.init.len ≤ (d.sys.ticks - d.fw.stateAt) * 2000
          ∧ ((updating 3 stOk).sys.ticks - (updating 3 stOk).fw.stateAt) * 2000 < long.len)
      ∧ (fwWorks (updating 5 stOk) = true ∧ (updating 5 stOk).fw.state = 5)
      ∧ (fwWorks (updating 4 stOk) = true ∧ (updating 4 stOk).fw.state = 4 ∧ (updating 4 stOk).fw.left = 0)
      ∧ (fwWorks (updating 6 stOk) = true ∧ (updating 6 stOk).fw.state = 6)) := by
  (repeat' apply And.intro) <;> first | decide +kernel | rfl

theorem witness_FallBackRunsAcceptedImage : (up .secure).sys.mode ≠ .halted := by
  (repeat' apply And.intro) <;> first | decide +kernel | rfl

theorem witness_PowerActs :
    (Passes cmdPwrStatus (rq 65 []) (st (up .locked))
      ∧ Passes cmdPwrDomainGet (rq 0 [311]) (st (up .locked))
      ∧ Passes cmdPwrCurveWrite (rq 0 (curveReset.map (·.toNat))) (st (up .secure))
      ∧ Passes cmdPwrCurveRead (rq 0 [0x80000000]) (st (up .locked))
      ∧ Passes cmdPwrCurveCommit (rq 0 []) (st (up .secure))
      ∧ Passes cmdPwrThermSet (rq 0 [0x0000643C]) (st (up .secure)))
    ∧ (((3 : Nat) < sectors otp ∧ pmuRuns (passTime 1 (up .secure)) = true)
      ∧ (let d := ticked 1 { up .secure with pwr := { Pwr.init with armed := true } }
        d.pwr.armed = true ∧ pmuRuns d = true ∧ d.pwr.armedAt < d.sys.ticks ∧ (up .secure).pwr.armed = false)
      ∧ (pmuRuns (up .secure) = true ∧ (15 : Nat) < 16 ∧ (sensorOf (up .secure) 3 15).out = false
        ∧ (14 : Nat) ≠ 15 ∧ (sensorOf (up .secure) 3 14).out = false)
      ∧ (let d := setSensor 3 15 { Sensor.init with limitTicks := 1000 } (up .secure)
        pmuRuns d = true ∧ (sensorOf d 3 15).out = false ∧ 1000 ≤ (sensorOf d 3 15).limitTicks)
      ∧ (let d := setSlice 3 Slice.init (grouped .secure)
        let e := { d with
          dsp := { d.dsp with groups := [(0, ⟨[3], false, false, 0, 0, 0, [0]⟩)] }
          pwr := { d.pwr with ramps := [(131, 0)] } }
        domainIs otp 131 = true ∧ pmuRuns e = true ∧ tget e.pwr.ramps 131 = some 0 ∧ domainAsked (passTime 20000000 e) 131 = true
          ∧ 0 + powerUpTime 131 ≤ rawNow (passTime 20000000 e) ∧ rawNow (passTime 0 e) < 0 + powerUpTime 131
          ∧ domainAsked e 132 = false)
      ∧ (let d := keyed .secure
        let e := { d with pke := { d.pke with waiting := [job 1 none] } }
        domainIs otp 304 = true ∧ pmuRuns e = true ∧ tget e.pwr.ramps 304 = none ∧ domainAsked e 304 = true
          ∧ e.pwr.recent.length < 8)
      ∧ (let d := setLane 63 (laneIn 1) (up .secure)
        let e := { d with pwr := { d.pwr with ramps := [(127, 0)], recent := List.replicate 8 7 } }
        domainIs otp 127 = true ∧ tget e.pwr.ramps 127 = some 0 ∧ domainAsked e 127 = true ∧ e.pwr.recent[7]? = some 7)
      ∧ (let d := bulky .secure
        let e := { d with sl := { d.sl with keyDrbg := { drbg with requests := 2 ^ 32 - 1 } } }
        pmuRuns e = true ∧ 2 ^ 32 - 1 ≤ e.sl.keyDrbg.requests)) := by
  (repeat' apply And.intro) <;> first | decide +kernel | rfl

theorem witness_StretchMeetsTheCurve : (3 : Nat) < sectors otp ∧ pmuRuns (passTime 1 (up .secure)) = true := by
  (repeat' apply And.intro) <;> first | decide +kernel | rfl

def snapping (f : Tel → Tel) : Dev := { up .secure with tel := f { Tel.init with sect := 0x00000002#32, due := true } }

theorem witness_TelemetryActs :
    (Passes cmdTelSlotGet (rq 0 [143]) (st (up .locked))
      ∧ Passes cmdTelSnapInfo (rq 0 [0x3FE]) (st (up .locked))
      ∧ bar2Up (up .secure) = true)
    ∧ (((snapping id).tel.due = true ∧ (snapping id).sys.mode ≠ .halted ∧ (snapping (fun t => { t with writing := some [] })).tel.writing.isSome = true)
      ∧ (let t := { (snapping id).tel with due := false, snapNow := false, seq := (snapping id).tel.seq + 1 }
        let b := snapshotBytes otp { snapping id with tel := t }
        ¬ (t.ringSize.toNat < telUsed t + telSkip t b.length + b.length))
      ∧ (let d := snapping (fun t => { t with ringWr := 0x00010000#32 })
        let t := { d.tel with due := false, snapNow := false, seq := d.tel.seq + 1 }
        let b := snapshotBytes otp { d with tel := t }
        t.ringSize.toNat < telUsed t + telSkip t b.length + b.length)
      ∧ ((snapping (fun t => { t with writing := some [1, 2] })).tel.writing = some [1, 2])) := by
  (repeat' apply And.intro) <;> first | decide +kernel | rfl

theorem witness_DmaChannelsAct :
    (bar2Up (up .secure) = true ∧ (7 : Nat) < 8 ∧ (dmaOf (up .secure) 7).state = 0
      ∧ (dmaOf (setDma 7 { DmaChan.init with state := 1 } (up .secure)) 7).state ≠ 0)
    ∧ (dmaWorks (up .secure) = true ∧ dmaNext (setDma 7 { DmaChan.init with state := 1 } (up .secure)) = some 7)
    ∧ ((dmaOf (setDma 7 { DmaChan.init with state := 2 } (up .secure)) 7).state = 2) := by
  (repeat' apply And.intro) <;> first | decide +kernel | rfl

theorem witness_DmaStaysInItsWindow : Memory.wf (ramPut [] (5 * 2 ^ 36) [1, 2]) = true ∧ windowOk (up .secure) 0 1 = false
    ∧ windowOk (up .secure) (5 * 2 ^ 36) 1 = true := by
  (repeat' apply And.intro) <;> first | decide +kernel | rfl

theorem witness_TickCarriesTheDevice : tuRuns (phased .off (up .staging)) = false
    ∧ (tuRuns (up .halted) = true ∧ (up .halted).sys.mode = .halted) ∧ (tuRuns (up .secure) = true ∧ (up .secure).sys.mode ≠ .halted) := by
  (repeat' apply And.intro) <;> first | decide +kernel | rfl

theorem witness_FrameModeAndDispatcherFormsComplete :
    (Passes cmdFmSecyCreate (rq 0 [0x00010000, 0x01081002, 0, 0, 7, 0]) (st (bound .staging))
      ∧ Passes cmdFmScCreate (rq 0 [0, 0, 9]) (st (bound .secure))
      ∧ (Passes cmdFmPnThresholdSet (rq 0 [0, 0x80000000, 16]) (st (bound .secure))
        ∧ ∀ x ∈ (bound .secure).kc.sas, x.2.pn < (rw (rq 0 [0, 0x80000000, 16]) 1).toNat ∧ x.2.pn < (rw (rq 0 [0, 0x80000000, 16]) 2).toNat)
      ∧ (let d := ticked 1 (setRules 3 { rulesOf (bound .secure) 3 with armed := true } (bound .secure))
        (rulesOf d 3).armed = true ∧ (rulesOf d 3).armedAt < d.sys.ticks))
    ∧ ((Passes cmdDspHintSet (rq 0 [0x18000000, 0, 0]) (st (grouped .secure)) ∧ (grouped .secure).kc.sas.length ≤ 16384
        ∧ (grouped .secure).dsp.avoid.length < 32)
      ∧ (let d := grouped .secure
        let e := ticked 1 { d with dsp := { d.dsp with commit := some (0, 9, false, 0) } }
        e.dsp.commit = some (0, 9, false, 0) ∧ e.dsp.commitAt < e.sys.ticks)
      ∧ (let d := inService (moving .secure (posMove 0))
        moveOf d 1 = some (posMove 0) ∧ (posMove 0).phase = 0 ∧ moveBlocked d 1 (posMove 0) = false ∧ moveLocked d (posMove 0) = false
        ∧ tgetD d.dsp.started (moveSector (posMove 0)) 0 < fld d.dsp.prm0 7 0 ∧ moveTargets d (posMove 0) = [1]
        ∧ (∀ n ∈ moveTargets d (posMove 0), slicePowered d n = true))
      ∧ (let d := inService (moving .secure (posMove 1))
        moveOf d 1 = some (posMove 1) ∧ (posMove 1).phase = 1
          ∧ (∀ n ∈ moveTargets d (posMove 1), ∀ c ∈ (sliceOf d n).ctxs, c.ready = true ∨ c.sa ∉ moveSas d (posMove 1)))
      ∧ (moveOf (moving .secure (posMove 2)) 1 = some (posMove 2) ∧ draining (moving .secure (posMove 2)) (posMove 2) = false)
      ∧ (2 ≤ (spreadOf wideDev 0).above ∧ (spreadOf wideDev 0).s * 2 ≤ groupW wideDev 0)
      ∧ (reliefOf (sagging []) 0).on = false
      ∧ (let d := setRelief 0 { Relief.init with on := true, calm := 100, moved := [(0, [1])] } (grouped .secure)
        (reliefOf d 0).on = true ∧ fld d.dsp.prm1 15 0 ≤ (reliefOf d 0).calm)) := by
  (repeat' apply And.intro) <;> first | decide +kernel | rfl

/-! ### Ill-formed commands are refused -/

def goodReq : NcsReq := rq 0 [1]

theorem wf_requests :
    (Instr.ncsPing goodReq).wf = true
    ∧ [Instr.ncsPing { goodReq with page := 66 }, .ncsPing { goodReq with tag := 256 }, .ncsPing { goodReq with rsv := 128 },
       .ncsPing { goodReq with len := 2 }, .ncsPing { goodReq with payload := [] },
       .ncsPing { goodReq with len := 2 ^ 32 }].all (fun i => !i.wf) = true := by decide

theorem wf_pages :
    [Instr.ncsDoorbellWrite 65 1, .ncsEvtHeadWrite 65 0, .ncsEvtLostRead 65, .ncsIrqMaskWrite 65 0, .irqCoalesceExpiry 66,
     .registerWrite (.vf 0) 0 0, .registerWrite (.vf 65) 0 0, .registerWrite .pf 2 0, .pageHwBusyAnswer 66,
     .haltedRequestAnswer 66, .smbBlockWrite [] true, .smbBlockWrite (List.replicate 17 0) true, .vfFlr 0, .vfFlr 65,
     .bulkJobDone 65 0 true, .bulkJobDone 0 256 true, .tuAlarmValueWrite 0x31 0].all (fun i => !i.wf) = true := by decide

theorem wf_frame_mode :
    [Instr.tickBoundary [⟨128, 0, 0, 0, 0, 0, 0, 0, false⟩], .clientFrameReceive 64 [] false 0, .lineFrameReceive 64 [] false 0,
     .contextFetchDone 1048576, .contextLoadDone 144 0, .contextLoadDone 0 1048576, .egressSelect 128 0, .ruleSwap 4].all
      (fun i => !i.wf) = true := by decide

theorem wf_line_mode :
    [Instr.esurdelFrameTransmit 4 [] ⟨[], []⟩ 0, .esurdelFrameTransmit 0 [⟨64, [], [], false⟩] ⟨[], []⟩ 0,
     .esurdelFrameTransmit 0 [] ⟨[64], []⟩ 0, .esurdelFrameTransmit 0 [] ⟨[], [64]⟩ 0,
     .esurdelFrameReceive 0 0 [0] false 0, .barExpiry 64 ⟨0, 0⟩, .sheafRelease 1024 0 0, .sheafRelease 0 (2 ^ 48) 0,
     .txSuperframeBoundary 4, .rxSuperframeBoundary 1024 0, .losDeclare ⟨64, 0⟩, .losClear ⟨64, 0⟩, .lolClear ⟨64, 0⟩, .lofDeclare ⟨64, 0⟩,
     .lofClear ⟨64, 0⟩, .losfDeclare ⟨64, 0⟩, .loaDeclare ⟨64, 0⟩, .loaClear ⟨64, 0⟩].all (fun i => !i.wf) = true := by decide

theorem wf_slices_and_keys :
    [Instr.shadowRecomputeDone 144 [], .shadowArbitrationDone 144 [] [], .sidingTakeoverDone 144, .maskExpanderReseed 144,
     .contextRerandomise 144, .entropyTestFail 2 [], .sourceStartupTestDone 2 [], .sliceTestDone 144 [],
     .saRetireTx 1048576 0, .saRetireRx 1048576 0, .kcSchedLate 1048576 0, .chainPeriodSwitch (2 ^ 20) 0, .chainDeriveDone (2 ^ 20),
     .saIndexFree 1048576, .kaInitReceive 64 [], .kaRetransmit 64].all (fun i => !i.wf) = true := by decide

theorem wf_placement_and_paths :
    [Instr.kaRespReceive 64 [], .kaFinReceive 64 [], .kaDoneReceive 64 [], .kaAbortReceive 64 [], .stripeWidthChange (2 ^ 20),
     .droopReliefStart 4, .droopReliefEnd 4, .sliceIdlePowerDown 144, .domainPowerUpDone ⟨312, 0⟩, .grnEpochLimit 6, .claimFrameSend ⟨32, 0⟩,
     .claimFrameReceive 64 [] 0, .claimMissExpiry 32 ⟨0, 0⟩, .claimMissExpiry 0 ⟨2, 0⟩, .pathGuardExpiry 0 2, .holdoffExpiry ⟨32, 0⟩,
     .yardRelease 32 0 0 0, .fastHoldExpiry ⟨32, 0⟩].all (fun i => !i.wf) = true := by decide

theorem wf_time_and_lanes :
    [Instr.ttEntryBoundary 64 0, .ttSwap 64 0, .ptpSendDepart 2 0 0, .ptpSendDepart 0 64 0, .turefRestored 0, .turefRestored 3,
     .dliveUpdate 2 0 0 0, .dliveUpdate 0 2 0 0, .dliveUpdate 0 0 64 0, .laneStageSuccess 2 0 0 ⟨0, 0, 0, 0⟩,
     .laneStageSuccess 0 64 0 ⟨0, 0, 0, 0⟩, .laneStageSuccess 0 0 1024 ⟨0, 0, 0, 0⟩, .laneStageTimeout 0 ⟨64, 0⟩, .signalDetectLost 2 0,
     .signalDetectReturn 0 64, .laneLockLost 2 0, .adaptStep 0 0 1024, .jtagInstructionLoad 256].all (fun i => !i.wf) = true := by decide

theorem wf_power_and_dma :
    [Instr.tamperSourceFire 12 true true, .tamperConditionCleared 12, .stretchRise 4 (List.replicate 16 0) 0, .stretchRise 0 [0] 0,
     .stretchFall 4 (List.replicate 16 0) 0, .stretchFall 0 [0] 0,
     .sensorTrim [⟨4, 0, 0, 0⟩], .sensorTrim [⟨0, 16, 0, 0⟩], .sensorOutOfService 4 0, .sensorOutOfService 0 16,
     .dmaStartWrite 8 0, .dmaStopWrite 8 0, .dmaChannelDone 8, .railDip [128] []].all (fun i => !i.wf) = true := by decide

/-! ### Single steps -/

/-- The table gives no row bits: no word spells a command. -/
theorem test_no_table_word : decodeTableWord 32 0x01010900 = none := by decide

/-- R615: 1,000 bytes from 0x1003. -/
theorem test_accesses : (accesses 1000 0x1003 1000 0).map (·.2) = [1, 4, 256, 256, 256, 224, 2, 1] := by decide +kernel

/-- What a command leaves on its page. -/
def respOf (i : Instr) (d : Dev) (p : Nat) : List Word :=
  match step { st d with pending := [i] } with
  | .next s => answerOf s.dev p
  | _ => []

/-- NCS_PING answers ST_OK, its operand and the mode code (R83). -/
theorem test_ping : respOf (.ncsPing (rq 0 [0xCAFE])) (up .secure) 0 = [0x00000900#32, 2#32, 0xCAFE#32, 2#32] := by decide +kernel

/-- A tenant page may not set the mode (R55, R56): ST_NOT_PERMITTED, reason 1. -/
theorem test_tenant_set_mode : respOf (.sysSetMode (rq 7 [1])) (up .secure) 7 = [0x02010900#32, 1#32, 1#32] := by decide +kernel

end Sys2Proof.Tests
end

section
/-! How OTP moves under each operation of the model that returns it, and from that under every step. -/
namespace Sys2Proof.Machine

/-! Forward is a preorder, and each field may grow on its own. -/

theorem Otp.Forward.refl (o : Otp) : o.Forward o where
  variant := rfl
  life := Nat.le_refl _
  counter := Nat.le_refl _
  floor := Nat.le_refl _
  revoked := BitVec.and_self
  retired := ⟨[], List.append_nil _⟩
  fused := rfl
  minimum := rfl
  given _ := ⟨rfl, rfl, rfl⟩

/-- BLANK is the first life cycle state (R14). -/
theorem Life.eq_blank_iff_code (l : Life) : l = .blank ↔ l.code = 0 := by cases l <;> decide

/-- A device that has left BLANK does not return to it. -/
theorem Otp.Forward.not_blank {a b : Otp} (h : a.Forward b) (ha : a.life ≠ .blank) : b.life ≠ .blank := by
  rw [Ne, Life.eq_blank_iff_code] at *
  have := h.life
  omega

theorem Otp.Forward.trans {a b c : Otp} (h : a.Forward b) (k : b.Forward c) : a.Forward c where
  variant := k.variant.trans h.variant
  life := Nat.le_trans h.life k.life
  counter := Nat.le_trans h.counter k.counter
  floor := Nat.le_trans h.floor k.floor
  revoked := by rw [← h.revoked, BitVec.and_assoc, k.revoked]
  retired := h.retired.trans k.retired
  fused := k.fused.trans h.fused
  minimum := k.minimum.trans h.minimum
  given ha := by
    obtain ⟨hi, hs, ho⟩ := h.given ha
    obtain ⟨ki, ks, ko⟩ := k.given (h.not_blank ha)
    exact ⟨ki.trans hi, ks.trans hs, ko.trans ho⟩

/-- Bits of the counter field are burned (R504). -/
theorem Otp.forward_counter {o : Otp} {n : Nat} (hn : o.h ≤ n) : o.Forward { o with h := n } :=
  { Otp.Forward.refl o with counter := hn }

/-- Channels are retired (R362). -/
theorem Otp.forward_retired (o : Otp) (cs : List Nat) : o.Forward { o with retired := o.retired ++ cs } :=
  { Otp.Forward.refl o with retired := ⟨cs, rfl⟩ }

/-- The life cycle moves on, identity and owner as they were (R14). -/
theorem Otp.forward_life {o : Otp} {l : Life} (hl : o.life.code ≤ l.code) : o.Forward { o with life := l } :=
  { Otp.Forward.refl o with life := hl }

/-- In BLANK the identity, the attestation secret and the begun message may still be set (step 1 of R512). -/
theorem Otp.forward_identity {o : Otp} (hb : o.life = .blank) (i a p : Bytes) :
    o.Forward { o with identity := i, attest := a, provBegun := p } :=
  { Otp.Forward.refl o with given := fun hne => absurd hb hne }

/-- Provisioning takes a device out of BLANK and sets its owner (R512). -/
theorem Otp.forward_provisioned {o : Otp} (hb : o.life = .blank) (w : Bytes) :
    o.Forward { o with life := .provisioned, ownerHash := w } :=
  { Otp.Forward.refl o with
    life := by rw [hb]; exact Nat.zero_le _
    given := fun hne => absurd hb hne }

/-! The key store (chapter 15). -/

theorem burnTo_forward (c : Nat) (o : Otp) : o.Forward (burnTo c o) := Otp.forward_counter (Nat.le_max_left _ _)

theorem sealCommit_forward (o : Otp) (d : Dev) : o.Forward (sealCommit o d).1 := by
  unfold sealCommit
  split
  · exact burnTo_forward _ _
  · exact .refl o

theorem sealProcess_forward (whole : Bool) (o : Otp) (d : Dev) : o.Forward (sealProcess whole o d).1 := by
  unfold sealProcess
  split
  · exact sealCommit_forward _ _
  · split
    · exact sealCommit_forward _ _
    · exact .refl o

theorem newVault_forward (o : Otp) (d : Dev) : o.Forward (newVault o d).1 := by
  apply Otp.forward_counter
  split <;> omega

theorem ksRecover_forward (sealOk journalOk : Bool) (o : Otp) (d : Dev) : o.Forward (ksRecover sealOk journalOk o d).1 := by
  unfold ksRecover
  split
  case h_1 => exact .refl o
  case h_2 =>
    dsimp only
    split
    case isTrue =>
      split
      · exact .refl o
      · dsimp only
        exact newVault_forward _ _
    case isFalse =>
      split
      case isTrue =>
        dsimp only
        exact newVault_forward _ _
      case isFalse =>
        split
        case isTrue =>
          split
          · split
            · dsimp only
              exact burnTo_forward _ _
            · exact .refl o
          · exact .refl o
        case isFalse => exact .refl o

theorem provDone_forward (o : Otp) (d : Dev) : o.Forward (provDone o d).1 := by
  unfold provDone
  split
  · exact .refl o
  · split
    · exact .refl o
    · next hb => exact Otp.forward_provisioned (Decidable.of_not_not hb) _

/-! A request that comes to the device: only one whose checks it passes gets past the Signal box. -/

/-- The Signal box performs a request that passes its checks, and only answers any other. -/
theorem serve_cases (c : Cmd) (r : NcsReq) (o : Otp) (d : Dev) :
    OnlySb d (serve c r o d) ∨ (checks c o d r = none ∧ serve c r o d = perform c o d r) := by
  unfold serve
  cases checks c o d r with
  | some _ => exact .inl (respond_only _ _ _ _ _)
  | none => exact .inr ⟨rfl, rfl⟩

/-- A request is performed after it has passed its checks, or it touches the Signal box's part alone. -/
theorem command_cases (c : Cmd) (r : NcsReq) (o : Otp) (d : Dev) :
    OnlySb d (command c r o d)
      ∨ (checks c o (submitted c.code r d) r = none ∧ command c r o d = perform c o (submitted c.code r d) r) := by
  unfold command
  split
  · exact .inl (.refl d)
  · split
    · exact .inl (turnAway_only _ _)
    · have hl := latchReq_only c.code r d
      unfold answer
      split
      · exact .inl (hl.trans (respond_only _ _ _ _ _))
      · split
        · exact .inl (hl.trans (respond_only _ _ _ _ _))
        · split
          · exact (serve_cases c r o (submitted c.code r d)).imp_left (submitted_only c.code r d).trans
          · exact .inl hl

/-- A request that passes its checks is not forbidden by its chapter (R56 step 6). -/
theorem checks_none_forbids {c : Cmd} {o : Otp} {d : Dev} {r : NcsReq} (h : checks c o d r = none) :
    c.forbids o d r = none := by
  cases hf : c.forbids o d r with
  | none => rfl
  | some n =>
    unfold checks at h
    rw [hf, ← apply_ite some] at h
    dsimp only at h
    repeat' split at h
    all_goals cases h

/-- KS_PROVISION is forbidden outside BLANK (R511). -/
theorem provision_passes_blank {o : Otp} {d : Dev} {r : NcsReq} (h : checks cmdKsProvision o d r = none) :
    o.life = .blank := by
  have hf : cmdKsProvision.forbids o d r = none := checks_none_forbids h
  refine Decidable.byContradiction fun hb => ?_
  have hn : cmdKsProvision.forbids o d r = some 4 :=
    if_pos ((Bool.or_eq_true_iff ..).mpr (.inl (decide_eq_true hb)))
  cases hn.symm.trans hf

/-- Where the key store is as before, no provisioning message has begun. -/
theorem provOtp_of_ks_eq {o : Otp} {d d' : Dev} (h : d'.ks = d.ks) : provOtp o d d' = o := by
  unfold provOtp
  rw [h]
  split
  · next hn hs => cases hn.symm.trans hs
  · rfl

theorem provOtp_forward_of_blank {o : Otp} (hb : o.life = .blank) (d d' : Dev) : o.Forward (provOtp o d d') := by
  unfold provOtp
  split
  · split
    · exact Otp.forward_identity hb _ _ _
    · exact .refl o
  · exact .refl o

theorem ksProvision_forward (r : NcsReq) (o : Otp) (d : Dev) :
    o.Forward (provOtp o d (command cmdKsProvision r o d)) := by
  rcases command_cases cmdKsProvision r o d with hsb | ⟨hc, -⟩
  · rw [provOtp_of_ks_eq (by rw [hsb])]
    exact .refl o
  · exact provOtp_forward_of_blank (provision_passes_blank hc) _ _

/-! The Granary, the DMA engine and the firmware (chapters 10, 20 and 18). -/

theorem retireDone_forward (o : Otp) (d : Dev) : o.Forward (retireDone o d).1 := by
  unfold retireDone
  split
  · split
    · exact Otp.forward_retired _ _
    · exact .refl o
  · exact .refl o

theorem dmaRun_otp (host : HostMem) (cut : Option Nat) (o : Otp) (ram : List Host.Cell) (d : Dev) :
    (dmaRun host cut o ram d).1 = o := by
  unfold dmaRun
  split <;> rfl

theorem fwBurn_forward (i : Image) (o : Otp) : o.Forward (fwBurn i o) :=
  { Otp.Forward.refl o with
    floor := Nat.le_max_left _ _
    revoked := by
      show o.revoked &&& (o.revoked ||| _) = o.revoked
      ext i hi
      rw [BitVec.getElem_and, BitVec.getElem_or]
      cases o.revoked[i] <;> rfl }

theorem confirmDone_forward (o : Otp) (d : Dev) : o.Forward (confirmDone o d).1 := by
  unfold confirmDone
  split
  · exact fwBurn_forward _ _
  · exact .refl o

/-! The second decision (chapter 17): LOCK commits a prepared message, the unlock recovers the keys. -/

theorem sealLock_forward (o : Otp) (d : Dev) : o.Forward (sealLock o d).1 := sealCommit_forward o d

theorem lockEntry_forward (cause : Nat) (data : Word) (o : Otp) (d : Dev) : o.Forward (lockEntry cause data o d).1 := by
  unfold lockEntry
  dsimp only
  exact sealLock_forward _ _

theorem lockAct_forward (resp cause : Nat) (data : Word) (sources : Nat) (asleep : Bool) (o : Otp) (d : Dev) :
    o.Forward (lockAct resp cause data sources asleep o d).1 := by
  unfold lockAct
  dsimp only
  split
  · dsimp only
    exact lockEntry_forward _ _ _ _
  · exact .refl o

theorem secondOnSource_forward (i second : Nat) (o : Otp) (d : Dev) : o.Forward (secondOnSource i second o d).1 := by
  unfold secondOnSource
  split
  · exact .refl o
  · dsimp only
    split <;> exact lockAct_forward _ _ _ _ _ _ _

theorem unlockPass_forward (u : Unlock) (sealOk journalOk : Bool) (o : Otp) (ram : List Host.Cell) (d : Dev) :
    o.Forward (unlockPass u sealOk journalOk o ram d).1 := by
  unfold unlockPass
  split
  · exact .refl o
  · exact ksRecover_forward _ _ _ _

theorem secondOnUnlock_forward (second : Nat) (sealOk journalOk : Bool) (o : Otp) (ram : List Host.Cell) (d : Dev) :
    o.Forward (secondOnUnlock second sealOk journalOk o ram d).1 := by
  unfold secondOnUnlock
  split
  · exact .refl o
  · split
    · exact .refl o
    · split
      · exact .refl o
      · split
        · exact .refl o
        · split
          · exact unlockPass_forward _ _ _ _ _ _
          · exact .refl o

theorem secondDecision_forward (what second : Nat) (sealOk journalOk : Bool) (dt : Nat) (o : Otp) (ram : List Host.Cell)
    (d : Dev) : o.Forward (secondDecision what second sealOk journalOk dt o ram d).1 := by
  unfold secondDecision
  dsimp only
  split
  · exact secondOnUnlock_forward _ _ _ _ _ _
  · exact secondOnSource_forward _ _ _ _

/-! The start (R94): its steps burn one after the other. -/

theorem startChannel_forward (p : Otp × Dev) (c : Nat) : p.1.Forward (startChannel p c).1 := by
  unfold startChannel
  split
  · exact .refl _
  · split
    · exact .refl _
    · exact Otp.forward_retired _ _

theorem foldl_startChannel_forward (cs : List Nat) (p : Otp × Dev) : p.1.Forward (cs.foldl startChannel p).1 := by
  induction cs generalizing p with
  | nil => exact .refl _
  | cons c cs ih => exact (startChannel_forward p c).trans (ih _)

theorem startGranary_forward (x : StartOutcome) (o : Otp) (d : Dev) : o.Forward (startGranary x o d).1 := by
  have hc : o.Forward (startChannels x.channels o d).1 := foldl_startChannel_forward x.channels (o, d)
  unfold startGranary
  dsimp only
  split
  · exact .refl o
  · split
    · exact hc
    · split <;> exact hc

theorem startImage_forward (o : Otp) (d : Dev) : o.Forward (startImage o d).1 := by
  unfold startImage
  dsimp only
  split
  · exact fwBurn_forward _ _
  all_goals exact .refl o

theorem startFirmware_forward (x : StartOutcome) (o : Otp) (d : Dev) : o.Forward (startFirmware x o d).1 := by
  unfold startFirmware
  dsimp only
  split
  · exact .refl o
  · split
    · exact startImage_forward _ _
    · split <;> exact .refl o

theorem startKeys_forward (x : StartOutcome) (o : Otp) (d : Dev) : o.Forward (startKeys x o d).1 := by
  unfold startKeys
  dsimp only
  split
  · exact .refl o
  · split
    · exact .refl o
    · split
      · exact .refl o
      · split
        · exact .refl o
        · exact ksRecover_forward _ _ _ _

theorem startSequence_forward (x : StartOutcome) (o : Otp) (d : Dev) : o.Forward (startSequence x o d).1 := by
  unfold startSequence
  split
  · exact .refl o
  · dsimp only
    refine .trans ?_ (startKeys_forward x _ _)
    exact .trans (startGranary_forward x o _) (startFirmware_forward x _ _)

theorem dormantReached_forward (o : Otp) (d : Dev) : o.Forward (dormantReached o d).1 := by
  unfold dormantReached
  split
  · exact .refl o
  · exact sealCommit_forward _ _

/-! The life cycle (R109). -/

theorem code_le_lifeForward (a b : Life) : a.code ≤ (lifeForward a b).code := by
  unfold lifeForward
  split <;> omega

theorem lifeWritten_forward (o : Otp) (d : Dev) : o.Forward (lifeWritten o d).1 := by
  unfold lifeWritten
  split
  · split
    · exact .refl o
    · exact Otp.forward_life (code_le_lifeForward _ _)
  · exact .refl o

/-! The shapes of a command's effect. -/

/-- An outcome whose next state, where it has one, holds an OTP that can follow a given one. -/
def OtpOnward (o : Otp) (x : Host.Outcome State Fault Refusal) : Prop := ∀ t, x = .next t → o.Forward t.otp

theorem otpOnward_next {o : Otp} {t : State} (h : o.Forward t.otp) : OtpOnward o (.next t) := by
  rintro _ ⟨⟩
  exact h

theorem run_onward (f : Otp → Dev → Dev) (s : State) : OtpOnward s.otp (run f s) := otpOnward_next (.refl _)

theorem runFresh_onward (f : Otp → Dev → Dev) (s : State) : OtpOnward s.otp (runFresh f s) := otpOnward_next (.refl _)

theorem runStart_onward (f : Otp → Dev → Dev) (s : State) : OtpOnward s.otp (runStart f s) := otpOnward_next (.refl _)

theorem runOtp_onward {f : Otp → Dev → Otp × Dev} (h : ∀ (o : Otp) d, o.Forward (f o d).1) (s : State) :
    OtpOnward s.otp (runOtp f s) := otpOnward_next (h _ _)

theorem runAll_onward {f : Otp → List Host.Cell → Dev → Otp × List Host.Cell × Dev}
    (h : ∀ (o : Otp) ram d, o.Forward (f o ram d).1) (s : State) : OtpOnward s.otp (runAll f s) := otpOnward_next (h _ _ _)

/-! The three commands whose effect is written out where they are executed. -/

theorem execKsProvision_onward (r : NcsReq) (s : State) : OtpOnward s.otp (execKsProvision r s) := by
  unfold execKsProvision
  exact runOtp_onward (fun o d => ksProvision_forward r o d) s

theorem execGrnRegionSet_onward (r : NcsReq) (s : State) : OtpOnward s.otp (execGrnRegionSet r s) := by
  unfold execGrnRegionSet
  exact runAll_onward (fun o _ _ => .refl o) s

theorem execDormantReached_onward (s : State) : OtpOnward s.otp (execDormantReached s) := by
  unfold execDormantReached
  exact runAll_onward (fun o _ d => dormantReached_forward o d) s

/-! Every command: the burns by name, the starts and losses of power, and all others, which act on the device alone. -/

theorem exec_onward (i : Instr) (s : State) : OtpOnward s.otp (exec i s) := by
  cases i
  case ksSealProcess whole => exact runOtp_onward (sealProcess_forward whole) s
  case ksProvision r => exact execKsProvision_onward r s
  case provisioningOtpWriteDone => exact runOtp_onward provDone_forward s
  case retireOtpDone => exact runOtp_onward retireDone_forward s
  case fwConfirmOtpDone => exact runOtp_onward confirmDone_forward s
  case startSequence x => exact runOtp_onward (startSequence_forward x) s
  case lifeOtpWriteDone => exact runOtp_onward lifeWritten_forward s
  case tamperSecondDecision what second sealOk journalOk =>
    exact runAll_onward (secondDecision_forward what second.val sealOk journalOk second.dt) s
  case dormantReached => exact execDormantReached_onward s
  case dmaChannelRun host cut => exact runAll_onward (fun o ram d => by rw [dmaRun_otp]; exact .refl o) s
  case grnRegionSet r => exact execGrnRegionSet_onward r s
  case mainPowerLoss => exact runFresh_onward _ s
  case mainPowerReturn rtc => exact runStart_onward _ s
  case rstNReset => exact runStart_onward _ s
  case sysResetTrigger => exact runStart_onward _ s
  case smbAddressMatchWake rtc => exact runStart_onward _ s
  case wakeNWake rtc => exact runStart_onward _ s
  case rtcAlarmWake => exact runStart_onward _ s
  case aoColdStart => exact runStart_onward _ s
  all_goals exact run_onward _ s

/-- Settles O5: an empty queue leaves the state as it is, and every command leaves an OTP that can follow the one it
found. -/
theorem stepMovesOtpForward : Obligations.StepMovesOtpForward := by
  unfold Obligations.StepMovesOtpForward
  intro s t h
  unfold step at h
  split at h
  · cases h
    exact .refl _
  · next c rest _ => exact exec_onward c { s with pending := rest } t h

end Sys2Proof.Machine
end

section
/-! The doorbell of a busy page and the housekeeping commands (R47, R82 to R87). -/
namespace Sys2Proof.Machine

/-! A doorbell ring (R46, R47). -/

theorem doorbell_of_busy {p : Nat} {v : Word} {d : Dev} (o : Otp) (hw : windowUp d p = true) (hv : bit v 0 = true)
    (hb : (pageOf d p).reqBusy = true) : doorbell p v o d = setPage p { pageOf d p with overrun := true } d := by
  unfold doorbell
  rw [if_neg (by simp [hw, hv]), if_pos hb]

/-- Settles O9: with the window reached and bit 0 written, the ring takes the busy branch of the doorbell. -/
theorem doorbellWhileBusyOnlyOverruns : Obligations.DoorbellWhileBusyOnlyOverruns := by
  unfold Obligations.DoorbellWhileBusyOnlyOverruns
  intro p v s hw hv hb
  calc exec (.ncsDoorbellWrite p v) s = run (doorbell p v) s := rfl
    _ = .next (s.put (doorbell p v s.otp s.dev)) := run_next _ _
    _ = _ := by rw [doorbell_of_busy _ hw hv hb]

/-! Checks of R56 that a housekeeping command meets from its description alone. -/

/-- A default command open to the tenant pages is open to every page (step 6 of R56). -/
theorem pageForbids_of_tenants {c : Cmd} {r : NcsReq} (d : Dev) (ht : c.tenants = true) (he : c.expert = false)
    (hp : r.page ≠ 65) : pageForbids c d r = none := by
  unfold pageForbids
  rw [if_neg hp, if_neg (by simp [ht]), if_neg (by simp [he])]

/-- No life cycle state forbids a housekeeping command (R92). -/
theorem lifeForbids_of_housekeeping {c : Cmd} (o : Otp) (r : NcsReq) (hc : c.code ≤ 0x0104) :
    lifeForbids c o r = false := if_pos hc

/-- The Modes column of a housekeeping command leaves out DORMANT and HALTED alone. -/
theorem runL_contains {m : Mode} (hd : m ≠ .dormant) (hh : m ≠ .halted) : runL.contains m = true := by
  cases m with
  | dormant => exact absurd rfl hd
  | halted => exact absurd rfl hh
  | staging | secure | service | locked => rfl

/-- Latching and picking up a request leave the commands that run on its page (R46, R65). -/
@[simp] theorem inflight_submitted (c : Nat) (r : NcsReq) (d : Dev) :
    inflight (submitted c r d) r.page = inflight d r.page := by
  unfold inflight submitted latchReq
  split
  · rfl
  · show (pageOf (setPage r.page _ d) r.page).accepted.length = _
    rw [pageOf_setPage_same]

/-- A request that passes steps 1 to 9 of R56 and finds its object busy is answered ST_BUSY, reason 2 (step 10). -/
theorem checks_of_busy {c : Cmd} {o : Otp} {d : Dev} {r : NcsReq} (hh : d.sys.mode ≠ .halted)
    (hl : r.len ≤ if r.page = 65 then 14 else 254) (hv : c.bv128 = false) (hn : c.lenOk r = true) (hr : r.rsv % 128 = 0)
    (hp : pageForbids c d r = none) (hf : (if lifeForbids c o r then some 4 else c.forbids o d r) = none)
    (hm : c.modes.contains d.sys.mode = true) (hg : c.bad o d r = none) (hb : c.busy o d r = true) :
    checks c o d r = some (stBusy, [2]) := by
  have hk : (d.sys.mode = .locked && !c.modes.contains .locked) = false := by
    by_cases e : d.sys.mode = .locked
    · rw [← e, hm, Bool.not_true, Bool.and_false]
    · rw [decide_eq_false e, Bool.false_and]
  unfold checks
  rw [if_neg hh, if_neg (Nat.not_lt.mpr hl), hf, hk, hm]
  simp [hv, hn, hr, hp, hg, hb]

/-- NCS_RING_RESET of a page whose commands still run passes every check before step 10 of R56 and fails there (R87). -/
theorem checks_ringReset_of_inflight {r : NcsReq} {d : Dev} (o : Otp) (hh : d.sys.mode ≠ .halted)
    (hd : d.sys.mode ≠ .dormant) (hp : r.page ≤ 64) (hl : r.len = 0) (hr : r.rsv % 128 = 0)
    (hi : inflight d r.page ≠ 0) : checks cmdNcsRingReset o d r = some (stBusy, [2]) := by
  apply checks_of_busy hh (by omega) rfl (beq_iff_eq.mpr hl) hr
  case hp => exact pageForbids_of_tenants d rfl rfl (by omega)
  case hf => rw [lifeForbids_of_housekeeping o r (by decide)]; rfl
  case hm => exact runL_contains hd hh
  case hg => rfl
  case hb => exact decide_eq_true hi

/-! The commands. -/

/-- Settles O12: the reset is the command's whole effect; a running command on the page makes it busy at step 10; a
passing request has the length that step 4 takes. -/
theorem ringResetClearsRing : Obligations.RingResetClearsRing := by
  unfold Obligations.RingResetClearsRing
  refine ⟨?clears, ?busy, ?length⟩
  case clears => exact sets_intro (fun _ _ => rfl) (fun _ _ _ => rfl) (fun _ _ _ => rfl)
  case busy =>
    intro r s hx hp hl hr hd ha
    have hi : inflight s.dev r.page ≠ 0 := fun h => ha (List.eq_nil_of_length_eq_zero h)
    have ⟨_, hh, _⟩ := hx
    have hc : checks cmdNcsRingReset s.otp (submitted cmdNcsRingReset.code r s.dev) r = some (stBusy, [2]) :=
      checks_ringReset_of_inflight s.otp (by simpa using hh) (by simpa using hd) hp hl hr (by simpa using hi)
    calc exec (.ncsRingReset r) s = .next (s.put (command cmdNcsRingReset r s.otp s.dev)) := run_next _ _
      _ = .next (served 0x0104 r stBusy (fun _ => [2]) id s) := by rw [command_rejected hx hc]; rfl
  case length => exact fun r s h => beq_iff_eq.mp (passes_len h)

/-- Settles O13: ping and identification only read, the grants and the mask are the whole effect of their commands, and
a passing ping has the length that step 4 takes. -/
theorem housekeepingCommands : Obligations.HousekeepingCommands := by
  unfold Obligations.HousekeepingCommands
  refine ⟨?ping, ?info, ?expert, ?mask, ?length⟩
  case ping => exact answers_intro (fun _ _ => rfl) (fun _ _ _ => rfl) (fun _ _ _ => rfl)
  case info => exact answers_intro (fun _ _ => rfl) (fun _ _ _ => rfl) (fun _ _ _ => rfl)
  case expert => exact sets_intro (fun _ _ => rfl) (fun _ _ _ => rfl) (fun _ _ _ => rfl)
  case mask => exact sets_intro (fun _ _ => rfl) (fun _ _ _ => rfl) (fun _ _ _ => rfl)
  case length => exact fun r s h => beq_iff_eq.mp (passes_len h)

end Sys2Proof.Machine
end

section
/-! The tamper commands and TAMP_EVENT (R551, R552, R555, R557 to R561). -/
namespace Sys2Proof.Machine

/-! Check 4 of R552, and the verdict on the signatures as a pending unlock records it. -/

theorem unlockCurrent_iff (d : Dev) (m : Bytes) : unlockCurrent d m = true ↔
    beAt m 72 2 = d.tamp.sticky.toNat ∧ beAt m 74 1 = d.sys.haltCause ∧ beAt m 76 4 = d.tamp.seq.toNat := by
  unfold unlockCurrent
  rw [Bool.and_eq_true, Bool.and_eq_true, beq_iff_eq, beq_iff_eq, beq_iff_eq, and_assoc]

/-- The state in which a message that meets checks 1 to 4 of R552 waits for its second decision: the nonce is withdrawn
(R551), the verdict on the signatures is kept (R547). -/
def unlockPending (r : NcsReq) (m : Bytes) (d : Dev) : Dev :=
  let x := secondDelay false d
  { x.2 with tamp := { x.2.tamp with
    nonce := none
    unlock := some ⟨r.page, r.tag, d.tamp.sticky.toNat,
      if beAt m 5 1 = 0 ∨ signedBy d (beAt m 5 1) 0 m = true then stOk else stAuthFail, false, rawNow d + x.1⟩ } }

/-! An unlock message under each of the checks of R552, in their order. -/

section
variable {o : Otp} {r : NcsReq} {d : Dev}

theorem unlockJudge_of_badForm (hf : unlockForm o (r.buf.take (bufLen r 0)) = false) :
    unlockJudge o r d = finish r.page r.tag 0x0D03 stBadField 0 d := by
  unfold unlockJudge
  exact if_pos (by rw [hf]; rfl)

theorem unlockJudge_of_lockingActive (hf : unlockForm o (r.buf.take (bufLen r 0)) = true)
    (ha : lockingActive o d = true) : unlockJudge o r d = finish r.page r.tag 0x0D03 stTamperActive 0 d := by
  unfold unlockJudge
  dsimp only
  rw [if_neg (by rw [hf]; decide), if_pos ha]

theorem unlockJudge_of_staleNonce (hf : unlockForm o (r.buf.take (bufLen r 0)) = true)
    (ha : lockingActive o d = false) (hn : d.tamp.nonce ≠ some (slice (r.buf.take (bufLen r 0)) 40 32)) :
    unlockJudge o r d = finish r.page r.tag 0x0D03 stNonceStale 0 d := by
  unfold unlockJudge
  dsimp only
  rw [if_neg (by rw [hf]; decide), if_neg (by rw [ha]; decide), if_pos (by simp [hn])]

theorem unlockJudge_of_flagsChanged (hf : unlockForm o (r.buf.take (bufLen r 0)) = true)
    (ha : lockingActive o d = false) (hn : d.tamp.nonce = some (slice (r.buf.take (bufLen r 0)) 40 32))
    (hc : unlockCurrent d (r.buf.take (bufLen r 0)) = false) :
    unlockJudge o r d = finish r.page r.tag 0x0D03 stFlagsChanged 0 d := by
  unfold unlockJudge
  dsimp only
  rw [if_neg (by rw [hf]; decide), if_neg (by rw [ha]; decide), if_neg (by simp [hn]), if_pos (by rw [hc]; rfl)]

theorem unlockJudge_of_current (hf : unlockForm o (r.buf.take (bufLen r 0)) = true)
    (ha : lockingActive o d = false) (hn : d.tamp.nonce = some (slice (r.buf.take (bufLen r 0)) 40 32))
    (hc : unlockCurrent d (r.buf.take (bufLen r 0)) = true) :
    unlockJudge o r d = unlockPending r (r.buf.take (bufLen r 0)) d := by
  unfold unlockJudge unlockPending
  dsimp only
  rw [if_neg (by rw [hf]; decide), if_neg (by rw [ha]; decide), if_neg (by simp [hn]), if_neg (by rw [hc]; decide)]
  simp only [Bool.or_eq_true, beq_iff_eq]

end

/-- An unlock request that passes its checks is accepted, and its message is judged on the device that accepted it. -/
theorem exec_tampUnlock_of_passes {r : NcsReq} {s : State} (h : Passes cmdTampUnlock r s) :
    exec (.tampUnlock r) s = .next (s.put (unlockJudge s.otp r (taken r 0x0D03 id s).dev)) :=
  passes_accepted h rfl

/-! The registers. -/

theorem tampEventRead_of_reachable {d : Dev} (o : Otp) (h : reachable d 0 = true) : tampEventRead o d =
    out (.readValue (tampEventWord d)) { d with tamp := { d.tamp with fired := 0, disagree := false } } := if_pos h

/-- Settles O49: each command's request passes its checks and is answered with its own effect; the unlock message takes
the branch of the first check of R552 that it fails. When checks 1 to 4 are made, and the free bits with which the detectors
answer TAMP_TEST, are the model's reading (log 49). -/
theorem tamperCommandsAct : Obligations.TamperCommandsAct := by
  unfold Obligations.TamperCommandsAct
  refine ⟨?status, ?log, ?nonce, ?unlock, ?responses, ?test, ?event, ?length⟩
  case status => exact answers_intro (fun _ _ => rfl) (fun _ _ _ => rfl) (fun _ _ _ => rfl)
  case log => exact answers_intro (fun _ _ => rfl) (fun _ _ _ => rfl) (fun _ _ _ => rfl)
  case nonce => exact fun r s h => passes_answered h rfl (by decide)
  case unlock =>
    intro r s h
    rw [exec_tampUnlock_of_passes h]
    generalize (taken r 0x0D03 id s).dev = d
    dsimp only
    congr 2
    split
    case isTrue hf => exact unlockJudge_of_badForm hf
    case isFalse hf =>
      have hf := eq_true_of_ne_false hf
      split
      case isTrue ha => exact unlockJudge_of_lockingActive hf ha
      case isFalse ha =>
        have ha := eq_false_of_ne_true ha
        split
        case isTrue hn => exact unlockJudge_of_staleNonce hf ha hn
        case isFalse hn =>
          have hn := Decidable.of_not_not hn
          split
          case isTrue hc =>
            exact unlockJudge_of_flagsChanged hf ha hn (eq_false_of_ne_true (mt (unlockCurrent_iff d _).mp hc))
          case isFalse hc =>
            exact unlockJudge_of_current hf ha hn ((unlockCurrent_iff d _).mpr (Decidable.of_not_not hc))
  case responses => exact sets_intro (fun _ _ => rfl) (fun _ _ _ => rfl) (fun _ _ _ => rfl)
  case test => exact fun r s h => passes_answered h rfl (by decide)
  case event =>
    intro s h
    calc exec .tampEventRead s = .next (s.put (tampEventRead s.otp s.dev)) := run_next _ _
      _ = _ := by rw [tampEventRead_of_reachable _ h]; rfl
  case length => exact fun r s h => beq_iff_eq.mp (passes_len h)

end Sys2Proof.Machine
end

section
/-! Power, clocks and thermal control (R248, R585, R587, R590 to R594, R598, R599, R602 to R604, R647). -/
namespace Sys2Proof.Machine

theorem run_eq_next_put {f : Otp → Dev → Dev} {s : State} {d : Dev} (h : f s.otp s.dev = d) :
    run f s = .next (s.put d) := by
  rw [run_next, ← h]
  rfl

/-! The throttle (R593, R594). -/

theorem stretchRise_of_runs {n dt : Nat} {o : Otp} {d : Dev} (readings : List Nat) (hn : n < sectors o)
    (hp : pmuRuns (passTime dt d) = true) : stretchRise n readings dt o d =
      let d := passTime dt d
      let sag := sagOf d n readings
      setLevel n (max (powerOf d n).level (curveLevel d.pwr.curve sag)) sag d :=
  if_pos (by simp [hn, hp])

/-- A fall first rises as its readings ask, then leaves one entry where the sector has stayed released from it. -/
theorem stretchFall_of_runs {n dt : Nat} {o : Otp} {d : Dev} (readings : List Nat) (hn : n < sectors o)
    (hp : pmuRuns (passTime dt d) = true) : stretchFall n readings dt o d =
      let up := stretchRise n readings dt o d
      let sag := sagOf (passTime dt d) n readings
      if 1 ≤ (powerOf up n).level ∧ released up (powerOf up n).level sag = true
        ∧ (powerOf up n).calmAt + curveHold up.pwr.curve ≤ rawNow up then setLevel n ((powerOf up n).level - 1) sag up
      else up := by
  rw [stretchRise_of_runs readings hn hp]
  unfold stretchFall
  dsimp only
  rw [if_neg (by simp [hn, hp])]
  simp only [Bool.and_eq_true, decide_eq_true_eq, and_assoc]

theorem curveSwap_of_due {o : Otp} {d : Dev} (ha : d.pwr.armed = true) (hp : pmuRuns d = true)
    (ht : d.pwr.armedAt < d.sys.ticks) : curveSwap o d =
      let d := { d with pwr := { d.pwr with curve := d.pwr.shadow, armed := false } }
      (List.range (sectors o)).foldl
        (fun d n => setLevel n (curveLevel d.pwr.curve (powerOf d n).sag) (powerOf d n).sag d) d :=
  if_neg (by simp [ha, hp, ht])

theorem curveSwap_of_not_due {d : Dev} (o : Otp) (h : d.pwr.armed = false ∨ d.sys.ticks ≤ d.pwr.armedAt) :
    curveSwap o d = d :=
  if_pos (by rcases h with h | h <;> simp [h])

/-! Sensors (R591). -/

theorem sensorOf_setSensor_same (n i : Nat) (x : Sensor) (d : Dev) : sensorOf (setSensor n i x d) n i = x :=
  tgetD_tset_same _ _ _ _

theorem sensorOf_setSensor_other {n i j : Nat} (hj : j ≠ i) (x : Sensor) (d : Dev) :
    sensorOf (setSensor n i x d) n j = sensorOf d n j :=
  tgetD_tset_other _ (by omega) _ _

/-- A reading lies more than 40 mV from the median of its sector's readings. -/
def offMedian (rs : List SensorTick) (r : SensorTick) : Bool :=
  let med := median2 ((rs.filter (fun q => q.sector == r.sector)).map (·.reading))
  decide (med + 80 < 2 * r.reading) || decide (2 * r.reading + 80 < med)

/-- The only reading of a sector is its median. -/
theorem offMedian_alone (r : SensorTick) : offMedian [r] r = false := by
  have hm : median2 [r.reading] = r.reading + r.reading := by simp [median2, insertNat]
  simp only [offMedian, beq_self_eq_true, List.filter_cons_of_pos, List.filter_nil, List.map_cons, List.map_nil, hm,
    Bool.or_eq_false_iff, decide_eq_false_iff_not]
  omega

/-- Twice the median of two readings is their sum, in whatever order they come. -/
theorem median2_pair (a b : Nat) : median2 [a, b] = a + b := by
  unfold median2
  by_cases h : a ≤ b
  · simp [insertNat, h]
  · simp [insertNat, h, Nat.add_comm]

/-- Of two readings each lies 40 mV from the median where they lie 80 mV apart. -/
theorem offMedian_pair {q r : SensorTick} (h : q.sector = r.sector) :
    offMedian [q, r] r = (decide (80 < q.reading - r.reading) || decide (80 < r.reading - q.reading)) := by
  have hf : [q, r].filter (fun x => x.sector == r.sector) = [q, r] := by simp [h]
  rw [Bool.eq_iff_iff]
  simp only [offMedian, hf, List.map_cons, List.map_nil, median2_pair, Bool.or_eq_true, decide_eq_true_eq]
  omega

theorem trimOne_of_inService {rs : List SensorTick} {d : Dev} {r : SensorTick} (hs : r.sensor < 16)
    (ho : (sensorOf d r.sector r.sensor).out = false) : trimOne rs d r =
      let x := sensorOf d r.sector r.sensor
      let difference : Int := 750 - r.drop - r.reading
      let t := if x.trim < difference then x.trim + 1 else if difference < x.trim then x.trim - 1 else x.trim
      let t := max (-12) (min 12 t)
      setSensor r.sector r.sensor { x with
        trim := t, limitTicks := if t = 12 ∨ t = -12 then x.limitTicks + 1 else 0
        offTicks := if offMedian rs r = true then x.offTicks + 1 else 0 } d := by
  unfold trimOne
  dsimp only
  rw [if_neg (by simp [ho, hs])]
  simp only [offMedian, Bool.or_eq_true, decide_eq_true_eq]

/-- The trim of one sensor leaves the others of its sector. -/
theorem sensorOf_trimOne_other (rs : List SensorTick) (d : Dev) (q : SensorTick) {i : Nat} (hi : i ≠ q.sensor) :
    sensorOf (trimOne rs d q) q.sector i = sensorOf d q.sector i := by
  unfold trimOne
  dsimp only
  split
  · rfl
  · exact sensorOf_setSensor_other hi _ _

theorem sensorTrim_of_runs {rs : List SensorTick} {o : Otp} {d : Dev} (hp : pmuRuns d = true)
    (hn : ∀ r ∈ rs, r.sector < sectors o) : sensorTrim rs o d = rs.foldl (trimOne rs) d := by
  unfold sensorTrim
  rw [if_pos hp, List.filter_eq_self.mpr (fun r hr => decide_eq_true (hn r hr))]

theorem sensorOut_of_due {n i : Nat} {o : Otp} {d : Dev} (hp : pmuRuns d = true) (hn : n < sectors o) (hi : i < 16)
    (ho : (sensorOf d n i).out = false) (hd : 1000 ≤ (sensorOf d n i).limitTicks ∨ 1000 ≤ (sensorOf d n i).offTicks) :
    sensorOut n i o d =
      let d := setSensor n i { sensorOf d n i with out := true } d
      let d := setPower n { powerOf d n with stretch := stretchFor d n (powerOf d n).level } d
      let d := withHw (fun d => { d with pwr := { d.pwr with event := d.pwr.event ||| 0x200#10 } }) d
      emit 0 0x0F81 (wd (n * 2 ^ 16 + i)) (wd (sensorsIn d n)) d :=
  if_neg (by rcases hd with hd | hd <;> simp [hp, hn, hi, ho, hd])

/-! Temperature (R599). -/

theorem thermalRead_of_runs {d : Dev} (js ss : List Int) (w : Word) (o : Otp) (hp : pmuRuns d = true) :
    thermalRead js ss w o d =
      let js := js.take (sectors o)
      let ss := ss.take (sectors o)
      let d := { d with pwr := { d.pwr with temp0 := tempWord js, temp1 := tempWord ss, power := w } }
      let d := (List.range js.length).foldl (fun d n => thermalOne false n (js.getD n 0) d) d
      (List.range ss.length).foldl (fun d n => thermalOne true n (ss.getD n 0) d) d :=
  if_neg (by simp [hp])

/-! Domains (R585, R587). -/

/-- The instant at which a ramp begins that is asked for now: at most 8 begin in 1 µs (R585). -/
def rampInstant (d : Dev) : Nat :=
  match d.pwr.recent[7]? with
  | some t => max (rawNow d) (t + 1750)
  | none => rawNow d

theorem rawNow_le_rampInstant (d : Dev) : rawNow d ≤ rampInstant d := by
  unfold rampInstant
  split
  · exact Nat.le_max_left _ _
  · exact Nat.le_refl _

theorem rampInstant_of_few {d : Dev} (h : d.pwr.recent.length < 8) : rampInstant d = rawNow d := by
  unfold rampInstant
  rw [List.getElem?_eq_none (by omega)]

theorem le_rampInstant_of_eighth {d : Dev} {t : Nat} (h : d.pwr.recent[7]? = some t) : t + 1750 ≤ rampInstant d := by
  unfold rampInstant
  rw [h]
  exact Nat.le_max_right _ _

theorem rampStart_of_ramping {n at' : Nat} {d : Dev} (h : tget d.pwr.ramps n = some at') : rampStart n d = d :=
  if_pos (by simp [h])

theorem rampStart_of_asked {n : Nat} {d : Dev} (ha : domainAsked d n = true) (h : tget d.pwr.ramps n = none) :
    rampStart n d = { d with pwr := { d.pwr with
      ramps := tset d.pwr.ramps n (rampInstant d), recent := (rampInstant d :: d.pwr.recent).take 8 } } :=
  if_neg (by simp [ha, h])

theorem powerUpTime_pos (n : Nat) : 0 < powerUpTime n := by
  unfold powerUpTime usCycles
  split
  · decide
  · split <;> decide

/-- A domain whose ramp has begun comes up where it is still asked for and its time has passed. -/
theorem domainUp_of_ramp {n dt at' : Nat} {o : Otp} {d : Dev} (hi : domainIs o n = true) (hp : pmuRuns d = true)
    (hr : tget (rampStart n d).pwr.ramps n = some at') : domainUp n dt o d =
      let d := passTime dt (rampStart n d)
      if domainAsked d n = true ∧ at' + powerUpTime n ≤ rawNow d then domainPowered n o d else d := by
  have hr' : tget (passTime dt (rampStart n d)).pwr.ramps n = some at' := hr
  unfold domainUp
  rw [if_neg (by simp [hi, hp])]
  dsimp only
  rw [hr']
  simp only [Bool.and_eq_true, decide_eq_true_eq]

theorem domainUp_of_ramping {n dt at' : Nat} {o : Otp} {d : Dev} (hi : domainIs o n = true) (hp : pmuRuns d = true)
    (hr : tget d.pwr.ramps n = some at') : domainUp n dt o d =
      let d := passTime dt d
      if domainAsked d n = true ∧ at' + powerUpTime n ≤ rawNow d then domainPowered n o d else d := by
  have hs := rampStart_of_ramping hr
  have h := domainUp_of_ramp (dt := dt) (o := o) hi hp (hs.symm ▸ hr)
  rwa [hs] at h

/-- What coming up means for a lane, for a slice and for the PKE. -/
theorem domainPowered_eq (n : Nat) (o : Otp) (d : Dev) :
    let up := countUp n { d with pwr := { d.pwr with ramps := tdel d.pwr.ramps n } }
    (n < 128 → domainPowered n o d = up)
    ∧ (128 ≤ n → n < 272 → domainPowered n o d = slicePowerUp (n - 128) o up)
    ∧ (272 ≤ n → domainPowered n o d = { up with pke := { up.pke with powered := true, idle := 0 } }) := by
  refine ⟨fun h => if_pos h, fun h1 h2 => ?_, fun h => ?_⟩
  · exact (if_neg (by omega)).trans (if_pos h2)
  · exact (if_neg (by omega)).trans (if_neg (by omega))

/-- A ramp that begins at the request has not come up at that same instant. -/
theorem domainUp_of_asked {n : Nat} {o : Otp} {d : Dev} (hi : domainIs o n = true) (hp : pmuRuns d = true)
    (ha : domainAsked d n = true) (hr : tget d.pwr.ramps n = none) :
    domainUp n 0 o d = passTime 0 (rampStart n d) ∧ tget (rampStart n d).pwr.ramps n = some (rampInstant d) := by
  have hs := rampStart_of_asked ha hr
  have ht : tget (rampStart n d).pwr.ramps n = some (rampInstant d) := by
    rw [hs]
    exact tget_tset_same _ _ _
  have hnow : rawNow (passTime 0 (rampStart n d)) = rawNow d := by
    rw [hs]
    rfl
  refine ⟨?_, ht⟩
  rw [domainUp_of_ramp hi hp ht]
  refine if_neg fun h => ?_
  obtain ⟨_, hle⟩ := h
  have hpos := powerUpTime_pos n
  have hge := rawNow_le_rampInstant d
  omega

/-! The happenings of R647, and the reseed limit (R248). -/

theorem lrefLoss_of_runs {d : Dev} (o : Otp) (hp : pmuRuns d = true) : lrefLoss o d =
    pathsRefresh ((List.range (lanes o)).foldl (fun d n => lockLost 1 n o (lockLost 0 n o d))
      { d with pwr := { d.pwr with lref := false } }) := by
  have hp' : pmuRuns { d with pwr := { d.pwr with lref := false } } = true := hp
  exact if_neg (by simp [hp'])

theorem railDip_of_runs {d : Dev} (ls : List Nat) (fs : List ScrubFind) (o : Otp) (hp : pmuRuns d = true) :
    railDip ls fs o d =
      fs.foldl (fun d f => scrub f o d) (pathsRefresh (ls.foldl (fun d k => lockLost (k / 64) (k % 64) o d) d)) :=
  if_neg (by simp [hp])

theorem intervalReached_iff (d : Dev) : intervalReached d = true ↔
    2 ^ 32 - 1 ≤ d.sl.keyDrbg.requests ∨ 2 ^ 32 - 1 ≤ d.sl.lineDrbg.requests := by
  simp only [intervalReached, Bool.or_eq_true, decide_eq_true_eq]

theorem reseedLimit_of_reached {d : Dev} (o : Otp) (hp : pmuRuns d = true) (hr : intervalReached d = true) :
    reseedLimit o d = haltEntry 0x31 o d :=
  if_pos (by simp [hp, hr])

/-! Two sensors of one sector in a tick (R591), and the statement. -/

/-- Of two sensors of a sector, the one trimmed last counts a tick off the median where their readings lie far apart. -/
theorem sensorTrim_pair_offTicks {q r : SensorTick} {o : Otp} {d : Dev} (hp : pmuRuns d = true)
    (hn : r.sector < sectors o) (hq : q.sector = r.sector) (hs : r.sensor < 16) (hne : q.sensor ≠ r.sensor)
    (ho : (sensorOf d r.sector r.sensor).out = false) :
    (sensorOf (sensorTrim [q, r] o d) r.sector r.sensor).offTicks =
      if offMedian [q, r] r = true then (sensorOf d r.sector r.sensor).offTicks + 1 else 0 := by
  have hin : ∀ x ∈ [q, r], x.sector < sectors o := by simp [hq, hn]
  have hkeep : sensorOf (trimOne [q, r] d q) r.sector r.sensor = sensorOf d r.sector r.sensor := by
    rw [← hq]
    exact sensorOf_trimOne_other _ _ _ hne.symm
  rw [sensorTrim_of_runs hp hin, List.foldl_cons, List.foldl_cons, List.foldl_nil,
    trimOne_of_inService hs (by rw [hkeep]; exact ho), sensorOf_setSensor_same, hkeep]

/-- Settles O54: each command's request passes its checks and is answered with its own effect; each happening, where the
PMU runs, takes its one branch. That HOLD runs from the instant at which the sag came below the release point at the
entry, and that a power-up takes its time from the instant at which its ramp begins, are the model's reading (log 50). -/
theorem powerActs : Obligations.PowerActs := by
  unfold Obligations.PowerActs
  refine ⟨⟨?status, ?domainGet, ?curveWrite, ?curveRead, ?curveCommit, ?thermSet⟩, ?stretch, ?swap, ?noSwap, ?trim,
    ?trimPair, ?sensorOut, ?thermal, ?rampRuns, ?rampBegins, ?lref, ?rail, ?reseed⟩
  case status => exact answers_intro (fun _ _ => rfl) (fun _ _ _ => rfl) (fun _ _ _ => rfl)
  case domainGet => exact answers_intro (fun _ _ => rfl) (fun _ _ _ => rfl) (fun _ _ _ => rfl)
  case curveWrite => exact sets_intro (fun _ _ => rfl) (fun _ _ _ => rfl) (fun _ _ _ => rfl)
  case curveRead => exact answers_intro (fun _ _ => rfl) (fun _ _ _ => rfl) (fun _ _ _ => rfl)
  case curveCommit => exact sets_intro (fun _ _ => rfl) (fun _ _ _ => rfl) (fun _ _ _ => rfl)
  case thermSet => exact sets_intro (fun _ _ => rfl) (fun _ _ _ => rfl) (fun _ _ _ => rfl)
  case stretch =>
    intro n dt readings s hn hp
    have hrise := stretchRise_of_runs readings hn hp
    have hfall := stretchFall_of_runs readings hn hp
    rw [hrise] at hfall
    simp only [released, decide_eq_true_eq] at hfall
    exact ⟨run_eq_next_put hrise, run_eq_next_put hfall⟩
  case swap => exact fun s ha hp ht => run_eq_next_put (curveSwap_of_due ha hp ht)
  case noSwap => exact fun s h => run_eq_next_put (curveSwap_of_not_due _ h)
  case trim =>
    intro r s hp hn hs ho
    have h : sensorTrim [r] s.otp s.dev = trimOne [r] s.dev r := sensorTrim_of_runs hp (by simpa using hn)
    rw [trimOne_of_inService hs ho, offMedian_alone] at h
    exact run_eq_next_put h
  case trimPair =>
    intro q r s hp hn hq hs _ hne ho _
    refine ⟨_, run_next _ s, ?_⟩
    rw [upd_dev, sensorTrim_pair_offTicks hp hn hq hs hne ho, offMedian_pair hq]
  case sensorOut =>
    exact fun n i s hp hn hi ho hd => run_eq_next_put (sensorOut_of_due hp hn hi ho hd)
  case thermal =>
    exact fun js ss w s hp => run_eq_next_put (thermalRead_of_runs js ss w _ hp)
  case rampRuns =>
    intro n dt at' s hi hp hr
    have h := domainUp_of_ramping (o := s.otp) (dt := dt) hi hp hr
    obtain ⟨hlane, hslice, hpke⟩ := domainPowered_eq n s.otp (passTime dt s.dev)
    refine ⟨fun hw => ?waits, fun ha ht => ?comesUp⟩
    case waits =>
      refine run_eq_next_put (h.trans (if_neg ?_))
      rintro ⟨ha, ht⟩
      rcases hw with hw | hw
      · exact Bool.false_ne_true (hw.symm.trans ha)
      · exact absurd ht (Nat.not_le.mpr hw)
    case comesUp =>
      have hup := h.trans (if_pos ⟨ha, ht⟩)
      exact ⟨fun h1 => run_eq_next_put (hup.trans (hlane h1)),
        fun h1 h2 => run_eq_next_put (hup.trans (hslice h1 h2)), fun h1 => run_eq_next_put (hup.trans (hpke h1))⟩
  case rampBegins =>
    intro n s hi hp hr ha
    obtain ⟨hup, ht⟩ := domainUp_of_asked hi hp ha hr
    refine ⟨s.put (domainUp n 0 s.otp s.dev), rampInstant s.dev, run_next _ s, ?_, rawNow_le_rampInstant _,
      rampInstant_of_few, fun t8 => le_rampInstant_of_eighth⟩
    rw [hup]
    exact ht
  case lref => exact fun s hp => run_eq_next_put (lrefLoss_of_runs _ hp)
  case rail => exact fun ls fs s hp => run_eq_next_put (railDip_of_runs ls fs _ hp)
  case reseed =>
    exact fun s hp h => run_eq_next_put (reseedLimit_of_reached _ hp ((intervalReached_iff _).mpr h))

end Sys2Proof.Machine
end

section
/-! What a step can do to the queue and to the window memory: every command ends in a next state with the queue as it was,
and the window bytes stay, are all gone, or are what a run of the DMA engine leaves. -/
namespace Sys2Proof.Machine

/-! The two operations that hand the window memory on. -/

theorem unlockPass_ram (u : Unlock) (sealOk journalOk : Bool) (o : Otp) (ram : List Host.Cell) (d : Dev) :
    (unlockPass u sealOk journalOk o ram d).2.1 = ram ∨ (unlockPass u sealOk journalOk o ram d).2.1 = [] := by
  unfold unlockPass
  split
  · exact .inl rfl
  · unfold unlockLeave
    dsimp only
    split
    · exact .inr rfl
    · exact .inl rfl

theorem secondOnUnlock_ram (second : Nat) (sealOk journalOk : Bool) (o : Otp) (ram : List Host.Cell) (d : Dev) :
    (secondOnUnlock second sealOk journalOk o ram d).2.1 = ram
      ∨ (secondOnUnlock second sealOk journalOk o ram d).2.1 = [] := by
  unfold secondOnUnlock
  split
  · exact .inl rfl
  · split
    · exact .inl rfl
    · split
      · exact .inl rfl
      · split
        · exact .inl rfl
        · split
          · exact unlockPass_ram _ _ _ _ _ _
          · exact .inl rfl

theorem ite_left_or_right {α : Type} (p : Prop) [Decidable p] (a b : α) :
    (if p then a else b) = a ∨ (if p then a else b) = b := by
  split
  · exact .inl rfl
  · exact .inr rfl

theorem secondDecision_ram (what second : Nat) (sealOk journalOk : Bool) (dt : Nat) (o : Otp) (ram : List Host.Cell)
    (d : Dev) : (secondDecision what second sealOk journalOk dt o ram d).2.1 = ram
      ∨ (secondDecision what second sealOk journalOk dt o ram d).2.1 = [] := by
  unfold secondDecision
  dsimp only
  split
  · exact secondOnUnlock_ram _ _ _ _ _ _
  · dsimp only
    exact (ite_left_or_right _ _ _).symm

/-! The shapes of a command's effect, and every command. -/

/-- A next state with the queue as it was, and with the window bytes as they were or all gone. -/
def KeepsOrClears (s : State) (x : Host.Outcome State Fault Refusal) : Prop :=
  ∃ t, x = .next t ∧ t.pending = s.pending ∧ (t.ram = s.ram ∨ t.ram = [])

theorem run_keepsOrClears (f : Otp → Dev → Dev) (s : State) : KeepsOrClears s (run f s) := ⟨_, rfl, rfl, .inl rfl⟩

theorem runOtp_keepsOrClears (f : Otp → Dev → Otp × Dev) (s : State) : KeepsOrClears s (runOtp f s) :=
  ⟨_, rfl, rfl, .inl rfl⟩

theorem runFresh_keepsOrClears (f : Otp → Dev → Dev) (s : State) : KeepsOrClears s (runFresh f s) :=
  ⟨_, rfl, rfl, .inr rfl⟩

theorem runAll_keepsOrClears {f : Otp → List Host.Cell → Dev → Otp × List Host.Cell × Dev}
    (h : ∀ o ram d, (f o ram d).2.1 = ram ∨ (f o ram d).2.1 = []) (s : State) : KeepsOrClears s (runAll f s) :=
  ⟨_, rfl, rfl, h _ _ _⟩

theorem runStart_keepsOrClears (f : Otp → Dev → Dev) (s : State) : KeepsOrClears s (runStart f s) :=
  runAll_keepsOrClears (fun _ _ _ => ite_left_or_right _ _ _) s

theorem execKsProvision_keepsOrClears (r : NcsReq) (s : State) : KeepsOrClears s (execKsProvision r s) := by
  unfold execKsProvision
  exact runOtp_keepsOrClears _ s

theorem execGrnRegionSet_keepsOrClears (r : NcsReq) (s : State) : KeepsOrClears s (execGrnRegionSet r s) := by
  unfold execGrnRegionSet
  exact runAll_keepsOrClears (fun _ _ _ => ite_left_or_right _ _ _) s

theorem execDormantReached_keepsOrClears (s : State) : KeepsOrClears s (execDormantReached s) := by
  unfold execDormantReached
  exact runAll_keepsOrClears (fun _ _ _ => (ite_left_or_right _ _ _).symm) s

/-- The run of a DMA channel is the only command that writes window bytes. -/
theorem exec_keepsOrClears {i : Instr} (h : ∀ host cut, i ≠ .dmaChannelRun host cut) (s : State) :
    KeepsOrClears s (exec i s) := by
  cases i
  case dmaChannelRun host cut => exact absurd rfl (h host cut)
  case ksSealProcess whole => exact runOtp_keepsOrClears _ s
  case ksProvision r => exact execKsProvision_keepsOrClears r s
  case provisioningOtpWriteDone => exact runOtp_keepsOrClears _ s
  case retireOtpDone => exact runOtp_keepsOrClears _ s
  case fwConfirmOtpDone => exact runOtp_keepsOrClears _ s
  case startSequence x => exact runOtp_keepsOrClears _ s
  case lifeOtpWriteDone => exact runOtp_keepsOrClears _ s
  case tamperSecondDecision what second sealOk journalOk =>
    exact runAll_keepsOrClears (secondDecision_ram what second.val sealOk journalOk second.dt) s
  case dormantReached => exact execDormantReached_keepsOrClears s
  case grnRegionSet r => exact execGrnRegionSet_keepsOrClears r s
  case mainPowerLoss => exact runFresh_keepsOrClears _ s
  case mainPowerReturn rtc => exact runStart_keepsOrClears _ s
  case rstNReset => exact runStart_keepsOrClears _ s
  case sysResetTrigger => exact runStart_keepsOrClears _ s
  case smbAddressMatchWake rtc => exact runStart_keepsOrClears _ s
  case wakeNWake rtc => exact runStart_keepsOrClears _ s
  case rtcAlarmWake => exact runStart_keepsOrClears _ s
  case aoColdStart => exact runStart_keepsOrClears _ s
  all_goals exact run_keepsOrClears _ s

/-- What a run of a DMA channel leaves: its effect on OTP, windows and device, with the queue as it was. -/
theorem exec_dmaChannelRun (host : HostMem) (cut : Option Nat) (s : State) :
    exec (.dmaChannelRun host cut) s = runAll (dmaRun host cut) s := rfl

/-- A command is a run of a DMA channel or none. -/
theorem dmaChannelRun_or_not (i : Instr) :
    (∃ host cut, i = .dmaChannelRun host cut) ∨ ∀ host cut, i ≠ .dmaChannelRun host cut := by
  by_cases h : ∃ host cut, i = .dmaChannelRun host cut
  · exact .inl h
  · exact .inr fun host cut e => h ⟨host, cut, e⟩

/-! The statements. -/

/-- Settles O1: by the definition of a step, for a queue with a front command and for an empty one. The queue and idling
on an empty one are the model's choice (log 1). -/
theorem stepRunsFrontCommand : Obligations.StepRunsFrontCommand := by
  unfold Obligations.StepRunsFrontCommand
  refine ⟨fun c rest s => rfl, fun s h => ?_⟩
  unfold step
  rw [h]

/-- Settles O2: a run of a DMA channel and every other command keep the queue. That no command faults or is refused is
the model's choice (log 59), and so is the kept queue (log 1). -/
theorem everyCommandCompletesAndKeepsQueue : Obligations.EveryCommandCompletesAndKeepsQueue := by
  unfold Obligations.EveryCommandCompletesAndKeepsQueue
  intro c s
  rcases dmaChannelRun_or_not c with ⟨host, cut, rfl⟩ | h
  · exact ⟨_, runAll_next _ s, rfl⟩
  · obtain ⟨t, ht, hp, _⟩ := exec_keepsOrClears h s
    exact ⟨t, ht, hp⟩

theorem exec_wf {i : Instr} {s t : State} (hw : Memory.wf s.ram = true) (h : exec i s = .next t) :
    Memory.wf t.ram = true := by
  rcases dmaChannelRun_or_not i with ⟨host, cut, rfl⟩ | hi
  · cases h
    exact dmaRun_wf host cut s.otp s.ram s.dev hw
  · obtain ⟨t', ht, _, hr⟩ := exec_keepsOrClears hi s
    cases h.symm.trans ht
    rcases hr with hr | hr
    · rw [hr]; exact hw
    · rw [hr]; rfl

/-- Settles O4: an idle step leaves the windows as they are; a command keeps them, clears them, or is a run of a DMA
channel, whose every write keeps the canonical form. -/
theorem stepKeepsWindowsCanonical : Obligations.StepKeepsWindowsCanonical := by
  unfold Obligations.StepKeepsWindowsCanonical
  intro s t hw h
  unfold step at h
  split at h
  · cases h
    exact hw
  · next c rest _ => exact exec_wf (i := c) (s := { s with pending := rest }) hw h

/-! A byte string in the window memory. -/

/-- Settles O6: by induction on the byte string; each byte put shows at its own address alone. -/
theorem windowWriteReadsBack : Obligations.WindowWriteReadsBack := by
  unfold Obligations.WindowWriteReadsBack
  intro m a n b hw
  induction b generalizing m a with
  | nil =>
    rw [if_neg (by simp)]
    rfl
  | cons x t ih =>
    have hput : ramByte (ramPut (ramSet m a x) (a + 1) t) n =
        if a + 1 ≤ n ∧ n < a + 1 + t.length then t.getD (n - (a + 1)) 0 else if n = a then x else ramByte m n := by
      rw [ih _ _ (ramSet_wf hw a x), ramSet_get hw]
    refine hput.trans ?_
    rw [List.length_cons]
    by_cases hx : n = a
    · subst hx
      rw [if_neg (by omega), if_pos rfl, if_pos (by omega), Nat.sub_self]
      rfl
    · by_cases ht : a + 1 ≤ n ∧ n < a + 1 + t.length
      · rw [if_pos ht, if_pos (by omega), show n - a = n - (a + 1) + 1 by omega]
        rfl
      · rw [if_neg ht, if_neg hx, if_neg (by omega)]

end Sys2Proof.Machine
end

section
/-! The event ring of a page (R63 to R65). -/
namespace Sys2Proof.Machine

/-- The ring takes EVT_CMD_DONE whenever an entry is free, any other event when more are free than commands run. -/
theorem ringTakes_iff (g : Page) (evt : Nat) : ringTakes g evt = true ↔
    if evt = evtCmdDone then ringUsed g < 64 else g.accepted.length + ringUsed g < 64 := by
  unfold ringTakes
  dsimp only
  split
  · rw [decide_eq_true_eq]; omega
  · rw [decide_eq_true_eq]; omega

theorem event_of_taken {g : Page} {evt : Nat} (tag : Nat) (w2 w3 : Word) (h : ringTakes g evt = true) :
    g.event evt tag w2 w3 = { g with
      ring := tset g.ring (g.tail.toNat % 64) ⟨wd (evt * 2 ^ 16 + tag % 256 * 2 ^ 8), g.seq, w2, w3⟩
      tail := g.tail + 1
      seq := g.seq + 1 } := if_pos h

theorem event_of_dropped {g : Page} {evt : Nat} (tag : Nat) (w2 w3 : Word) (h : ringTakes g evt = false) :
    g.event evt tag w2 w3 = { g with lost := satInc 16 g.lost, evtOvf := true, seq := g.seq + 1 } :=
  if_neg (by simp [h])

/-- A ring with a free entry uses one more after an event. -/
theorem ringUsed_of_tail_succ {g h : Page} (ht : h.tail = g.tail + 1) (hh : h.head = g.head) (hu : ringUsed g < 64) :
    ringUsed h = ringUsed g + 1 := by
  unfold ringUsed at *
  rw [ht, hh]
  bv_omega

/-- A taken event never lies on an unread entry: the entries in use stand in other places of the ring. -/
theorem slot_ne_of_unread {g : Page} {k : Nat} (hk : k < ringUsed g) (hu : ringUsed g < 64) :
    (g.head.toNat + k) % 64 ≠ g.tail.toNat % 64 := by
  unfold ringUsed at *
  bv_omega

theorem ringUsed_lt_of_takes {g : Page} {evt : Nat} (h : ringTakes g evt = true) : ringUsed g < 64 := by
  rw [ringTakes_iff] at h
  split at h <;> omega

theorem room_event_of_not_done {g : Page} {evt : Nat} (tag : Nat) (w2 w3 : Word) (hg : g.Room) (he : evt ≠ evtCmdDone) :
    (g.event evt tag w2 w3).Room := by
  cases h : ringTakes g evt with
  | false =>
    rw [event_of_dropped tag w2 w3 h]
    exact hg
  | true =>
    have hroom := (ringTakes_iff g evt).mp h
    rw [if_neg he] at hroom
    have hused := ringUsed_of_tail_succ (h := g.event evt tag w2 w3) (by rw [event_of_taken tag w2 w3 h])
      (by rw [event_of_taken tag w2 w3 h]) (ringUsed_lt_of_takes h)
    have hacc : (g.event evt tag w2 w3).accepted = g.accepted := by rw [event_of_taken tag w2 w3 h]
    unfold Page.Room
    rw [hused, hacc]
    omega

theorem tget_event_of_unread {g : Page} {evt : Nat} (tag : Nat) (w2 w3 : Word) (h : ringTakes g evt = true) {k : Nat}
    (hk : k < ringUsed g) :
    tget (g.event evt tag w2 w3).ring ((g.head.toNat + k) % 64) = tget g.ring ((g.head.toNat + k) % 64) := by
  rw [event_of_taken tag w2 w3 h]
  exact tget_tset_other _ (slot_ne_of_unread hk (ringUsed_lt_of_takes h)) _

/-- Settles O8: the room of a page under an event, an accepted command and its EVT_CMD_DONE; a taken event lies beside
the unread entries, and an event that finds no room is counted. -/
theorem ringKeepsUnreadEntriesAndRoom : Obligations.RingKeepsUnreadEntriesAndRoom := by
  unfold Obligations.RingKeepsUnreadEntriesAndRoom
  refine ⟨fun g w2 w3 hg => ⟨?other, ?accept, ?done⟩, fun g evt tag w2 w3 hevt htag => ?event⟩
  case other => exact fun evt tag he => room_event_of_not_done tag w2 w3 hg he
  case accept =>
    intro a ha
    show (g.accepted ++ [a]).length + ringUsed g ≤ 64
    rw [List.length_append, List.length_singleton]
    omega
  case done =>
    intro tag a rest hr
    have hlen : rest.length + 1 + ringUsed g ≤ 64 := by
      unfold Page.Room at hg
      rwa [hr, List.length_cons] at hg
    have ht : ringTakes { g with accepted := rest } evtCmdDone = true :=
      (ringTakes_iff _ _).mpr (by rw [if_pos rfl]; show ringUsed g < 64; omega)
    have hused := ringUsed_of_tail_succ (g := g) (h := Page.event { g with accepted := rest } evtCmdDone tag w2 w3)
      (by rw [event_of_taken tag w2 w3 ht]) (by rw [event_of_taken tag w2 w3 ht]) (by omega)
    refine ⟨?_, by rw [event_of_taken tag w2 w3 ht], by rw [event_of_taken tag w2 w3 ht],
      by rw [event_of_taken tag w2 w3 ht]⟩
    have hacc : (Page.event { g with accepted := rest } evtCmdDone tag w2 w3).accepted = rest := by
      rw [event_of_taken tag w2 w3 ht]
    unfold Page.Room
    rw [hused, hacc]
    omega
  case event =>
    dsimp only
    cases h : ringTakes g evt with
    | true =>
      have hunread := fun k => tget_event_of_unread tag w2 w3 h (k := k)
      rw [event_of_taken tag w2 w3 h] at hunread ⊢
      refine ⟨rfl, rfl, rfl, fun _ => ⟨rfl, rfl, ?_, hunread⟩, fun hf => by cases hf⟩
      rw [tget_tset_same, Nat.mod_eq_of_lt htag]
      rfl
    | false =>
      rw [event_of_dropped tag w2 w3 h]
      exact ⟨rfl, rfl, rfl, fun hf => absurd hf (by decide), fun _ => ⟨rfl, rfl, rfl, rfl⟩⟩

end Sys2Proof.Machine
end

section
/-! Requests that the page hardware or a check of R56 answers, and what an answer leaves on its page (R46 to R50, R56, R69,
R74, R77, R80). -/
namespace Sys2Proof.Machine

/-! The pages and the Signal box's registers under a message and a response. -/

@[simp] theorem raise_pages (v : Nat) (d : Dev) : (raise v d).sb.pages = d.sb.pages := by
  unfold raise
  split <;> rfl

@[simp] theorem pageOf_raise (v p : Nat) (d : Dev) : pageOf (raise v d) p = pageOf d p := by
  unfold pageOf
  rw [raise_pages]

@[simp] theorem raise_served (v : Nat) (d : Dev) : (raise v d).sb.served = d.sb.served := by
  unfold raise
  split <;> rfl

/-- A message whose vector is free leaves at once (R67, R68). -/
theorem raise_outs_of_free {v : Nat} {d : Dev} (hi : d.sb.irqEnable = true) (hs : d.sb.spacing = []) :
    (raise v d).outs = d.outs ++ [.msix v] := by
  unfold raise
  rw [if_pos (by simp [hi, hs])]
  rfl

/-- The page as a response leaves it (R48). -/
def Page.responded (g : Page) (tag st : Nat) (pl : List Word) : Page :=
  { g with resp := respRecord tag st pl, reqBusy := false, respValid := true }

theorem respond_of_page {p : Nat} (hp : p ≠ 65) (tag st : Nat) (pl : List Word) (d : Dev) :
    respond p tag st pl d =
      if !(pageOf d p).respValid && !(pageOf d p).maskResp then
        raise p (setPage p ((pageOf d p).responded tag st pl) d)
      else setPage p ((pageOf d p).responded tag st pl) d := if_neg hp

theorem pageOf_respond_same {p : Nat} (hp : p ≠ 65) (tag st : Nat) (pl : List Word) (d : Dev) :
    pageOf (respond p tag st pl d) p = (pageOf d p).responded tag st pl := by
  rw [respond_of_page hp]
  split <;> simp

theorem pageOf_respond_other {p q : Nat} (hp : p ≠ 65) (hq : q ≠ p) (tag st : Nat) (pl : List Word) (d : Dev) :
    pageOf (respond p tag st pl d) q = pageOf d q := by
  rw [respond_of_page hp]
  split
  · rw [pageOf_raise, pageOf_setPage_other _ _ hq]
  · rw [pageOf_setPage_other _ _ hq]

theorem respond_served {p : Nat} (hp : p ≠ 65) (tag st : Nat) (pl : List Word) (d : Dev) :
    (respond p tag st pl d).sb.served = d.sb.served := by
  rw [respond_of_page hp]
  split <;> simp [setPage]

/-- A response that sets RESP_VALID sends its message where nothing holds it back. -/
theorem respond_outs {p : Nat} (hp : p ≠ 65) (tag st : Nat) (pl : List Word) {d : Dev}
    (hv : (pageOf d p).respValid = false) (hm : (pageOf d p).maskResp = false) (hi : d.sb.irqEnable = true)
    (hs : d.sb.spacing = []) : (respond p tag st pl d).outs = d.outs ++ [.msix p] := by
  rw [respond_of_page hp, if_pos (by rw [hv, hm]; rfl), raise_outs_of_free (by exact hi) (by exact hs)]
  rfl

/-! A request latched and picked up. -/

/-- The page as latching a request leaves it (R46). -/
def Page.latching (g : Page) (code : Nat) (r : NcsReq) : Page :=
  { g with
    req := recordArea (requestWords code r), latch := recordArea (requestWords code r), grant := g.expert
    lastTag := r.tag % 256, reqBusy := true, respValid := false }

theorem latchReq_of_page {r : NcsReq} (hp : r.page ≠ 65) (code : Nat) (d : Dev) :
    latchReq code r d = setPage r.page ((pageOf d r.page).latching code r) d := if_neg hp

theorem submitted_of_page {r : NcsReq} (hp : r.page ≠ 65) (code : Nat) (d : Dev) :
    submitted code r d = pickUp r.page (setPage r.page ((pageOf d r.page).latching code r) d) := by
  unfold submitted
  rw [latchReq_of_page hp]

theorem pageOf_submitted_same {r : NcsReq} (hp : r.page ≠ 65) (code : Nat) (d : Dev) :
    pageOf (submitted code r d) r.page = (pageOf d r.page).latching code r := by
  rw [submitted_of_page hp]
  exact pageOf_setPage_same _ _ _

theorem pageOf_submitted_other {r : NcsReq} {q : Nat} (hp : r.page ≠ 65) (hq : q ≠ r.page) (code : Nat) (d : Dev) :
    pageOf (submitted code r d) q = pageOf d q := by
  rw [submitted_of_page hp]
  exact pageOf_setPage_other _ _ hq _ _

/-- The latch of a requester holds the request that was just latched. -/
theorem latched_latchReq {r : NcsReq} (hp : r.page ≤ 65) (code : Nat) (d : Dev) :
    latched (latchReq code r d) r.page = true := by
  unfold latched
  by_cases h : r.page = 65
  · rw [if_pos h]
    unfold latchReq
    rw [if_pos h]
  · rw [if_neg h, latchReq_of_page h, pageOf_setPage_same, decide_eq_true (by omega)]
    rfl

/-! The checks of R56. -/

/-- A check that refuses does so with the status of an error. -/
def Refusing (x : Option (Nat × List Word)) : Prop := ∀ st pl, x = some (st, pl) → st ≠ stOk ∧ st ≠ stAccepted

theorem Refusing.some {st : Nat} (pl : List Word) (h : st ≠ stOk ∧ st ≠ stAccepted) : Refusing (some (st, pl)) := by
  rintro _ _ ⟨⟩
  exact h

theorem Refusing.none : Refusing none := by
  rintro _ _ ⟨⟩

theorem Refusing.ite {p : Prop} [Decidable p] {x y : Option (Nat × List Word)} (hx : Refusing x) (hy : Refusing y) :
    Refusing (if p then x else y) := iteInduction (fun _ => hx) (fun _ => hy)

theorem checks_refusing (c : Cmd) (o : Otp) (d : Dev) (r : NcsReq) : Refusing (checks c o d r) := by
  unfold checks
  refine .ite (.some _ (by decide)) (.ite (.some _ (by decide)) (.ite (.some _ (by decide)) (.ite (.some _ (by decide))
    (.ite (.some _ (by decide)) ?page))))
  case page =>
    cases pageForbids c d r with
    | some n => exact .some _ (by decide)
    | none =>
      generalize (if lifeForbids c o r then Option.some 4 else c.forbids o d r) = reason
      cases reason with
      | some n => exact .some _ (by decide)
      | none =>
        refine .ite (.some _ (by decide)) (.ite (.some _ (by decide)) ?field)
        cases c.bad o d r with
        | some i => exact .some _ (by decide)
        | none =>
          exact .ite (.some _ (by decide)) (.ite (.some _ (by decide)) (.ite (.some _ (by decide))
            (.ite (.some _ (by decide)) (.ite (.some _ (by decide)) .none))))

/-- A tenant page that sends a command of another page's column is refused, reason 1 (step 6 of R56). -/
theorem checks_of_foreign {c : Cmd} {o : Otp} {d : Dev} {r : NcsReq} (hh : d.sys.mode ≠ .halted) (h1 : 1 ≤ r.page)
    (h64 : r.page ≤ 64) (ht : c.tenants = false) (hl : r.len ≤ 254) (hn : c.lenOk r = true) (hr : r.rsv % 128 = 0)
    (hv : c.bv128 = true → o.variant = .bv128) : checks c o d r = some (stNotPermitted, [1]) := by
  have hp : pageForbids c d r = some 1 := by
    unfold pageForbids
    rw [if_neg (by omega), if_pos (by rw [ht, decide_eq_true (by omega)]; rfl)]
  have hb : (c.bv128 && !decide (o.variant = .bv128)) = false := by
    by_cases hc : c.bv128 = true
    · rw [hc, decide_eq_true (hv hc)]; rfl
    · rw [Bool.not_eq_true] at hc
      rw [hc]; rfl
  unfold checks
  rw [if_neg hh, if_neg (by rw [if_neg (by omega)]; omega), if_neg (by rw [hb]; decide), if_neg (by rw [hn]; decide),
    if_neg (Decidable.not_not.mpr hr), hp]
  rfl

/-! Every row whose request changes the Signal box's part alone. -/

/-- A row whose request touches the Signal box's part alone leaves the state with that device. -/
theorem exec_ncs_of_only {i : Instr} {c : Cmd} {r : NcsReq} {s : State} {d : Dev} (h : ncsRow i = some (c, r))
    (hd : command c r s.otp s.dev = d) (ho : OnlySb s.dev d) : exec i s = .next (s.put d) := by
  subst hd
  exact exec_ncs h (by rw [ho]) (by rw [ho])

theorem exec_rejected {i : Instr} {c : Cmd} {r : NcsReq} {s : State} {st : Nat} {pl : List Word}
    (h : ncsRow i = some (c, r)) (hx : Reaches c r s) (hc : checks c s.otp (submitted c.code r s.dev) r = some (st, pl)) :
    exec i s = .next (served c.code r st (fun _ => pl) id s) :=
  exec_ncs_of_only h (command_rejected hx hc) ((submitted_only _ _ _).trans (respond_only _ _ _ _ _))

/-- Settles O7: every row is latched and answered by the page hardware, refused by a check, turned away or left waiting;
each touches its requester's part alone. Naming reason 1 before any other reason of step 6 (log 74), replacing the
response area whole (log 12) and serving a row as it is latched (log 11) are the model's choices. -/
theorem requestsAreAnsweredOnTheirPage : Obligations.RequestsAreAnsweredOnTheirPage := by
  unfold Obligations.RequestsAreAnsweredOnTheirPage
  refine ⟨?halted, ?down, ?rejected, ?tenant, ?page, ?overrun, ?waits⟩
  case halted =>
    exact fun i c r s h hr hm => exec_ncs_of_only h (command_halted hr hm)
      ((latchReq_only _ _ _).trans (respond_only _ _ _ _ _))
  case down =>
    exact fun i c r s h hr hm hu => exec_ncs_of_only h (command_down hr hm hu)
      ((latchReq_only _ _ _).trans (respond_only _ _ _ _ _))
  case rejected => exact fun i c r s st pl h hx hc => ⟨exec_rejected h hx hc, checks_refusing _ _ _ _ _ _ hc⟩
  case tenant =>
    intro i c r s h hx h1 h64 ht hl hn hr hv
    obtain ⟨_, hh, _, _⟩ := id hx
    exact exec_rejected h hx (checks_of_foreign (by simpa using hh) h1 h64 ht hl hn hr hv)
  case page =>
    intro code r st pl s hp htag hst
    have h65 : r.page ≠ 65 := by omega
    have hpage : pageOf (served code r st (fun _ => pl) id s).dev r.page =
        ((pageOf s.dev r.page).latching code r).responded r.tag st pl :=
      (pageOf_respond_same h65 _ _ _ _).trans (by rw [id, pageOf_submitted_same h65])
    dsimp only
    rw [hpage]
    refine ⟨rfl, rfl, Nat.mod_eq_of_lt htag, ?_, rfl, rfl, rfl, fun q hq => ?_, fun hm hi hs => ?_, ?_, rfl, rfl, rfl⟩
    · show respRecord r.tag st pl = _
      unfold respRecord
      rw [Nat.mod_eq_of_lt htag]
      rfl
    · exact (pageOf_respond_other h65 hq _ _ _ _).trans (pageOf_submitted_other h65 hq _ _)
    · refine (respond_outs h65 _ _ _ ?_ ?_ ?_ ?_).trans ?_
      · rw [id, pageOf_submitted_same h65]; rfl
      · rw [id, pageOf_submitted_same h65]; exact hm
      · rw [id, submitted_of_page h65]; exact hi
      · rw [id, submitted_of_page h65]; exact hs
      · rw [id, submitted_of_page h65]; rfl
    · exact respond_served h65 _ _ _ _
  case overrun =>
    exact fun i c r s h hp hr hl => exec_ncs_of_only h (command_overrun hp hr hl) (turnAway_only _ _)
  case waits =>
    exact fun i c r s h hr hm hu hn => ⟨exec_ncs_of_only h (command_waits hr hm hu hn) (latchReq_only _ _ _),
      latched_latchReq hr.1 _ _⟩

end Sys2Proof.Machine
end

section
/-! The page registers, the IRQ_ registers, the answers of the page hardware and the SMBus transactions (R44 to R47, R63,
R67 to R69, R74, R77, R80). -/
namespace Sys2Proof.Machine

/-! The page registers, each where its window is reached. -/

section
variable {p : Nat} {v : Word} {d : Dev}

theorem doorbell_of_free (o : Otp) (hw : windowUp d p = true) (hv : bit v 0 = true)
    (hb : (pageOf d p).reqBusy = false) : doorbell p v o d = setPage p { pageOf d p with
      latch := (pageOf d p).req
      grant := (pageOf d p).expert
      reqBusy := true
      respValid := false
      lastTag := fld (tgetD (pageOf d p).req 0 0) 15 8 } d := by
  unfold doorbell
  rw [if_neg (by simp [hw, hv]), if_neg (by simp [hb])]

theorem headWrite_of_taken (o : Otp) (hw : windowUp d p = true) (h : ((pageOf d p).tail - v).toNat ≤ 64) :
    headWrite p v o d = setPage p { pageOf d p with head := v } d := by
  unfold headWrite
  rw [if_neg (by simp [hw]), if_pos h]

theorem headWrite_of_refused (o : Otp) (hw : windowUp d p = true) (h : 64 < ((pageOf d p).tail - v).toNat) :
    headWrite p v o d = setPage p { pageOf d p with headErr := true } d := by
  unfold headWrite
  rw [if_neg (by simp [hw]), if_neg (by omega)]

/-- A message that falls due while nothing holds it back and no spacing is set leaves the device as it is. -/
theorem raise_of_unspaced (n : Nat) (hi : d.sb.irqEnable = true) (hs : d.sb.spacing = []) (hc : d.sb.coalesce = 0) :
    raise n d = out (.msix n) d := by
  unfold raise sendNow
  rw [if_pos (by simp [hi, hs]), if_pos hc]

theorem irqMaskWrite_of_quiet (o : Otp) (hw : windowUp d p = true) (hr : (pageOf d p).respValid = false)
    (hs : (pageOf d p).sbChg = false) (ht : (pageOf d p).tail = (pageOf d p).head) :
    irqMaskWrite p v o d =
      setPage p { pageOf d p with maskResp := bit v 0, maskEvt := bit v 1, maskSb := bit v 2 } d := by
  unfold irqMaskWrite
  dsimp only
  rw [if_neg (by simp [hw]), if_neg (by simp [hs]), if_neg (by simp [ht]), if_neg (by simp [hr])]

theorem irqMaskWrite_of_response (o : Otp) (hw : windowUp d p = true) (hm : (pageOf d p).maskResp = true)
    (hr : (pageOf d p).respValid = true) (he : (pageOf d p).maskEvt = false) (hs : (pageOf d p).maskSb = false)
    (hi : d.sb.irqEnable = true) (hsp : d.sb.spacing = []) (hc : d.sb.coalesce = 0) :
    irqMaskWrite p 0 o d = out (.msix p) (setPage p { pageOf d p with maskResp := false } d) := by
  have h0 : ∀ n, bit (0 : Word) n = false := fun n => by simp [bit]
  unfold irqMaskWrite
  dsimp only
  rw [if_neg (by simp [hw]), if_neg (by simp [hs]), if_neg (by simp [he]), if_pos (by rw [hm, hr, h0]; rfl), h0, h0, h0,
    raise_of_unspaced p (by exact hi) (by exact hsp) (by exact hc), he, hs]

/-! Register writes at the offsets of a tenant window and of BAR2. -/

theorem hostWriteReg_vf {n off : Nat} (v : Word) (o : Otp) (d : Dev) (h1 : 1 ≤ n) (h64 : n ≤ 64) (ho : off < 0x1000) :
    hostWriteReg (.vf n) off v o d = pageWrite n off v o d :=
  if_pos (by simp [h1, h64, ho])

theorem hostWriteReg_pf_tenant {n off : Nat} (v : Word) (o : Otp) (d : Dev) (h1 : 1 ≤ n) :
    hostWriteReg .pf (n * 0x1000 + off) v o d = d :=
  if_neg (by omega)

theorem pageWrite_of_up (off : Nat) (o : Otp) (hw : windowUp d p = true) (ha : off % 4 = 0) :
    pageWrite p off v o d =
      if off = 0x000 then doorbell p v o d
      else if off = 0x004 then ncsStateWrite p v d
      else if off = 0x00C then headWrite p v o d
      else if off = 0x014 then irqMaskWrite p v o d
      else if 0x400 ≤ off && off < 0x800 then requestWrite p ((off - 0x400) / 4) v d
      else d :=
  if_neg (by simp [hw, ha])

theorem pageWrite_request {i : Nat} (o : Otp) (hw : windowUp d p = true) (hi : i < 256) (hv : v ≠ 0) :
    pageWrite p (0x400 + 4 * i) v o d = setPage p { pageOf d p with req := tset (pageOf d p).req i v } d := by
  rw [pageWrite_of_up _ o hw (by omega), if_neg (by omega), if_neg (by omega), if_neg (by omega), if_neg (by omega),
    if_pos (by rw [Bool.and_eq_true, decide_eq_true_eq, decide_eq_true_eq]; omega),
    show (0x400 + 4 * i - 0x400) / 4 = i by omega]
  unfold requestWrite
  dsimp only
  rw [if_neg hv]

/-! The IRQ_ registers (R68). -/

theorem irqCtlWrite_of_disable (o : Otp) (hb : bar2Up d = true) (hv : bit v 31 = false) :
    irqCtlWrite v o d = { d with sb := { d.sb with irqEnable := false, coalesce := fld v 15 0 } } := by
  unfold irqCtlWrite
  rw [if_neg (by simp [hb]), if_neg (by simp [hv]), hv]

/-- Without spacing, held messages go out one after the other and nothing else moves. -/
theorem foldl_sendNow_of_unspaced (vs : List Nat) (hc : d.sb.coalesce = 0) :
    vs.foldl (fun d v => sendNow v d) d = { d with outs := d.outs ++ vs.map .msix } := by
  induction vs generalizing d with
  | nil => simp
  | cons x t ih =>
    have hx : sendNow x d = out (.msix x) d := by
      unfold sendNow
      rw [if_pos hc]
    rw [List.foldl_cons, hx, ih (by exact hc)]
    simp [out, List.append_assoc]

theorem sendHeld_of_unspaced (hs : d.sb.spacing = []) (hc : d.sb.coalesce = 0) :
    sendHeld d = { d with sb := { d.sb with held := [] }, outs := d.outs ++ d.sb.held.map .msix } := by
  have hnow : d.sb.held.filter (fun v => !d.sb.spacing.contains v) = d.sb.held := by simp [hs]
  have hlater : d.sb.held.filter (fun v => d.sb.spacing.contains v) = [] := by simp [hs]
  unfold sendHeld
  dsimp only
  rw [hnow, hlater, foldl_sendNow_of_unspaced _ (by exact hc)]

theorem irqCtlWrite_of_enable (o : Otp) (hb : bar2Up d = true) (hv : bit v 31 = true) (hc : fld v 15 0 = 0)
    (hs : d.sb.spacing = []) : irqCtlWrite v o d = { d with
      sb := { d.sb with irqEnable := true, coalesce := 0, held := [] }
      outs := d.outs ++ d.sb.held.map .msix } := by
  unfold irqCtlWrite
  rw [if_neg (by simp [hb]), if_pos hv, hv, hc, sendHeld_of_unspaced (by exact hs) (by rfl)]

theorem coalesceExpiry_of_nothing_held {n : Nat} (o : Otp) (hs : d.sb.spacing.contains n = true)
    (hh : d.sb.held.contains n = false) : coalesceExpiry n o d =
      { d with sb := { d.sb with spacing := d.sb.spacing.filter (· != n) } } := by
  unfold coalesceExpiry
  rw [if_neg (by rw [hs]; decide)]
  dsimp only
  rw [if_neg (by rw [hh]; simp)]

theorem coalesceExpiry_of_held {n : Nat} (o : Otp) (hs : d.sb.spacing.contains n = true)
    (hh : d.sb.held.contains n = true) (hi : d.sb.irqEnable = true) : coalesceExpiry n o d =
      sendNow n { d with sb := { d.sb with
        spacing := d.sb.spacing.filter (· != n), held := d.sb.held.filter (· != n) } } := by
  unfold coalesceExpiry
  rw [if_neg (by rw [hs]; decide)]
  dsimp only
  rw [if_pos (by rw [hh, hi]; rfl)]

theorem contains_filter_ne (l : List Nat) (n : Nat) : (l.filter (· != n)).contains n = false := by
  simp [List.contains_eq_mem]

theorem contains_addNat (n : Nat) (l : List Nat) : (addNat n l).contains n = true := by
  unfold addNat
  split
  · assumption
  · simp

/-- With a message held the end of a spacing sends it, and the vector's next spacing begins. -/
theorem coalesceExpiry_of_held_effect {n : Nat} (o : Otp) (hs : d.sb.spacing.contains n = true)
    (hh : d.sb.held.contains n = true) (hi : d.sb.irqEnable = true) (hc : d.sb.coalesce ≠ 0) :
    (coalesceExpiry n o d).outs = d.outs ++ [.msix n] ∧ (coalesceExpiry n o d).sb.held.contains n = false
      ∧ (coalesceExpiry n o d).sb.spacing.contains n = true := by
  rw [coalesceExpiry_of_held o hs hh hi]
  refine ⟨rfl, contains_filter_ne _ _, ?_⟩
  unfold sendNow
  rw [if_neg hc]
  exact contains_addNat _ _

theorem irqTestFire_of_enabled (o : Otp) (hb : bar2Up d = true) (hv : bit v 0 = true) (hi : d.sb.irqEnable = true)
    (hc : d.sb.coalesce = 0) : irqTestFire v o d = out (.msix 65) d := by
  unfold irqTestFire sendNow
  rw [if_neg (by simp [hb, hv]), if_pos hi, if_pos hc]

theorem bar2Write_irq {off : Nat} (o : Otp) (hb : bar2Up d = true) (ho : off < 0x1000) (ha : off % 4 = 0) :
    bar2Write (0x5000 + off) v o d = irqWrite off v o d := by
  unfold bar2Write
  rw [if_neg (by rw [hb, show (0x5000 + off) % 4 = 0 by omega]; decide), show (0x5000 + off) / 0x1000 = 5 by omega,
    show (0x5000 + off) % 0x1000 = off by omega]
  rfl

end

/-- Settles O10: each register takes the branch of its write, and a write at an offset is the write of its register. That
a mask bit cleared while RESP_VALID is 1 sends the message is the model's choice (log 67). -/
theorem pageAndInterruptRegistersAct : Obligations.PageAndInterruptRegistersAct := by
  unfold Obligations.PageAndInterruptRegistersAct
  refine ⟨⟨?doorbell, ?head, ?headErr, ?lost, ?quiet, ?response, ?offsets⟩, ?disable, ?enable, ?expiry, ?expiryHeld, ?test,
    ?bar2⟩
  case doorbell => exact fun p v s hw hv hb => run_eq_next_put (doorbell_of_free _ hw hv hb)
  case head => exact fun p v s hw h => run_eq_next_put (headWrite_of_taken _ hw h)
  case headErr => exact fun p v s hw h => run_eq_next_put (headWrite_of_refused _ hw h)
  case lost => exact fun p s hw => run_eq_next_put (if_pos hw)
  case quiet => exact fun p v s hw _ hr hs ht => run_eq_next_put (irqMaskWrite_of_quiet _ hw hr hs ht)
  case response =>
    exact fun p s hw hm hr he hs hi hsp hc => run_eq_next_put (irqMaskWrite_of_response _ hw hm hr he hs hi hsp hc)
  case offsets =>
    intro n off v s h1 h64 hw
    have hvf : ∀ off, off < 0x1000 → exec (.registerWrite (.vf n) off v) s = .next (s.put (pageWrite n off v s.otp s.dev)) :=
      fun off ho => run_eq_next_put (hostWriteReg_vf v s.otp s.dev h1 h64 ho)
    refine ⟨?_, ?_, ?_, fun ho hv => ?_, run_eq_next_put (hostWriteReg_pf_tenant v s.otp s.dev h1)⟩
    · rw [hvf 0 (by decide), pageWrite_of_up 0 _ hw rfl]; rfl
    · rw [hvf 0x00C (by decide), pageWrite_of_up 0x00C _ hw rfl]; rfl
    · rw [hvf 0x014 (by decide), pageWrite_of_up 0x014 _ hw rfl]; rfl
    · rw [hvf _ (by omega), pageWrite_request _ hw ho hv]
  case disable => exact fun v s hb hv => run_eq_next_put (irqCtlWrite_of_disable _ hb hv)
  case enable => exact fun v s hb hv hc hs => run_eq_next_put (irqCtlWrite_of_enable _ hb hv hc hs)
  case expiry => exact fun n s hs hh => run_eq_next_put (coalesceExpiry_of_nothing_held _ hs hh)
  case expiryHeld =>
    exact fun n s hs hh hi hc => ⟨_, run_next _ s, coalesceExpiry_of_held_effect s.otp hs hh hi hc⟩
  case test => exact fun v s hb hv hi hc => run_eq_next_put (irqTestFire_of_enabled _ hb hv hi hc)
  case bar2 =>
    exact fun v s hb => ⟨run_eq_next_put (bar2Write_irq (off := 0) s.otp hb (by decide) rfl),
      run_eq_next_put (bar2Write_irq (off := 0x18) s.otp hb (by decide) rfl)⟩

/-! Latched requests that are answered or picked up, and the SMBus transactions. -/

section
variable {d : Dev}

/-- Picking a request up leaves what its latch holds. -/
@[simp] theorem latchWord_pickUp (p q i : Nat) (d : Dev) : latchWord (pickUp q d) p i = latchWord d p i := rfl

theorem pickup_of_known {p : Nat} {c : Cmd} (buf : Bytes) (o : Otp) (hu : d.sb.up = true) (hm : d.sys.mode ≠ .halted)
    (hn : nextRequester d = some p) (hc : cmdOf (fld (latchWord d p 0) 31 16) = some c) :
    pickup buf o d = serve c (latchedReq (pickUp p d) p buf) o (pickUp p d) := by
  unfold pickup
  rw [if_neg (by simp [hu, hm]), hn]
  dsimp only
  rw [latchWord_pickUp, hc]

theorem pickup_of_unknown {p : Nat} (buf : Bytes) (o : Otp) (hu : d.sb.up = true) (hm : d.sys.mode ≠ .halted)
    (hn : nextRequester d = some p) (hc : cmdOf (fld (latchWord d p 0) 31 16) = none) :
    pickup buf o d = serveUnknown (latchedReq (pickUp p d) p buf) (pickUp p d) := by
  unfold pickup
  rw [if_neg (by simp [hu, hm]), hn]
  dsimp only
  rw [latchWord_pickUp, hc]

theorem serveUnknown_of_short {p : Nat} (buf : Bytes) (d : Dev) (hl : (latchWord d p 1).toNat ≤ 14) :
    serveUnknown (latchedReq (pickUp p d) p buf) (pickUp p d) =
      respond p (fld (latchWord d p 0) 15 8) stBadCode [] (pickUp p d) := by
  have hlen : ¬(latchedReq (pickUp p d) p buf).len >
      (if (latchedReq (pickUp p d) p buf).page = 65 then 14 else 254) := by
    have : (latchedReq (pickUp p d) p buf).len = (latchWord d p 1).toNat := rfl
    split <;> omega
  unfold serveUnknown
  rw [if_neg hlen]
  rfl

theorem smbBlockWrite_of_taken (ws : List Word) (o : Otp) (hu : smbUp d = true) (hb : d.sb.smbBusy = false) :
    smbBlockWrite ws true o d =
      { d with sb := { d.sb with smbReq := ws.take 16, smbBusy := true, smbReady := false } } := by
  unfold smbBlockWrite
  rw [if_neg (by simp [hu]), if_neg (by simp [hb])]

theorem smbBlockWrite_of_refused {ok : Bool} (ws : List Word) (o : Otp) (hu : smbUp d = true)
    (h : ok = false ∨ d.sb.smbBusy = true) : smbBlockWrite ws ok o d = out .smbNack d := by
  unfold smbBlockWrite
  rw [if_neg (by simp [hu]), if_pos (by rcases h with h | h <;> simp [h])]

end

/-- Settles O11: the page hardware answers what is latched, the Signal box serves the next requester or answers its unknown
code, and an SMBus transaction takes the branch of its state. The PEC bytes of a read are the model's reading (log 75). -/
theorem latchedAndSmbusRequestsAct : Obligations.LatchedAndSmbusRequestsAct := by
  unfold Obligations.LatchedAndSmbusRequestsAct
  refine ⟨⟨?busy, ?halted, ?known, ?unknown⟩, ?taken, ?refused, ?response, ?status⟩
  case busy => exact fun p s hl hu hm => run_eq_next_put (if_pos (by simp [hl, hu, hm]))
  case halted => exact fun p s hl hm => run_eq_next_put (if_pos (by simp [hl, hm]))
  case known => exact fun p buf c s hu hm hn hc => run_eq_next_put (pickup_of_known buf _ hu hm hn hc)
  case unknown =>
    exact fun p buf s hu hm hn hc hl =>
      run_eq_next_put ((pickup_of_unknown buf _ hu hm hn hc).trans (serveUnknown_of_short buf s.dev hl))
  case taken => exact fun ws s hu hb => run_eq_next_put (smbBlockWrite_of_taken ws _ hu hb)
  case refused => exact fun ws ok s hu h => run_eq_next_put (smbBlockWrite_of_refused ws _ hu h)
  case response => exact fun s hu => run_eq_next_put (if_pos hu)
  case status => exact fun s hu => run_eq_next_put (if_pos hu)

end Sys2Proof.Machine
end

section
/-! Starts, resets, wakes and the loss of power: what t = 0 of a start leaves, what main power and the always-on domain
keep, the start sequence and the mode entry (R88, R89, R93 to R101, R505, R632, R647). -/
namespace Sys2Proof.Machine

/-! t = 0 of a start, and a device without main power or in DORMANT, before ALERT_N follows. -/

/-- The device at t = 0 of a start (R93). -/
def started (cause : Nat) (data : Word) (reason : Nat) (o : Otp) (d : Dev) : Dev :=
  let d := volatileLoss o d
  { d with
    sys := { d.sys with
      phase := .starting, mode := .staging, cause := cause, startCause := cause, startData := data
      rtcAtStart := d.sys.rtc, haltCause := if mustLock o d then d.sys.haltCause else 0 }
    sb := { d.sb with restartReason := reason }
    pwr := { d.pwr with strap := d.pwr.strapNow } }

theorem beginStart_eq (cause : Nat) (data : Word) (reason : Nat) (o : Otp) (d : Dev) :
    ∃ b x, beginStart cause data reason o d = { started cause data reason o d with
      pwr := { (started cause data reason o d).pwr with alert := b }, outs := x } :=
  driveAlert_eq (started cause data reason o d)

/-- The device at rest (R99, R101). -/
def rested (ph : Phase) (o : Otp) (d : Dev) : Dev :=
  { volatileLoss o d with sys := { (volatileLoss o d).sys with phase := ph, mode := .dormant } }

theorem rest_eq (ph : Phase) (o : Otp) (d : Dev) :
    ∃ b x, rest ph o d = { rested ph o d with pwr := { (rested ph o d).pwr with alert := b }, outs := x } :=
  driveAlert_eq (rested ph o d)

theorem beginStart_phase (cause : Nat) (data : Word) (reason : Nat) (o : Otp) (d : Dev) :
    (beginStart cause data reason o d).sys.phase = .starting := by
  obtain ⟨b, x, h⟩ := beginStart_eq cause data reason o d
  rw [h]
  rfl

/-- A start takes the window bytes with it. -/
theorem runStart_of_begins {f : Otp → Dev → Dev} {s : State} {cause reason : Nat} {data : Word} {d : Dev}
    (h : f s.otp s.dev = beginStart cause data reason s.otp d) :
    runStart f s = .next { s with dev := beginStart cause data reason s.otp d, ram := [] } := by
  unfold runStart
  rw [runAll_next]
  dsimp only
  rw [h, if_neg (by rw [beginStart_phase]; decide)]

/-! Resets and wakes. -/

section
variable {o : Otp} {d : Dev}

/-- A wake source that is enabled begins a start in DORMANT (R101). -/
theorem wake_of_dormant {enabled : Bool} (cause : Nat) (data : Word) (he : enabled = true) (hp : d.sys.phase = .dormant)
    (ha : d.sys.aoGood = true) : wake enabled cause data o d = beginStart cause data 2 o d := by
  unfold wake
  rw [if_neg (by simp [he, ha]), hp]

/-- Without main power the RTC counts on to a later value. -/
theorem rtcAt_of_later {v : Word} (hp : d.sys.phase = .dormant ∨ d.sys.phase = .off) (hv : d.sys.rtc ≤ v) :
    rtcAt v d = { d with sys := { d.sys with rtc := v } } := by
  unfold rtcAt
  rw [if_pos (by rcases hp with hp | hp <;> simp [hp]), if_pos hv]

theorem wakePin_of_dormant {v : Word} (hp : d.sys.phase = .dormant) (ha : d.sys.aoGood = true) (hv : d.sys.rtc ≤ v)
    (he : d.sys.wakePin = true) :
    wakePin v o d = beginStart 0x05 0 2 o { d with sys := { d.sys with rtc := v } } := by
  unfold wakePin
  rw [rtcAt_of_later (.inl hp) hv]
  exact wake_of_dormant _ _ he hp ha

theorem wakeSmb_of_dormant {v : Word} (hp : d.sys.phase = .dormant) (ha : d.sys.aoGood = true) (hv : d.sys.rtc ≤ v)
    (he : d.sys.wakeSmb = true) :
    wakeSmb v o d = beginStart 0x06 0 2 o { out .smbNack d with sys := { d.sys with rtc := v } } := by
  unfold wakeSmb
  rw [rtcAt_of_later (.inl hp) hv]
  dsimp only
  rw [if_pos (by simp [hp, ha])]
  exact wake_of_dormant _ _ he hp ha

theorem wakeAlarm_of_dormant (hp : d.sys.phase = .dormant) (ha : d.sys.aoGood = true) (he : d.sys.wakeRtc = true)
    (hv : d.sys.rtc ≤ d.sys.rtcAlarm) :
    wakeAlarm o d = beginStart 0x07 d.sys.rtcAlarm 2 o { d with sys := { d.sys with rtc := d.sys.rtcAlarm } } := by
  unfold wakeAlarm
  rw [if_pos (by simp [he, hp]), rtcAt_of_later (.inl hp) hv]
  exact wake_of_dormant _ _ rfl hp ha

theorem mainReturn_of_off {v : Word} (hp : d.sys.phase = .off) (ha : d.sys.aoGood = true) (hv : d.sys.rtc ≤ v) :
    mainReturn v o d = beginStart 0x03 0 1 o { d with sys := { d.sys with mainGood := true, rtc := v } } := by
  unfold mainReturn
  rw [if_pos (by simp [hp, ha]), rtcAt_of_later (.inr hp) hv]

/-- The device as the always-on domain comes up without main power. -/
def aoUp (d : Dev) : Dev :=
  { d with
    sys := { d.sys with aoGood := true, rtc := 0, rtcMs := 0, mainGood := true }
    tamp := { d.tamp with provisional := true }
    pwr := { d.pwr with strap := d.pwr.strapNow } }

theorem aoColdStart_of_off (hp : d.sys.phase = .off) (ha : d.sys.aoGood = false) :
    aoColdStart o d = beginStart 0x02 0 1 o (aoUp d) := by
  unfold aoColdStart
  rw [if_neg (by simp [ha])]
  exact if_pos hp

/-! Losses of power, DORMANT. -/

/-- The device as the loss of the always-on domain leaves it before ALERT_N follows (R98). -/
def aoGone (d : Dev) : Dev :=
  { d with
    sys := { d.sys with
      aoGood := false, rtc := 0, rtcMs := 0, haltCause := 0, wakePin := false, wakeSmb := false, wakeRtc := false
      rtcAlarm := 0 }
    ks := { d.ks with kv := [], sealV := [], jPrep := false, jSlot := 0, jCtr := 0, jDigest := [] }
    grn := { d.grn with halt := none }
    tamp := { d.tamp with
      sticky := 0, set := 0, log := [], seq := 0, lastRtc := 0, erased := false, lock := false, minOnly := false, active := 0
      fired := 0, decisions := [], nonce := none, later := [] } }

theorem aoLoss_of_awake (hp : d.sys.phase ≠ .dormant) :
    ∃ b x, aoLoss o d = { aoGone d with pwr := { d.pwr with alert := b }, outs := x } := by
  obtain ⟨b, x, h⟩ := driveAlert_eq (aoGone d)
  refine ⟨b, x, ?_⟩
  show (if (driveAlert (aoGone d)).sys.phase = .dormant then rest .off o (driveAlert (aoGone d)) else driveAlert (aoGone d)) = _
  rw [h]
  exact if_neg hp

theorem sealCommit_of_unprepared (h : d.ks.prepared = none) : sealCommit o d = (o, d) := by
  unfold sealCommit
  rw [h]

theorem dormantReached_of_quiet (hp : d.sys.phase = .sleeping) (hk : d.ks.prepared = none)
    (hl : d.sys.wakeLatch = none) (hw : d.sys.wakeRtc = false) : dormantReached o d = (o, rest .dormant o d) := by
  obtain ⟨b, x, hr⟩ := rest_eq .dormant o d
  have hw' : (rest .dormant o d).sys.wakeRtc = false := by
    rw [hr]
    exact hw
  unfold dormantReached
  rw [if_neg (by simp [hp]), sealCommit_of_unprepared hk]
  dsimp only
  rw [hl]
  dsimp only
  rw [if_neg (by rw [hw']; simp)]

/-! Window resets (R98). -/

theorem windowReset_only (p : Nat) (d : Dev) : OnlySb d (windowReset p d) := rfl

theorem pageOf_windowReset_same (p : Nat) (d : Dev) :
    pageOf (windowReset p d) p = { Page.init with expert := (pageOf d p).expert } := pageOf_setPage_same _ _ _

theorem pageOf_windowReset_other {p q : Nat} (h : q ≠ p) (d : Dev) : pageOf (windowReset p d) q = pageOf d q :=
  pageOf_setPage_other _ _ h _ _

theorem foldl_windowReset_only (ps : List Nat) (d : Dev) : OnlySb d (ps.foldl (fun d p => windowReset p d) d) := by
  induction ps generalizing d with
  | nil => exact .refl d
  | cons p t ih => exact (windowReset_only p d).trans (ih _)

/-- A window reset leaves every page's grant. -/
theorem windowReset_expert (p q : Nat) (d : Dev) : (pageOf (windowReset p d) q).expert = (pageOf d q).expert := by
  by_cases h : q = p
  · subst h
    rw [pageOf_windowReset_same]
  · rw [pageOf_windowReset_other h]

theorem pageOf_foldl_windowReset (ps : List Nat) (q : Nat) (d : Dev) :
    pageOf (ps.foldl (fun d p => windowReset p d) d) q =
      if q ∈ ps then { Page.init with expert := (pageOf d q).expert } else pageOf d q := by
  induction ps generalizing d with
  | nil => rfl
  | cons p t ih =>
    rw [List.foldl_cons, ih, windowReset_expert]
    by_cases ht : q ∈ t
    · rw [if_pos ht, if_pos (List.mem_cons_of_mem _ ht)]
    · rw [if_neg ht]
      by_cases hp : q = p
      · subst hp
        rw [pageOf_windowReset_same, if_pos List.mem_cons_self]
      · rw [pageOf_windowReset_other hp, if_neg (by simp [hp, ht])]

/-- The low level of PERST_N takes the link down, a hot reset of a link that is up leaves it: nothing else of the device
but a free value. -/
theorem perstLow_cases (d : Dev) :
    (∃ n, perstLow d = { d with sys := { d.sys with perst := false, linkUp := false }, free := n })
      ∨ d.sys.linkUp = true ∧ ∃ n, perstLow d = { d with free := n } := by
  unfold perstLow
  split
  · next hl =>
    dsimp only
    split
    · exact .inl ⟨_, rfl⟩
    · exact .inr ⟨hl, _, rfl⟩
  · dsimp only
    exact .inl ⟨d.free, if_pos rfl⟩

end

/-- The IRQ_, PCF_ and DMA_ registers at their reset values (R98). -/
def registersReset (d : Dev) : Dev :=
  { d with
    sb := { d.sb with irqEnable := false, coalesce := 0, hwMask := 0x1F#5, held := [], spacing := [] }
    tel := { d.tel with
      snapEn := false, snapNow := false, gleanEn := Tel.init.gleanEn, gleanK := Tel.init.gleanK, snapN := Tel.init.snapN
      sect := Tel.init.sect, event := 0, irqEn := 0, ringLo := 0, ringHi := 0, ringSize := Tel.init.ringSize
      ringWr := 0, ringRd := 0, lostSnaps := 0, lostRecords := 0, seq := 0, ticks := 0, writing := none, due := false
      lostS7 := if d.tel.writing.isSome then satInc 16 d.tel.lostS7 else d.tel.lostS7, dma := []
      dmaEvent := 0, dmaIrqEn := 0 } }

theorem hotReset_eq (o : Otp) (d : Dev) :
    hotReset o d = registersReset ((List.range 65).foldl (fun d p => windowReset p d) (perstLow d)) := rfl

theorem pageOf_registersReset (p : Nat) (d : Dev) : pageOf (registersReset d) p = pageOf d p := rfl

theorem pageOf_hotReset {p : Nat} (hp : p ≤ 64) (o : Otp) (d : Dev) :
    pageOf (hotReset o d) p = { Page.init with expert := (pageOf (perstLow d) p).expert } := by
  rw [hotReset_eq, pageOf_registersReset, pageOf_foldl_windowReset, if_pos (List.mem_range.mpr (by omega))]

/-- A hot reset leaves everything but the Signal box's part, telemetry and what the link's level decides. -/
theorem hotReset_frame (o : Otp) (d : Dev) : ∃ sb outs, hotReset o d =
    registersReset { perstLow d with sb := sb, outs := outs } := by
  rw [hotReset_eq, foldl_windowReset_only (List.range 65) (perstLow d)]
  exact ⟨_, _, rfl⟩

/-- Settles O16: a start from each cause begins on the device with its RTC counted on; the losses of power and DORMANT
leave what their domains keep; PERST_N, hot reset and function-level reset put the windows at their reset values. Whether
the row on a link that is up is PERST_N or a hot reset is free (log 78). -/
theorem powerAndResetHappeningsAct : Obligations.PowerAndResetHappeningsAct := by
  unfold Obligations.PowerAndResetHappeningsAct
  refine ⟨⟨?rst, ?sysReset, ?pin, ?smb, ?alarm, ?mainReturn, ?cold⟩, ⟨?mainLoss, ?aoLoss, ?dormant⟩, ?perst, ?flr, ?hot⟩
  case rst => exact fun s hm ha => runStart_of_begins (if_pos (by simp [hm, ha]))
  case sysReset =>
    intro p s hr hm
    refine runStart_of_begins (?_ : resetTrigger s.otp s.dev = _)
    unfold resetTrigger
    rw [hr]
    exact if_neg hm
  case pin => exact fun v s hp ha hv he => runStart_of_begins (wakePin_of_dormant hp ha hv he)
  case smb => exact fun v s hp ha hv he => runStart_of_begins (wakeSmb_of_dormant hp ha hv he)
  case alarm => exact fun s hp ha he hv => runStart_of_begins (wakeAlarm_of_dormant hp ha he hv)
  case mainReturn => exact fun v s hp ha hv => runStart_of_begins (mainReturn_of_off hp ha hv)
  case cold =>
    intro s hp ha
    refine ⟨_, runStart_of_begins (f := aoColdStart) (aoColdStart_of_off hp ha), ?_⟩
    obtain ⟨b, x, h⟩ := beginStart_eq 0x02 0 1 s.otp (aoUp s.dev)
    rw [h]
    exact ⟨rfl, rfl, rfl, rfl, rfl, rfl, rfl⟩
  case mainLoss =>
    intro s
    refine ⟨_, runFresh_next mainLoss s, ?_⟩
    obtain ⟨b, x, h⟩ := rest_eq .off s.otp { s.dev with sys := { s.dev.sys with mainGood := false } }
    rw [show mainLoss s.otp s.dev = _ from h]
    exact ⟨rfl, rfl, rfl, rfl, rfl, rfl, rfl, rfl, rfl, rfl, rfl, rfl, rfl⟩
  case aoLoss =>
    intro s hp
    refine ⟨_, run_next aoLoss s, ?_⟩
    obtain ⟨b, x, h⟩ := aoLoss_of_awake (o := s.otp) hp
    rw [upd_dev, h]
    exact ⟨rfl, rfl, rfl, rfl, rfl, rfl, rfl, rfl, rfl, rfl, rfl, rfl⟩
  case dormant =>
    intro s hp hk hl hw
    have hd := dormantReached_of_quiet (o := s.otp) hp hk hl hw
    obtain ⟨b, x, hr⟩ := rest_eq .dormant s.otp s.dev
    refine ⟨{ s with dev := rest .dormant s.otp s.dev, ram := [] }, ?_, ?_⟩
    · show execDormantReached s = _
      unfold execDormantReached
      rw [runAll_next]
      dsimp only
      rw [hd, if_pos (by simp [hp])]
    · dsimp only
      rw [hr]
      exact ⟨rfl, rfl, rfl, rfl, rfl, rfl, rfl, rfl⟩
  case perst =>
    intro s hp
    refine run_eq_next_put (f := perstRelease) ?_
    unfold perstRelease
    rw [hp]
    simp
  case flr => exact fun n s hl h1 h64 => run_eq_next_put (f := vfFlr n) (if_pos (by simp [hl, h1, h64]))
  case hot =>
    intro s
    have hpage : ∀ p, p ≤ 64 → pageOf (hotReset s.otp s.dev) p = { Page.init with expert := (pageOf s.dev p).expert } := by
      intro p hp
      rw [pageOf_hotReset hp]
      rcases perstLow_cases s.dev with ⟨n, hl⟩ | ⟨_, n, hl⟩ <;> rw [hl] <;> rfl
    obtain ⟨sb, outs, hr⟩ := hotReset_frame s.otp s.dev
    refine ⟨_, run_next hotReset s, hpage, ?_⟩
    rw [upd_dev, hr]
    rcases perstLow_cases s.dev with ⟨n, hl⟩ | ⟨hu, n, hl⟩
    · rw [hl]
      exact ⟨rfl, rfl, rfl, rfl, rfl, .inl rfl, rfl, rfl, rfl, rfl, rfl, rfl⟩
    · rw [hl]
      exact ⟨rfl, rfl, rfl, rfl, rfl, .inr ⟨hu, rfl⟩, rfl, rfl, rfl, rfl, rfl, rfl⟩

/-! The mode entry. -/

theorem recoveryEvents_of_nothing {o : Otp} {d : Dev} (h : d.ks.recovery = []) : recoveryEvents o d = d := by
  unfold recoveryEvents
  rw [h, List.foldl_nil, ← h]

/-- With nothing to report the mode entry reports nothing. -/
theorem entryReports_of_nothing {o : Otp} {d : Dev} (h1 : d.sl.startFail = none) (h2 : d.sl.failedAtStart = [])
    (h3 : d.tamp.later = []) (h4 : d.grn.retiredAtStart = []) (h5 : d.fw.report = none) (h6 : d.ks.recovery = []) :
    entryReports o d = d := by
  have e3 : { d with tamp := { d.tamp with later := [] } } = d := by rw [← h3]
  have e4 : { d with grn := { d.grn with retiredAtStart := [] } } = d := by rw [← h4]
  have e2 : { d with sl := { d.sl with failedAtStart := [], startFail := none } } = d := by rw [← h1, ← h2]
  simp only [entryReports, h1, recoveryEvents_of_nothing h6, h3, e3, List.foldl_nil, h4, e4, h5, h2, e2, List.filter_nil,
    List.append_nil]

/-- The device in its new mode, with the Signal box up and its two events written, before ALERT_N follows (R95). -/
def entered (us : Word) (d : Dev) : Dev :=
  let m := if d.sys.startLocked then Mode.locked else Mode.staging
  let e := setSbUp true { d with
    sys := { d.sys with phase := .up, mode := m, ticks := 0, sub := 0, startUs := us }
    tamp := { d.tamp with decisions := decisionsLeft d } }
  let e := emitAll evtSbRestarted (wd e.sb.restartReason) e.fw.runVersion e
  emitAll 0x01A0 (wd (e.sys.cause * 2 ^ 24 + m.code)) (if d.sys.cause = 0x21 then 0x20 else d.sys.startData) e

theorem modeEntry_of_ready {us : Word} {o : Otp} {d : Dev} (hp : d.sys.phase = .starting) (hr : d.sys.startRun = true)
    (hm : d.sys.mode ≠ .halted) (ht : entryTimeOk d us.toNat = true) :
    modeEntry us o d = entryReports o (driveAlert (entered us d)) := by
  unfold modeEntry entered
  rw [if_neg (by simp [hp, hr, startGoes, hm, ht])]

theorem entered_up (us : Word) (d : Dev) : (entered us d).sb.up = true := by
  unfold entered
  dsimp only
  rw [emitAll_up, emitAll_up, setSbUp_up]

/-- Beside the mode and its times a mode entry touches the Signal box's part and the due instants of second decisions. -/
theorem entered_frame (us : Word) (d : Dev) : ∃ sb outs, entered us d = { d with
    sys := { d.sys with
      phase := .up, mode := if d.sys.startLocked then .locked else .staging, ticks := 0, sub := 0, startUs := us }
    tamp := { d.tamp with decisions := decisionsLeft d }, sb := sb, outs := outs } := by
  unfold entered
  dsimp only
  rw [emitAll_only, emitAll_only, setSbUp_only]
  exact ⟨_, _, rfl⟩

/-- Settles O17: t = 0 keeps flash, the always-on domain and OTP; the start sequence ends with its link and moves OTP
forward; a mode entry with nothing to report is the change of mode alone. -/
theorem startLosesVolatileStateOnly : Obligations.StartLosesVolatileStateOnly := by
  unfold Obligations.StartLosesVolatileStateOnly
  refine ⟨?begins, ?sequence, ?entry⟩
  case begins =>
    intro cause reason w o d
    obtain ⟨b, x, h⟩ := beginStart_eq cause w reason o d
    dsimp only
    rw [h]
    exact ⟨rfl, rfl, rfl, rfl, rfl, rfl, rfl, rfl, fun _ => rfl, rfl, rfl, rfl, rfl, rfl, rfl, rfl, rfl, rfl, rfl, rfl, rfl,
      rfl, rfl, rfl, rfl, rfl, rfl, rfl, rfl⟩
  case sequence =>
    intro x s hp hr
    refine ⟨_, runOtp_next (startSequence x) s, ?_, rfl, startSequence_forward x s.otp s.dev⟩
    unfold startSequence
    rw [if_neg (by simp [hp, hr])]
  case entry =>
    intro us s hp hr hm ht hu h1 h2 h3 h4 h5 h6
    have hup := entered_up us s.dev
    obtain ⟨sb, outs, he⟩ := entered_frame us s.dev
    obtain ⟨b, x, hd⟩ := driveAlert_eq (entered us s.dev)
    rw [he] at hup hd
    have hq := modeEntry_of_ready (o := s.otp) hp hr hm ht
    rw [he, hd, entryReports_of_nothing (by exact h1) (by exact h2) (by exact h3) (by exact h4) (by exact h5)
      (by exact h6)] at hq
    refine ⟨_, run_next (modeEntry us) s, ?_⟩
    rw [upd_dev, hq]
    exact ⟨rfl, rfl, hup, rfl, rfl, rfl, rfl, rfl⟩

/-- Settles O3: the device right after reset is at the start values of its parts. MODE at t = 0 of a first start, and
BLANK as its life cycle, are the model's choice (log 4). -/
theorem resetLeavesStatedValues : Obligations.ResetLeavesStatedValues := by
  unfold Obligations.ResetLeavesStatedValues
  have hpage : ∀ p, pageOf State.reset.dev p = Page.init := fun _ => rfl
  refine ⟨rfl, rfl, fun _ => rfl, hpage, rfl, by decide, fun p _ => ?_, rfl, rfl, rfl, rfl, rfl, rfl⟩
  unfold stateWord
  rw [hpage]
  rfl

end Sys2Proof.Machine
end

section
/-! The system and mode commands, the return of the Signal box and recalibration (R73 to R76, R88, R101, R103 to R113). -/
namespace Sys2Proof.Machine

/-! What a mode command does to the device that picked it up. -/

theorem setMode_of_staging {page : Nat} {o : Otp} {d : Dev} (h : d.sys.mode = .staging) :
    setMode 2 page o d = changeMode (if anyMaint d then .service else .secure) 0x01 0 (wd page) d := by
  unfold setMode
  rw [h]
  rfl

theorem setMode_of_secure {page : Nat} {o : Otp} {d : Dev} (h : d.sys.mode = .secure) :
    setMode 1 page o d = leaveTraffic true o (changeMode .staging 0x01 0 (wd page) d) := by
  unfold setMode
  rw [h]
  rfl

/-- After its answer SYS_SLEEP stops the Signal box on the way into DORMANT, and nothing else moves (R101, R106). -/
theorem enterSleep_eq (d : Dev) : ∃ sb outs, enterSleep stOk d = { d with
    sys := { d.sys with phase := .sleeping, sleepTicks := 0 }, sb := sb, outs := outs } ∧ sb.up = false := by
  have hup := setSbUp_up false { d with sys := { d.sys with phase := .sleeping, sleepTicks := 0 } }
  refine ⟨(enterSleep stOk d).sb, (enterSleep stOk d).outs, ?_, hup⟩
  exact setSbUp_only false { d with sys := { d.sys with phase := .sleeping, sleepTicks := 0 } }

/-- A command that ends while the Signal box is down sends nothing (R75). -/
theorem finish_outs_of_down {d : Dev} (h : d.sb.up = false) (p tag code st : Nat) (w3 : Word) :
    (finish p tag code st w3 d).outs = d.outs := by
  unfold finish
  dsimp only
  split
  · rw [if_neg (by simp [h])]
    rfl
  · rfl

/-- The device with a life-cycle write done: its keys where it retires, and the command's end (R109). -/
def lifeEnded (l : Life) (p tag : Nat) (d : Dev) : Dev :=
  let d := { d with sys := { d.sys with lifePending := none } }
  finish p tag 0x0125 stOk 0 (if l = .retired then retireKeys d else d)

theorem lifeWritten_of_pending {l : Life} {p tag : Nat} {o : Otp} {d : Dev} (h : d.sys.lifePending = some (l, p, tag))
    (hp : d.sys.phase = .up) (hm : d.sys.mode ≠ .halted) : lifeWritten o d =
      ({ o with life := lifeForward o.life l },
        if (lifeEnded l p tag d).sb.up then lifeEvent o.life l (lifeEnded l p tag d)
        else { lifeEnded l p tag d with sys := { (lifeEnded l p tag d).sys with lifeHeld := some (o.life, l) } }) := by
  unfold lifeWritten
  rw [h]
  dsimp only
  rw [if_neg (by simp [hp, hm])]
  rfl

theorem lifeForward_of_later {a b : Life} (h : a.code < b.code) : lifeForward a b = b := if_pos h

/-- The end of a life-cycle write touches the life cycle's own record, the key store and the Signal box's part. -/
theorem lifeEnded_eq (l : Life) (p tag : Nat) (d : Dev) : ∃ sb outs, lifeEnded l p tag d = { d with
    sys := { d.sys with lifePending := none }
    ks := if l = .retired then (retireKeys d).ks else d.ks, sb := sb, outs := outs } := by
  unfold lifeEnded
  dsimp only
  rw [finish_only]
  by_cases h : l = .retired
  · rw [if_pos h, if_pos h]
    exact ⟨_, _, rfl⟩
  · rw [if_neg h, if_neg h]
    exact ⟨_, _, rfl⟩

theorem lifeEnded_up (l : Life) (p tag : Nat) (d : Dev) : (lifeEnded l p tag d).sb.up = d.sb.up := by
  unfold lifeEnded
  dsimp only
  rw [finish_up]
  split <;> rfl

theorem lifeEnded_outs_of_down {d : Dev} (h : d.sb.up = false) (l : Life) (p tag : Nat) :
    (lifeEnded l p tag d).outs = d.outs := by
  unfold lifeEnded
  dsimp only
  rw [finish_outs_of_down (by split <;> exact h)]
  split <;> rfl

/-- RETIRED keeps no vault key and no persistent slot from 2 on (R92, R511). -/
theorem retireKeys_erased (d : Dev) : (retireKeys d).ks.kv = [] ∧ (retireKeys d).ks.sealV = []
    ∧ ∀ x ∈ (retireKeys d).ks.flash, x.1 < 2 :=
  ⟨rfl, rfl, fun _ hx => of_decide_eq_true (List.mem_filter.mp hx).2⟩

/-- What the write of a later life cycle state leaves, keys and the Signal box's registers aside. -/
theorem lifeWritten_effect {l : Life} {p tag : Nat} {o : Otp} {d : Dev} (h : d.sys.lifePending = some (l, p, tag))
    (hp : d.sys.phase = .up) (hm : d.sys.mode ≠ .halted) : let e := (lifeWritten o d).2
      e.sys.lifePending = none ∧ e.sys.mode = d.sys.mode ∧ e.kc = d.kc
        ∧ e.ks = (if l = .retired then (retireKeys d).ks else d.ks)
        ∧ (d.sb.up = false → e.sys.lifeHeld = some (o.life, l) ∧ e.outs = d.outs) := by
  obtain ⟨sb, outs, he⟩ := lifeEnded_eq l p tag d
  rw [lifeWritten_of_pending h hp hm, lifeEnded_up]
  dsimp only
  by_cases hu : d.sb.up = true
  · rw [if_pos hu]
    unfold lifeEvent
    rw [emitAll_only, he]
    exact ⟨rfl, rfl, rfl, rfl, fun hd => by rw [hu] at hd; cases hd⟩
  · rw [if_neg hu]
    refine ⟨?_, ?_, ?_, ?_, fun hd => ⟨rfl, lifeEnded_outs_of_down hd l p tag⟩⟩
    all_goals rw [he]

/-- Settles O14: each command has its effect on the device that picked it up; SYS_SLEEP ends with the stop of the Signal
box, and the OTP write of SYS_ADVANCE_LIFE with its event or with the record that holds it. What SYS_CLEAR_CONFIG keeps
(log 73) and the mode in which a life-cycle write leaves the device (log 72) are the model's choices. -/
theorem systemCommandsAct : Obligations.SystemCommandsAct := by
  unfold Obligations.SystemCommandsAct
  refine ⟨⟨?state, ?toTraffic, ?toStaging, ?mode, ?reset⟩, ?sleep, ⟨?clear, ?cleared⟩, ?life, ?written⟩
  case state => exact answers_intro (fun _ _ => rfl) (fun _ _ _ => rfl) (fun _ _ _ => rfl)
  case toTraffic =>
    intro r s h hm h2
    refine served_at rfl h rfl ?_ (by decide) (fun _ => rfl)
    show (setMode (rw r 0).toNat r.page s.otp _, stOk, []) = _
    rw [h2]
    exact congrArg (·, stOk, []) (setMode_of_staging (by simpa using hm))
  case toStaging =>
    intro r s h hm h1
    refine served_at rfl h rfl ?_ (by decide) (fun _ => rfl)
    show (setMode (rw r 0).toNat r.page s.otp _, stOk, []) = _
    rw [h1]
    exact congrArg (·, stOk, []) (setMode_of_secure (by simpa using hm))
  case mode =>
    intro m cause detail w d
    obtain ⟨b, x, outs, h⟩ := changeMode_eq m cause detail w d
    dsimp only
    rw [h]
    exact ⟨rfl, rfl, rfl, rfl, rfl, rfl, rfl, rfl, rfl, rfl⟩
  case reset =>
    intro r s h hp
    refine served_at rfl h rfl ?_ (by decide) (fun _ => rfl)
    have hn : (submitted cmdSysReset.code r s.dev).sys.resetPending = none := by simpa using hp
    unfold cmdSysReset at hn ⊢
    dsimp only at hn ⊢
    rw [hn]
    rfl
  case sleep =>
    intro r s h
    refine ⟨_, passes_answered h rfl (by decide), ?_⟩
    generalize hd : respond _ _ _ _ _ = d
    obtain ⟨sb, outs, he, hup⟩ := enterSleep_eq d
    rw [show cmdSysSleep.after s.otp r stOk d = _ from he, ← hd, respond_only, submitted_only]
    exact ⟨rfl, hup, rfl, rfl, rfl, rfl, fun hw => if_pos hw, rfl, rfl, rfl, rfl, rfl⟩
  case clear => exact sets_intro (fun _ _ => rfl) (fun _ _ _ => rfl) (fun _ _ _ => rfl)
  case cleared =>
    exact fun d => ⟨rfl, rfl, rfl, rfl, rfl, rfl, rfl, rfl, rfl, rfl, rfl, rfl, rfl, rfl, rfl, rfl, rfl, rfl, rfl, rfl, rfl⟩
  case life => exact starts_intro (fun _ _ => rfl) (fun _ _ _ => rfl) (fun _ _ _ => rfl)
  case written =>
    intro l p tag s h hp hm hl
    obtain ⟨hpend, hmode, hkc, hks, hdown⟩ := lifeWritten_effect (o := s.otp) h hp hm
    refine ⟨_, runOtp_next lifeWritten s, ?_, hpend, hmode, hkc, rfl, fun hr => ?_, fun hr => ?_, hdown⟩
    · dsimp only
      rw [lifeWritten_of_pending h hp hm, lifeForward_of_later hl]
    · rw [hks, if_pos hr]
      exact retireKeys_erased s.dev
    · rw [hks, if_neg hr]

/-! The return of the Signal box, and recalibration through its phases. -/

section
variable {o : Otp} {d : Dev} {x : Recal}

theorem sbComesUp_of_down (hp : d.sys.phase = .up) (hm : d.sys.mode ≠ .halted) (hu : d.sb.up = false) :
    sbComesUp o d = kaAgain o (lifeHeldEvent ((List.range 65).foldl (fun d p => carriedDone p d)
      (emitAll evtSbRestarted (wd (setSbUp true d).sb.restartReason) (setSbUp true d).fw.runVersion (setSbUp true d)))) :=
  if_neg (by simp [hp, hm, hu])

theorem raise_restartReason (v : Nat) (d : Dev) : (raise v d).sb.restartReason = d.sb.restartReason := by
  unfold raise
  split <;> rfl

/-- SB_UP moves with the pages and their messages; the reason of the last stop stays. -/
theorem setSbUp_restartReason (u : Bool) (d : Dev) : (setSbUp u d).sb.restartReason = d.sb.restartReason := by
  unfold setSbUp
  split
  · rfl
  · refine List.foldlRecOn (motive := fun (e : Dev) => e.sb.restartReason = d.sb.restartReason) _ _ rfl ?_
    intro e he p _
    dsimp only
    split
    · exact he
    · rw [raise_restartReason]
      exact he

/-- The device after the test of slice n, with the recalibration's record of it (R111). -/
def testRecorded (n : Nat) (runs : List (Bool × Bool)) (x : Recal) (o : Otp) (d : Dev) : Dev :=
  let pass := katFail o runs == 0
  testEnded n pass o (setRecal { x with slice := none, failed := if pass then x.failed else x.failed + 1 } d)

theorem recalTested_of_slice {n : Nat} (runs : List (Bool × Bool)) (hr : d.sys.recal = some x) (hs : x.slice = some n) :
    recalTested runs o d = if x.stopping then recalEnd stLocked (testRecorded n runs x o d)
      else recalNext (n + 1) o (bulkAssign o (testRecorded n runs x o d)) := by
  unfold recalTested
  rw [hr]
  dsimp only
  rw [hs]
  rfl

/-- Without delays to set, the end of the droop phase is the end of the command. -/
theorem recalDroopEnd_of_last (hr : d.sys.recal = some x) (hd : x.droop = true) (ht : 100 ≤ x.droopTicks)
    (hl : x.delays = false) : recalDroopEnd o d =
      maintEnd 3 (finish x.page x.tag 0x0127 stOk (wd (x.skipped * 2 ^ 16 + x.failed * 2 ^ 8 + x.returned))
        { d with sys := { d.sys with recal := none } }) := by
  unfold recalDroopEnd
  rw [hr]
  dsimp only
  rw [if_pos (by simp [hd, ht])]
  show recalEnd stOk (if x.delays then _ else _) = _
  rw [hl]
  rfl

end

/-- Settles O15: the Signal box comes back with its event and the completions it carried; a recalibration is accepted as
activity 3, goes on or stops after a slice test, and ends after its droop phase. -/
theorem managementRestartAndRecalibration : Obligations.ManagementRestartAndRecalibration := by
  unfold Obligations.ManagementRestartAndRecalibration
  refine ⟨⟨?restart, ?back⟩, ?begins, ?tested, ?droop⟩
  case restart => exact fun r s h => passes_accepted h rfl
  case back =>
    intro s hp hm hu
    refine run_eq_next_put ((sbComesUp_of_down hp hm hu).trans ?_)
    rw [setSbUp_restartReason, setSbUp_fw]
    rfl
  case begins => exact fun r s h => passes_accepted h rfl
  case tested =>
    intro n runs x s hr hs
    have ht := recalTested_of_slice (o := s.otp) runs hr hs
    exact ⟨fun hx => run_eq_next_put (ht.trans (if_neg (by simp [hx]))),
      fun hx => run_eq_next_put (ht.trans (if_pos hx))⟩
  case droop => exact fun x s hr hd ht hl => run_eq_next_put (recalDroopEnd_of_last hr hd ht hl)

end Sys2Proof.Machine
end

section
/-! Frames from a client port, and the next PN of an SA (R124, R131, R133, R134). -/
namespace Sys2Proof.Machine

/-! Changing a row of a table. -/

theorem tget_tmod_same {α : Type} {t : Table α} {k : Nat} {a : α} (f : α → α) (h : tget t k = some a) :
    tget (tmod t k f) k = some (f a) := by
  unfold tmod
  rw [h]
  exact tget_tset_same _ _ _

theorem tget_tmod_other {α : Type} (t : Table α) {k j : Nat} (f : α → α) (h : j ≠ k) :
    tget (tmod t k f) j = tget t j := by
  unfold tmod
  split
  · exact tget_tset_other _ h _
  · rfl

/-! The next PN (R133, R134). -/

theorem saOf_bumpSa_same {a i n : Nat} {d : Dev} {x : SaRec} (h : saOf d a = some x) :
    saOf (bumpSa a i n d) a = some { x with ctr := bumpAt x.ctr i n } := tget_tmod_same _ h

theorem saOf_bumpSa_other {a b i n : Nat} (h : b ≠ a) (d : Dev) : saOf (bumpSa a i n d) b = saOf d b :=
  tget_tmod_other _ _ h

/-- A frame at or above the lowest acceptable PN moves the next PN past its own. -/
theorem acceptPn_of_acceptable {f : Flight} {x : SaRec} {y : Secy} {d : Dev} (hx : saOf d f.sa = some x)
    (hy : tget d.fm.secys f.secy = some y) (h : lowestPn y x ≤ f.pn) :
    acceptPn f d = bumpSa f.sa 0 1 (bumpSc f.sc 0 1 (setSa f.sa { x with pn := max x.pn (f.pn + 1) }
      (bumpSecy f.secy (if f.conf then 12 else 11) (f.inp.length - 16 - 12 - tagLen f.inp) d))) := by
  unfold acceptPn
  rw [hx, hy]
  dsimp only
  rw [if_neg (by rw [Bool.and_eq_true, decide_eq_true_eq]; omega)]

theorem saOf_acceptPn_same {f : Flight} {x : SaRec} {y : Secy} {d : Dev} (hx : saOf d f.sa = some x)
    (hy : tget d.fm.secys f.secy = some y) (h : lowestPn y x ≤ f.pn) :
    saOf (acceptPn f d) f.sa = some { x with pn := max x.pn (f.pn + 1), ctr := bumpAt x.ctr 0 1 } := by
  rw [acceptPn_of_acceptable hx hy h]
  exact saOf_bumpSa_same (saOf_setSa_same _ _ _)

theorem saOf_acceptPn_other {f : Flight} {x : SaRec} {y : Secy} {d : Dev} (hx : saOf d f.sa = some x)
    (hy : tget d.fm.secys f.secy = some y) (h : lowestPn y x ≤ f.pn) {i : Nat} (hi : i ≠ f.sa) :
    saOf (acceptPn f d) i = saOf d i := by
  rw [acceptPn_of_acceptable hx hy h, saOf_bumpSa_other hi]
  exact saOf_setSa_other _ _ hi _ _

/-- Bit 31 of a 32-bit number says in which half of its range it lies. -/
theorem testBit_31_of_lt {n : Nat} (h : n < 2 ^ 32) : n.testBit 31 = decide (2 ^ 31 ≤ n) := by
  rw [Nat.testBit_eq_decide_div_mod_eq, decide_eq_decide]
  omega

/-- The lower half of a PN's range above the lowest acceptable one decides its upper half (R134). -/
theorem recoverPn_of_near {lowest pn : Nat} (hl : lowest ≤ pn) (hu : pn < lowest + 2 ^ 31) (h64 : pn < 2 ^ 64) :
    recoverPn lowest (pn % 2 ^ 32) = pn := by
  unfold recoverPn
  dsimp only
  rw [testBit_31_of_lt (by omega : lowest % 2 ^ 32 < 2 ^ 32), testBit_31_of_lt (by omega : pn % 2 ^ 32 < 2 ^ 32)]
  split
  case isTrue h =>
    simp only [Bool.and_eq_true, Bool.not_eq_true', decide_eq_true_eq, decide_eq_false_iff_not] at h
    omega
  case isFalse h =>
    simp only [Bool.and_eq_true, Bool.not_eq_true', decide_eq_true_eq, decide_eq_false_iff_not] at h
    omega

/-- Settles O21: the SA's record after an accepted frame, every other SA as it was, and the recovered half of an XPN
number. -/
theorem packetNumbersMoveForward : Obligations.PacketNumbersMoveForward := by
  unfold Obligations.PacketNumbersMoveForward
  refine ⟨fun f x y d hx hy h => ?_, fun lowest pn hl hu h64 => recoverPn_of_near hl hu h64⟩
  refine ⟨_, saOf_acceptPn_same hx hy h, rfl, Nat.le_max_left _ _, ?_, rfl, rfl, fun i hi => saOf_acceptPn_other hx hy h hi⟩
  exact Nat.lt_of_lt_of_le (Nat.lt_succ_self _) (Nat.le_max_right _ _)

/-! A frame from a client port (R124, R131). -/

theorem measurePath_fm (side dir port : Nat) (f : Bytes) (d : Dev) : (measurePath side dir port f d).fm = d.fm := by
  unfold measurePath
  split <;> rfl

/-- A frame of a bound client port, once its path is measured and neither its length, nor the mode, nor capture ends it:
the part of R124 and R131 that traffic takes. -/
def clientTraffic (c : Nat) (f : Bytes) (full : Bool) (p : Pair) (o : Otp) (d : Dev) : Dev :=
  if !trafficOn d then d
  else if full && storeFull d (sectorOf c) (f.length + 4) then countLoss (sectorOf c) 1 d
  else if etherType f = 0x8808 then countPair c 2 d
  else
    let ptp := ptpCorrects p.ptp f
    let q := lineQueue p.line
    let pass := fun (queue : Nat) (d : Dev) =>
      countPtp c ptp f (countPair c 1 (enqueue o (q queue) (plainFrame d (lk 1 c) ptp f) d))
    if etherType f = d.fm.etype then countPair c 0 d
    else if etherType f = 0x888E then (if d.fm.eapolDrop then countPair c 0 d else pass (pcpQueue d p.line f) d)
    else if p.ptp.bypass && isPtp f then pass (pcpQueue d p.line f) d
    else match classify d 0 c p.defaultPass f with
      | .dropIt | .terminateIt => countPair c 0 d
      | .passIt => pass (pcpQueue d p.line f) d
      | .protectIt y => match tget d.fm.secys y with
        | none => countPair c 0 d
        | some s =>
          let queue := tgetD d.sch.secyQueue y 0
          if !polProtect s.policy then
            countPtp c ptp f (bumpSecy y 0 1 (enqueue o (q queue) { plainFrame d (lk 1 c) ptp f with secy := some y } d))
          else if 15996 < f.length then bumpSecy y 1 1 d
          else
            let g := gleanStart s.line (f.length + 4) (stampNow d 1 0 c) d
            let fl := newFlight d false y s.txSc s.policy f (lk 1 c) s.line (q queue) (gleanStage 1 d g.1)
            assign o { fl with ptp := ptp } (countPtp c ptp f g.2)

section
variable {c : Nat} {f : Bytes} {full : Bool} {p : Pair} {o : Otp} {d : Dev}

theorem clientFrame_of_bound {dt : Nat} (hp : tget d.fm.pairs c = some p) (hl : 60 ≤ f.length)
    (hm : runModes.contains (measurePath 1 0 c f (passTime dt d)).sys.mode = true)
    (hc : captures (measurePath 1 0 c f (passTime dt d)) (64 + c) f = false) :
    clientFrame c f full dt o d = clientTraffic c f full p o (measurePath 1 0 c f (passTime dt d)) := by
  have hp' : tget (passTime dt d).fm.pairs c = some p := hp
  unfold clientFrame
  dsimp only
  rw [hp']
  dsimp only
  rw [if_neg (by simp only [hm, Bool.not_true, Bool.or_false, decide_eq_true_eq]; omega),
    if_neg (by rw [show lk 1 c = 64 + c from rfl, hc]; decide)]
  rfl

/-- No rule, port setting or bypass decides before the classification. -/
structure Classified (d : Dev) (p : Pair) (f : Bytes) : Prop where
  traffic : trafficOn d = true
  pause : etherType f ≠ 0x8808
  key : etherType f ≠ d.fm.etype
  eapol : etherType f ≠ 0x888E
  bypass : (p.ptp.bypass && isPtp f) = false

theorem clientTraffic_of_off (h : trafficOn d = false) : clientTraffic c f full p o d = d := by
  unfold clientTraffic
  rw [if_pos (by rw [h]; rfl)]

theorem clientTraffic_of_pause (h : trafficOn d = true) (he : etherType f = 0x8808) :
    clientTraffic c f false p o d = countPair c 2 d := by
  unfold clientTraffic
  rw [if_neg (by rw [h]; decide), if_neg (by simp), if_pos he]

theorem clientTraffic_of_key (h : trafficOn d = true) (he : etherType f = d.fm.etype) (hn : etherType f ≠ 0x8808) :
    clientTraffic c f false p o d = countPair c 0 d := by
  unfold clientTraffic
  rw [if_neg (by rw [h]; decide), if_neg (by simp), if_neg hn]
  exact if_pos he

theorem clientTraffic_of_drop (h : Classified d p f) (hc : classify d 0 c p.defaultPass f = .dropIt) :
    clientTraffic c f false p o d = countPair c 0 d := by
  unfold clientTraffic
  dsimp only
  rw [if_neg (by rw [h.traffic]; decide), if_neg (by simp), if_neg h.pause, if_neg h.key, if_neg h.eapol,
    if_neg (by rw [h.bypass]; decide), hc]

theorem clientTraffic_of_pass (h : Classified d p f) (hc : classify d 0 c p.defaultPass f = .passIt) :
    clientTraffic c f false p o d = countPtp c (ptpCorrects p.ptp f) f (countPair c 1
      (enqueue o (lineQueue p.line (pcpQueue d p.line f)) (plainFrame d (64 + c) (ptpCorrects p.ptp f) f) d)) := by
  unfold clientTraffic
  dsimp only
  rw [if_neg (by rw [h.traffic]; decide), if_neg (by simp), if_neg h.pause, if_neg h.key, if_neg h.eapol,
    if_neg (by rw [h.bypass]; decide), hc]
  rfl

theorem clientTraffic_of_protect {y : Nat} {k : Secy} (h : Classified d p f)
    (hc : classify d 0 c p.defaultPass f = .protectIt y) (hy : tget d.fm.secys y = some k)
    (hk : polProtect k.policy = true) (hl : f.length ≤ 15996) : clientTraffic c f false p o d =
      let g := gleanStart k.line (f.length + 4) (stampNow d 1 0 c) d
      assign o { newFlight d false y k.txSc k.policy f (64 + c) k.line (lineQueue p.line (tgetD d.sch.secyQueue y 0))
          (gleanStage 1 d g.1) with ptp := ptpCorrects p.ptp f } (countPtp c (ptpCorrects p.ptp f) f g.2) := by
  unfold clientTraffic
  dsimp only
  rw [if_neg (by rw [h.traffic]; decide), if_neg (by simp), if_neg h.pause, if_neg h.key, if_neg h.eapol,
    if_neg (by rw [h.bypass]; decide), hc]
  dsimp only
  rw [hy]
  dsimp only
  rw [if_neg (by rw [hk]; decide), if_neg (by omega)]
  rfl

end

/-- Settles O19: a frame of a bound port takes the branch of its EtherType and of its classification. -/
theorem clientFramesAreClassified : Obligations.ClientFramesAreClassified := by
  unfold Obligations.ClientFramesAreClassified
  intro c dt f full p s
  dsimp only
  intro hp hl hm hc
  have hrun : ∀ {e : Dev}, clientTraffic c f full p s.otp (measurePath 1 0 c f (passTime dt s.dev)) = e →
      exec (.clientFrameReceive c f full dt) s = .next (s.put e) := fun h =>
    run_eq_next_put (f := clientFrame c f full dt)
      ((clientFrame_of_bound (by rwa [measurePath_fm] at hp) hl hm hc).trans h)
  refine ⟨fun ht => hrun (clientTraffic_of_off ht), fun ht hf he => ?_, fun ht hf he hn => ?_,
    fun ht hf h1 h2 h3 h4 => ?_⟩
  · subst hf
    exact hrun (clientTraffic_of_pause ht he)
  · subst hf
    exact hrun (clientTraffic_of_key ht he hn)
  · subst hf
    have h : Classified (measurePath 1 0 c f (passTime dt s.dev)) p f := ⟨ht, h1, h2, h3, h4⟩
    exact ⟨fun hd => hrun (clientTraffic_of_drop h hd), fun hd => hrun (clientTraffic_of_pass h hd),
      fun y k hd hy hk hlen => hrun (clientTraffic_of_protect h hd hy hk hlen)⟩

end Sys2Proof.Machine
end

section
/-! The commands of frame mode, its rule tables, and frames from a line port up to their release (R31, R124 to R128, R133
to R135, R145 to R157, R240, R293, R320). -/
namespace Sys2Proof.Machine

/-! A request that was picked up has changed the Signal box's part alone. -/

theorem submitted_eq (code : Nat) (r : NcsReq) (d : Dev) :
    ∃ sb outs, submitted code r d = { d with sb := sb, outs := outs } := ⟨_, _, submitted_only code r d⟩

/-! Rule tables (R127, R155). -/

@[simp] theorem rulesOf_setRules_same (n : Nat) (x : Rules) (d : Dev) : rulesOf (setRules n x d) n = x :=
  tgetD_tset_same _ _ _ _

theorem rulesOf_setRules_other {n m : Nat} (h : m ≠ n) (x : Rules) (d : Dev) :
    rulesOf (setRules n x d) m = rulesOf d m := tgetD_tset_other _ h _ _

/-- The rules g of places b to b + n - 1 written into the shadow of a sector, one after the other. -/
def shadowPuts (s b n : Nat) (g : Nat → List Word) (d : Dev) : Dev :=
  (List.range n).foldl (fun d i => shadowPut s (b + i) (some (g i)) d) d

theorem shadowPuts_succ (s b n : Nat) (g : Nat → List Word) (d : Dev) :
    shadowPuts s b (n + 1) g d = shadowPut s (b + n) (some (g n)) (shadowPuts s b n g d) := by
  unfold shadowPuts
  rw [List.range_succ, List.foldl_append]
  rfl

theorem ruleWrite_eq (r : NcsReq) (d : Dev) : ruleWrite r d =
    let e := shadowPuts (rf r 0 17 16) (rf r 0 13 0) (rw r 1).toNat (reqRule r) d
    setRules (rf r 0 17 16) { rulesOf e (rf r 0 17 16) with uncommitted := true } e := rfl

/-- Written rules touch the tables of frame mode alone. -/
theorem shadowPuts_frame (s b n : Nat) (g : Nat → List Word) (d : Dev) :
    ∃ t, shadowPuts s b n g d = { d with fm := { d.fm with rules := t } } := by
  induction n with
  | zero => exact ⟨d.fm.rules, rfl⟩
  | succ n ih =>
    obtain ⟨t, h⟩ := ih
    rw [shadowPuts_succ, h]
    exact ⟨_, rfl⟩

theorem rulesOf_shadowPuts_other {s m : Nat} (h : m ≠ s) (b n : Nat) (g : Nat → List Word) (d : Dev) :
    rulesOf (shadowPuts s b n g d) m = rulesOf d m := by
  induction n with
  | zero => rfl
  | succ n ih =>
    rw [shadowPuts_succ]
    exact (rulesOf_setRules_other h _ _).trans ih

/-- In its own sector a write of rules leaves what is active and what is armed. -/
theorem rulesOf_shadowPuts_kept (s b n : Nat) (g : Nat → List Word) (d : Dev) :
    let x := rulesOf (shadowPuts s b n g d) s
    x.active = (rulesOf d s).active ∧ x.generation = (rulesOf d s).generation ∧ x.armed = (rulesOf d s).armed := by
  induction n with
  | zero => exact ⟨rfl, rfl, rfl⟩
  | succ n ih =>
    rw [shadowPuts_succ]
    unfold shadowPut
    dsimp only
    rw [rulesOf_setRules_same]
    exact ih

theorem shadow_shadowPut_same (s i : Nat) (w : List Word) (d : Dev) :
    (rulesOf (shadowPut s i (some w) d) s).shadow = tset (rulesOf d s).shadow i w := by
  unfold shadowPut
  dsimp only
  rw [rulesOf_setRules_same]

theorem tget_shadowPuts_outside {s b n j : Nat} (g : Nat → List Word) (d : Dev) (h : j < b ∨ b + n ≤ j) :
    tget (rulesOf (shadowPuts s b n g d) s).shadow j = tget (rulesOf d s).shadow j := by
  induction n with
  | zero => rfl
  | succ n ih => rw [shadowPuts_succ, shadow_shadowPut_same, tget_tset_other _ (by omega), ih (by omega)]

theorem tget_shadowPuts_inside {s b n i : Nat} (g : Nat → List Word) (d : Dev) (h : i < n) :
    tget (rulesOf (shadowPuts s b n g d) s).shadow (b + i) = some (g i) := by
  induction n with
  | zero => omega
  | succ n ih =>
    rw [shadowPuts_succ, shadow_shadowPut_same]
    by_cases hi : i = n
    · subst hi
      exact tget_tset_same _ _ _
    · rw [tget_tset_other _ (by omega), ih (by omega)]

theorem ruleSwap_of_due {n : Nat} {d : Dev} (o : Otp) (ha : (rulesOf d n).armed = true)
    (ht : (rulesOf d n).armedAt < d.sys.ticks) : ruleSwap n o d =
      emit 0 0x0382 (wd n) ((rulesOf d n).generation + 1) (setRules n { rulesOf d n with
        active := (rulesOf d n).shadow, dead := (rulesOf d n).deadShadow, armed := false, uncommitted := false
        generation := (rulesOf d n).generation + 1 } d) := by
  unfold ruleSwap
  dsimp only
  rw [if_neg (by simp [ha, ht])]

theorem ruleSwap_of_not_due {n : Nat} {d : Dev} (o : Otp)
    (h : (rulesOf d n).armed = false ∨ d.sys.ticks ≤ (rulesOf d n).armedAt) : ruleSwap n o d = d := by
  unfold ruleSwap
  dsimp only
  rw [if_pos (by rcases h with h | h <;> simp [h])]

/-! The two commands that look for a free number. -/

/-- The device with a SecY, its transmit SC and its rule made (R147). -/
def secyMade (r : NcsReq) (c y sc i : Nat) (d : Dev) : Dev :=
  armSwap (sectorOf c) (shadowPut (sectorOf c) i (some (secyRule c y (reqVlan r))) { d with fm := { d.fm with
    secys := tset d.fm.secys y ⟨rf r 0 21 16, c, rf r 0 7 0, rw r 1, (rw r 2).toNat, sc, 0xFF000000, 0xFFFFFFFF,
      reqVlan r, i, List.replicate 14 0⟩
    scs := tset d.fm.scs sc ⟨y, true, reqSci r 3, List.replicate 3 0, 0, none⟩ } })

theorem secyCreate_of_free {o : Otp} {d : Dev} {r : NcsReq} {c y sc i : Nat}
    (hc : clientOfLine d (rf r 0 21 16) = some c) (hy : freeSecy d (sectorOf (rf r 0 21 16)) = some y)
    (hs : freeSc d (sectorOf (rf r 0 21 16)) = some sc) (hi : ruleIndex d (sectorOf c) (reqVlan r).isSome = some i) :
    secyCreate o d r = (secyMade r c y sc i d, stOk, [wd y, wd sc]) := by
  unfold secyCreate
  dsimp only
  rw [hc]
  dsimp only
  rw [hy, hs, hi]
  rfl

theorem scCreate_of_free {o : Otp} {d : Dev} {r : NcsReq} {c : Nat} (hc : freeSc d (rf r 0 13 0 / 4096) = some c) :
    cmdFmScCreate.act o d r = ({ d with fm := { d.fm with
      scs := tset d.fm.scs c ⟨rf r 0 13 0, false, reqSci r 1, List.replicate 8 0, 0, none⟩ } }, stOk, [wd c]) := by
  unfold cmdFmScCreate
  dsimp only
  rw [hc]

/-- Settles O18: each command has its effect on the device that picked it up; an armed shadow becomes active at the swap
alone; a written rule stands at its place of its sector's shadow and nothing else has moved. -/
theorem frameModeCommandsAct : Obligations.FrameModeCommandsAct := by
  unfold Obligations.FrameModeCommandsAct
  refine ⟨⟨?bind, ?unbind, ?secyCreate, ?secySet, ?secyDelete, ?scCreate, ?scDelete⟩,
    ⟨?stats, ?ptp, ?bypass, ?threshold, ?ruleWrite, ?ruleRead, ?ruleCommit, ?swap⟩, ?written⟩
  case bind => exact sets_intro (fun _ _ => rfl) (fun _ _ _ => rfl) (fun _ _ _ => rfl)
  case unbind => exact sets_intro (fun _ _ => rfl) (fun _ _ _ => rfl) (fun _ _ _ => rfl)
  case secyCreate =>
    intro r c y sc i s h hc hy hs hi
    obtain ⟨sb, outs, he⟩ := submitted_eq cmdFmSecyCreate.code r s.dev
    exact served_at (e := secyMade r c y sc i) rfl h rfl
      (by rw [he]; exact secyCreate_of_free (o := s.otp) hc hy hs hi) (by decide) (fun _ => rfl)
  case secySet => exact sets_intro (fun _ _ => rfl) (fun _ _ _ => rfl) (fun _ _ _ => rfl)
  case secyDelete => exact starts_intro (fun _ _ => rfl) (fun _ _ _ => rfl) (fun _ _ _ => rfl)
  case scCreate =>
    intro r c s h hc
    obtain ⟨sb, outs, he⟩ := submitted_eq cmdFmScCreate.code r s.dev
    exact served_at (c := cmdFmScCreate) rfl h rfl (by rw [he]; exact scCreate_of_free hc) (by decide) (fun _ => rfl)
  case scDelete => exact sets_intro (fun _ _ => rfl) (fun _ _ _ => rfl) (fun _ _ _ => rfl)
  case stats => exact answers_intro (fun _ _ => rfl) (fun _ _ _ => rfl) (fun _ _ _ => rfl)
  case ptp => exact sets_intro (fun _ _ => rfl) (fun _ _ _ => rfl) (fun _ _ _ => rfl)
  case bypass => exact sets_intro (fun _ _ => rfl) (fun _ _ _ => rfl) (fun _ _ _ => rfl)
  case threshold => exact sets_intro (fun _ _ => rfl) (fun _ _ _ => rfl) (fun _ _ _ => rfl)
  case ruleWrite => exact sets_intro (fun _ _ => rfl) (fun _ _ _ => rfl) (fun _ _ _ => rfl)
  case ruleRead => exact answers_intro (fun _ _ => rfl) (fun _ _ _ => rfl) (fun _ _ _ => rfl)
  case ruleCommit => exact fun r s h => served_by rfl h rfl (fun _ => rfl) (by decide) (fun _ => rfl)
  case swap =>
    exact fun n s => ⟨fun ha ht => run_eq_next_put (ruleSwap_of_due _ ha ht),
      fun h => run_eq_next_put (ruleSwap_of_not_due _ h)⟩
  case written =>
    intro r d
    obtain ⟨t, ht⟩ := shadowPuts_frame (rf r 0 17 16) (rf r 0 13 0) (rw r 1).toNat (reqRule r) d
    obtain ⟨ha, hg, hm⟩ := rulesOf_shadowPuts_kept (rf r 0 17 16) (rf r 0 13 0) (rw r 1).toNat (reqRule r) d
    have hj := fun j => tget_shadowPuts_outside (s := rf r 0 17 16) (b := rf r 0 13 0) (n := (rw r 1).toNat) (j := j)
      (reqRule r) d
    have hi := fun i => tget_shadowPuts_inside (s := rf r 0 17 16) (b := rf r 0 13 0) (n := (rw r 1).toNat) (i := i)
      (reqRule r) d
    have ho := fun m (h : m ≠ rf r 0 17 16) =>
      rulesOf_shadowPuts_other h (rf r 0 13 0) (rw r 1).toNat (reqRule r) d
    rw [ruleWrite_eq]
    revert ht ha hg hm hj hi ho
    generalize shadowPuts (rf r 0 17 16) (rf r 0 13 0) (rw r 1).toNat (reqRule r) d = e
    intro ht ha hg hm hj hi ho
    dsimp only
    rw [rulesOf_setRules_same]
    refine ⟨fun m => ?_, hj, hi, ?_⟩
    · by_cases h : m = rf r 0 17 16
      · subst h
        rw [rulesOf_setRules_same]
        exact ⟨ha, hg, fun hne => absurd rfl hne, hm⟩
      · rw [rulesOf_setRules_other h, ho m h]
        exact ⟨rfl, rfl, fun _ => rfl, rfl⟩
    · rw [ht]
      exact ⟨rfl, rfl, rfl, rfl⟩

/-! A frame from a line port (R124, R133, R293). -/

theorem measurePath_pth (side dir port : Nat) (f : Bytes) (d : Dev) : (measurePath side dir port f d).pth = d.pth := by
  unfold measurePath
  split <;> rfl

/-- A frame of a bound line port that belongs to no path pair, once its path is measured and neither its length, nor the
mode, nor capture ends it. -/
def lineTraffic (l c : Nat) (f : Bytes) (full : Bool) (p : Pair) (o : Otp) (d : Dev) : Dev :=
  if etherType f = d.fm.etype then
    if beAt f (etherOff f + 2) 1 = 1 then countPair c 5 (keyFragment l f d) else d
  else if !trafficOn d then d
  else if full && storeFull d (sectorOf l) (f.length + 4) then
    let d := countLoss (sectorOf l) 1 d
    match secyFor d l f with | some y => bumpSecy y 10 1 d | none => d
  else if etherType f = 0x8808 then countPair c 2 d
  else
    let pass := fun (d : Dev) => countPair c 1 (toClient o c l p.ptp f d)
    if etherType f = 0x888E then (if d.fm.eapolDrop then countPair c 0 d else pass d)
    else if p.ptp.bypass && isPtp f then pass d
    else if tagCount f = 0 && etherType f = 0x88E5 then rxSecured o c l p false f d
    else match classify d 1 l p.defaultPass f with
      | .dropIt => countPair c 0 d
      | .terminateIt => d
      | .passIt => pass d
      | .protectIt y => match tget d.fm.secys y with
        | none => countPair c 0 d
        | some s =>
          if polValidate s.policy = 2 then bumpSecy y 6 1 d
          else bumpSecy y 5 1 (toClient o c l p.ptp f d)

section
variable {l c : Nat} {f : Bytes} {full : Bool} {p : Pair} {o : Otp} {d : Dev}

theorem pairOfLine_measurePath (side dir port : Nat) (f : Bytes) (d : Dev) (l : Nat) :
    pairOfLine (measurePath side dir port f d) l = pairOfLine d l := by
  unfold pairOfLine
  rw [measurePath_pth]

theorem clientOfLine_measurePath (side dir port : Nat) (f : Bytes) (d : Dev) (l : Nat) :
    clientOfLine (measurePath side dir port f d) l = clientOfLine d l := by
  unfold clientOfLine
  rw [measurePath_fm]

theorem lineFrame_of_bound {dt : Nat} (hn : pairOfLine (passTime dt d) l = none)
    (hc : clientOfLine (passTime dt d) l = some c) (hp : tget (passTime dt d).fm.pairs c = some p) (hl : 60 ≤ f.length)
    (hm : runModes.contains (measurePath 0 0 l f (passTime dt d)).sys.mode = true)
    (hq : captures (measurePath 0 0 l f (passTime dt d)) l f = false) :
    lineFrame l f full dt o d = lineTraffic l c f full p o (measurePath 0 0 l f (passTime dt d)) := by
  have hmain : mainPort (passTime dt d) l = l := by
    unfold mainPort
    rw [hn]
  unfold lineFrame
  dsimp only
  rw [hn, hmain, hc]
  dsimp only
  rw [hp]
  dsimp only
  rw [if_neg (by simp only [hm, Bool.not_true, Bool.or_false, decide_eq_true_eq]; omega),
    if_neg (by rw [show lk 0 l = l by unfold lk; omega, hq]; decide)]
  rfl

theorem lineTraffic_of_key (he : etherType f = d.fm.etype) (h1 : beAt f (etherOff f + 2) 1 = 1) :
    lineTraffic l c f full p o d = countPair c 5 (keyFragment l f d) := by
  unfold lineTraffic
  rw [if_pos he, if_pos h1]

theorem lineTraffic_of_pause (ht : trafficOn d = true) (hk : etherType f ≠ d.fm.etype) (he : etherType f = 0x8808) :
    lineTraffic l c f false p o d = countPair c 2 d := by
  unfold lineTraffic
  rw [if_neg hk, if_neg (by rw [ht]; decide), if_neg (by simp), if_pos he]

theorem lineTraffic_of_protected (ht : trafficOn d = true) (hk : etherType f ≠ d.fm.etype) (he : etherType f = 0x88E5)
    (hg : tagCount f = 0) (hb : (p.ptp.bypass && isPtp f) = false) :
    lineTraffic l c f false p o d = rxSecured o c l p false f d := by
  unfold lineTraffic
  rw [if_neg hk, if_neg (by rw [ht]; decide), if_neg (by simp), if_neg (by rw [he]; decide), if_neg (by rw [he]; decide),
    if_neg (by rw [hb]; decide), if_pos (by rw [hg, he]; rfl)]

/-! The verdict, context fetch and load, the reorder stage (R31, R135, R240, R320). -/

theorem icvVerdict_of_good {id : Nat} {g : Flight} (hf : flightOf d id = some g) (hr : g.rx = true)
    (hv : g.verdict = false) (hs : g.stage = .done) (hl : g.released = false) (hi : g.icvOk = true)
    (hn : pairOfLine d (g.ingress % 64) = none) : icvVerdict id o d =
      releaseFrom o { g with verdict := true } (setFlight { g with verdict := true }
        (validFrame g.sa (timeAt d g.arrival) false d)) := by
  unfold icvVerdict
  rw [hf]
  dsimp only
  rw [if_neg (by simp [hr, hv, hs]), hn, if_pos hi, if_pos (by simp [hl])]

theorem fetchDone_of_unsound {sa : Nat} {g : Flight}
    (hf : d.fm.flights.filter (fun f => f.stage == .missing && f.sa == sa) = [g]) (hs : contextSound d sa = false) :
    fetchDone sa o d = contextFails sa o d := by
  unfold fetchDone
  dsimp only
  rw [hf, if_neg (by simp), if_pos (by rw [hs]; rfl)]

theorem fetchDone_of_sound {sa : Nat} {g : Flight}
    (hf : d.fm.flights.filter (fun f => f.stage == .missing && f.sa == sa) = [g])
    (hm : d.lm.missing.filter (fun m => m.sa == sa) = []) (hs : contextSound d sa = true) : fetchDone sa o d =
      let e := cacheFetch sa { d with
        fm := { d.fm with flights := d.fm.flights.filter (fun f => f.rx || !(f.stage == .missing && f.sa == sa)) }
        lm := { d.lm with missing := d.lm.missing.filter (fun m => m.sa != sa) }
        dsp := { d.dsp with fetching := d.dsp.fetching.filter (· != sa) } }
      let h := { g with glean := gleanStage 2 e g.glean }
      if g.rx then rxGo o h e else assign o h e := by
  unfold fetchDone
  dsimp only
  rw [hf, hm, if_neg (by simp), if_neg (by rw [hs]; decide), if_pos (by rfl)]
  rfl

theorem loadDone_of_unloadable {n sa : Nat} (hc : (sliceOf d n).ctxs.any (fun c => c.sa == sa && !c.ready) = true)
    (hp : slicePowered d n = true) (hl : loadable d sa = false) :
    loadDone n sa o d = sliceRun o n (setSlice n ((sliceOf d n).keep (fun c => c.sa != sa)) d) := by
  unfold loadDone
  dsimp only
  rw [if_pos (by rw [hc, hp]; rfl), if_neg (by rw [hl]; decide)]

theorem loadDone_of_loadable {n sa : Nat} (hc : (sliceOf d n).ctxs.any (fun c => c.sa == sa && !c.ready) = true)
    (hp : slicePowered d n = true) (hl : loadable d sa = true) (hf : d.fm.flights = []) : loadDone n sa o d =
      sliceRun o n (setSlice n { sliceOf d n with
        ctxs := (sliceOf d n).ctxs.map (fun c => if c.sa == sa then { c with ready := true } else c) } d) := by
  have he : { d with fm := { d.fm with flights := [] } } = d := by rw [← hf]
  unfold loadDone
  dsimp only
  rw [if_pos (by rw [hc, hp]; rfl), if_pos hl, hf, List.map_nil, he]

theorem reorder_of_done {id : Nat} {g : Flight} (hf : flightOf d id = some g) (hs : g.stage = .done) :
    reorder id o d = sliceRun o g.slice (releaseFrom o g d) := by
  unfold reorder
  rw [hf]
  dsimp only
  rw [if_pos (by simp [hs]), if_neg (by simp [hs])]

theorem releaseOne_of_unfinished {g : Flight} (h : g.stage ≠ .done) : releaseOne o g d = none := if_pos h

theorem releaseOne_of_void {g : Flight} (hs : g.stage = .done) (hv : g.void = true) :
    releaseOne o g d = some (gleanFinish true g.glean (dropFlight g.id d)) := by
  unfold releaseOne
  rw [if_neg (by simp [hs]), if_pos hv]

/-- A received frame that its SecY holds for its verdict waits (R135). -/
theorem releaseOne_of_held {g : Flight} (hs : g.stage = .done) (hv : g.void = false) (hr : g.rx = true)
    (hd : g.verdict = false) (hh : g.hold = true) : releaseOne o g d = none := by
  unfold releaseOne
  rw [if_neg (by simp [hs]), if_neg (by simp [hv]), if_neg (by simp [hr]), if_neg (by simp [hd]), if_pos (by simp [hh])]

theorem replayLate_of_low {g : Flight} {x : SaRec} {y : Secy} (hx : saOf d g.sa = some x)
    (hy : tget d.fm.secys g.secy = some y) (hp : polReplay g.policy = true) (hl : g.pn < lowestPn y x) :
    replayLate d g = true := by
  unfold replayLate
  rw [hx, hy]
  dsimp only
  rw [hp, decide_eq_true hl]
  rfl

theorem rxRelease_of_late {g : Flight} (hi : g.icvOk = true ∨ g.check = false)
    (hn : pairOfLine d (g.ingress % 64) = none) (hl : replayLate d g = true) :
    rxRelease o g d = gleanFinish true g.glean (bumpSc g.sc 7 1 d) := by
  unfold rxRelease
  rw [if_neg (by rcases hi with h | h <;> simp [h]), hn]
  exact if_pos hl

end

/-- Settles O20: a frame of a bound line port takes the branch of its EtherType; verdict, fetch, load and reorder act on the
flight they find; the reorder stage drops a void token, holds what waits for its verdict and drops a late PN. -/
theorem receivePathEvents : Obligations.ReceivePathEvents := by
  unfold Obligations.ReceivePathEvents
  refine ⟨⟨?line, ?verdict, ?fetch, ?unloadable, ?loadable, ?reorder⟩, ?unfinished, ?void, ?held, ?late⟩
  case line =>
    intro l c dt f full p s
    dsimp only
    intro hn hc hp _ hl hm hq
    rw [pairOfLine_measurePath] at hn
    rw [clientOfLine_measurePath] at hc
    rw [measurePath_fm] at hp
    have hrun : ∀ {e : Dev}, lineTraffic l c f full p s.otp (measurePath 0 0 l f (passTime dt s.dev)) = e →
        exec (.lineFrameReceive l f full dt) s = .next (s.put e) := fun h =>
      run_eq_next_put (f := lineFrame l f full dt) ((lineFrame_of_bound hn hc hp hl hm hq).trans h)
    refine ⟨fun he h1 => hrun (lineTraffic_of_key he h1), fun ht hf hk he => ?_, fun ht hf hk he hg hb => ?_⟩
    · subst hf
      exact hrun (lineTraffic_of_pause ht hk he)
    · subst hf
      exact hrun (lineTraffic_of_protected ht hk he hg hb)
  case verdict =>
    exact fun id f s hf hr hv hs hl hi hn => run_eq_next_put (icvVerdict_of_good hf hr hv hs hl hi hn)
  case fetch =>
    exact fun sa f s hf hm => ⟨fun hs => run_eq_next_put (fetchDone_of_unsound hf hs),
      fun hs => run_eq_next_put (fetchDone_of_sound hf hm hs)⟩
  case unloadable => exact fun n sa s hc hp hl => run_eq_next_put (loadDone_of_unloadable hc hp hl)
  case loadable => exact fun n sa s hc hp hl hf => run_eq_next_put (loadDone_of_loadable hc hp hl hf)
  case reorder => exact fun id f s hf hs => run_eq_next_put (reorder_of_done hf hs)
  case unfinished => exact fun o f d h => releaseOne_of_unfinished h
  case void => exact fun o f d hs hv => releaseOne_of_void hs hv
  case held => exact fun o f d hs hv hr hd hh => releaseOne_of_held hs hv hr hd hh
  case late => exact fun o f x y d hx hy hi hn hp hl => rxRelease_of_late hi hn (replayLate_of_low hx hy hp hl)

end Sys2Proof.Machine
end

section
/-! The Dispatcher: its commands, moves, stripe widths, droop relief and idle power (R313, R316, R317, R324, R326, R329 to
R339, R587). -/
namespace Sys2Proof.Machine

/-! Hints (R326, R336), by the kind of hint on the device that picked the request up. -/

/-- The device with an object pinned. -/
def pinned (k : Nat) (d : Dev) : Dev := { d with dsp := { d.dsp with pins := addNat k d.dsp.pins } }

/-- The device with the latency class hint of a group set or cleared. -/
def classHinted (r : NcsReq) (d : Dev) : Dev :=
  { d with dsp := { d.dsp with
    classes := if bit (rw r 0) 27 then tset d.dsp.classes (rf r 1 7 0) (rf r 0 3 0) else tdel d.dsp.classes (rf r 1 7 0) } }

section
variable {r : NcsReq} {o : Otp} {d : Dev}

theorem hintSet_of_unpin (hk : rf r 0 31 28 = 1) (hb : bit (rw r 0) 27 = false) : hintSet r o d =
    ({ d with dsp := { d.dsp with pins := d.dsp.pins.filter (· != ow (rw r 1)) } }, stOk) := by
  unfold hintSet
  rw [hk, hb]
  rfl

theorem hintSet_of_pin_full (hk : rf r 0 31 28 = 1) (hb : bit (rw r 0) 27 = true)
    (hn : 16384 < (hintedSas (pinned (ow (rw r 1)) d)).length) : hintSet r o d = (d, 0x8600) := by
  unfold hintSet
  rw [hk, hb]
  exact if_pos (decide_eq_true hn)

theorem hintSet_of_pin_wide {g : Nat} (hk : rf r 0 31 28 = 1) (hb : bit (rw r 0) 27 = true)
    (hg : (objGroup d (ow (rw r 1))).getD 0 = g)
    (hn : (hintedSas (pinned (ow (rw r 1)) d)).length ≤ 16384)
    (hw : groupW d g ≤ (spreadOf (pinned (ow (rw r 1)) d) (ow (rw r 1))).s ∨ 2 ≤ objKind (ow (rw r 1))) :
    hintSet r o d = (pinFetch (pinned (ow (rw r 1)) d), stOk) := by
  subst hg
  unfold hintSet
  rw [hk, hb]
  refine (if_neg (fun h => absurd (of_decide_eq_true (Bool.and_eq_true_iff.mp h).2) (Nat.not_lt.mpr hn))).trans ((if_pos rfl).trans ?_)
  refine congrArg (fun x => (pinFetch x, stOk)) (if_neg ?_)
  rw [Bool.and_eq_true, decide_eq_true_eq, decide_eq_true_eq]
  exact fun h => hw.elim (fun h1 => absurd h.1 (Nat.not_lt.mpr h1)) (fun h2 => absurd h.2 (Nat.not_lt.mpr h2))

theorem hintSet_of_pin_narrow {g : Nat} (hk : rf r 0 31 28 = 1) (hb : bit (rw r 0) 27 = true)
    (hg : (objGroup d (ow (rw r 1))).getD 0 = g)
    (hn : (hintedSas (pinned (ow (rw r 1)) d)).length ≤ 16384)
    (hw : (spreadOf (pinned (ow (rw r 1)) d) (ow (rw r 1))).s < groupW d g) (ho : objKind (ow (rw r 1)) < 2) :
    hintSet r o d = (pinFetch (queueMove g (some (ow (rw r 1), groupW d g,
      bestSet (pinned (ow (rw r 1)) d) (ow (rw r 1)) g (groupW d g))) 0 0 0 3 (pinned (ow (rw r 1)) d)), stOk) := by
  subst hg
  unfold hintSet
  rw [hk, hb]
  refine (if_neg (fun h => absurd (of_decide_eq_true (Bool.and_eq_true_iff.mp h).2) (Nat.not_lt.mpr hn))).trans ((if_pos rfl).trans ?_)
  exact congrArg (fun x => (pinFetch x, stOk)) (if_pos (by
    rw [Bool.and_eq_true, decide_eq_true_eq, decide_eq_true_eq]; exact ⟨hw, ho⟩))

theorem hintSet_of_prefer (hk : rf r 0 31 28 = 2) : hintSet r o d =
    ((replan (rf r 1 7 0) 3 o { d with dsp := { d.dsp with
      prefer := if bit (rw r 0) 27 then tset d.dsp.prefer (rf r 1 7 0) (rf r 0 3 0)
        else tdel d.dsp.prefer (rf r 1 7 0) } }).2, stOk) := by
  unfold hintSet
  rw [hk]
  rfl

theorem hintSet_of_avoid_cleared (hk : rf r 0 31 28 = 3) (hb : bit (rw r 0) 27 = false) : hintSet r o d =
    ({ d with dsp := { d.dsp with avoid := d.dsp.avoid.filter (· != rf r 1 7 0) } }, stOk) := by
  unfold hintSet
  rw [hk, hb]
  rfl

theorem hintSet_of_avoid (hk : rf r 0 31 28 = 3) (hb : bit (rw r 0) 27 = true)
    (hn : d.dsp.avoid.length < 32 ∨ d.dsp.avoid.contains (rf r 1 7 0) = true) : hintSet r o d =
    (vacate (rf r 1 7 0) o { d with dsp := { d.dsp with avoid := addNat (rf r 1 7 0) d.dsp.avoid } }, stOk) := by
  unfold hintSet
  rw [hk, hb]
  refine (if_neg ?_).trans (if_pos rfl)
  rcases hn with h | h
  · simp [h]
  · rw [h]
    simp

theorem hintSet_of_avoid_full (hk : rf r 0 31 28 = 3) (hb : bit (rw r 0) 27 = true) (hn : 32 ≤ d.dsp.avoid.length)
    (hc : d.dsp.avoid.contains (rf r 1 7 0) = false) : hintSet r o d = (d, 0x8600) := by
  unfold hintSet
  rw [hk, hb]
  exact if_pos (by rw [hc, decide_eq_true hn]; rfl)

theorem hintSet_of_class (hk : rf r 0 31 28 = 4) : hintSet r o d =
    if bit (rw r 0) 27 && rf r 0 3 0 == 1 && decide (16384 < (hintedSas (classHinted r d)).length) then (d, 0x8600)
    else (pinFetch (replan (rf r 1 7 0) 3 o (classHinted r d)).2, stOk) := by
  unfold hintSet
  rw [hk]
  rfl

theorem hintSet_of_class_full (hk : rf r 0 31 28 = 4) (hb : bit (rw r 0) 27 = true) (hv : rf r 0 3 0 = 1)
    (hn : 16384 < (hintedSas (classHinted r d)).length) : hintSet r o d = (d, 0x8600) := by
  rw [hintSet_of_class hk]
  exact if_pos (by rw [hb, hv, decide_eq_true hn]; rfl)

theorem hintSet_of_class_taken (hk : rf r 0 31 28 = 4)
    (h : bit (rw r 0) 27 = false ∨ rf r 0 3 0 ≠ 1 ∨ (hintedSas (classHinted r d)).length ≤ 16384) :
    hintSet r o d = (pinFetch (replan (rf r 1 7 0) 3 o (classHinted r d)).2, stOk) := by
  rw [hintSet_of_class hk]
  refine if_neg ?_
  simp only [Bool.and_eq_true, beq_iff_eq, decide_eq_true_eq]
  rintro ⟨⟨h1, h2⟩, h3⟩
  rcases h with h | h | h
  · rw [h] at h1; cases h1
  · exact h h2
  · omega

end

/-- A DSP_HINT_SET that passes its checks has the effect and the status of its hint. -/
theorem exec_dspHintSet {r : NcsReq} {s : State} {e : Dev → Dev} {st : Nat} (h : Passes cmdDspHintSet r s)
    (he : ∀ sb outs, hintSet r s.otp { s.dev with sb := sb, outs := outs } = (e { s.dev with sb := sb, outs := outs }, st))
    (hst : st ≠ stAccepted) : exec (.dspHintSet r) s = .next (served 0x0603 r st (fun _ => []) e s) := by
  obtain ⟨sb, outs, hs⟩ := submitted_eq cmdDspHintSet.code r s.dev
  refine served_at rfl h rfl ?_ hst (fun _ => rfl)
  rw [hs]
  exact congrArg (fun x : Dev × Nat => (x.1, x.2, ([] : List Word))) (he sb outs)

/-! The placement table (R329). -/

theorem tableSwap_of_early {p tag x : Nat} {o : Otp} {d : Dev} (hc : d.dsp.commit = some (p, tag, false, x))
    (ht : d.sys.ticks ≤ d.dsp.commitAt) : tableSwap o d = d := by
  unfold tableSwap
  rw [hc]
  exact if_pos ht

/-- Where every group's record is as before, the swap moves no group. -/
theorem tableSwap_of_unchanged {p tag x : Nat} {o : Otp} {d : Dev} (hc : d.dsp.commit = some (p, tag, false, x))
    (ht : d.dsp.commitAt < d.sys.ticks) (hg : ∀ g ∈ d.dsp.groups, tget d.dsp.active g.1 = tget d.dsp.shadow g.1) :
    tableSwap o d = commitCheck { d with dsp := { d.dsp with
      active := d.dsp.shadow, commit := some (p, tag, true, 0) } } := by
  have hsame : (d.dsp.groups.map (·.1)).filter (fun g =>
      tgetD d.dsp.active g [] != activeRecord { d with dsp := { d.dsp with active := d.dsp.shadow } } g
        && (tget d.dsp.active g).isSome
        || (tget d.dsp.active g).isNone && (tget d.dsp.shadow g).isSome) = [] := by
    rw [List.filter_eq_nil_iff]
    intro g hm
    obtain ⟨q, hq, rfl⟩ := List.mem_map.mp hm
    have h := hg q hq
    unfold activeRecord tgetD
    dsimp only
    rw [← h]
    cases tget d.dsp.active q.1 <;> simp
  unfold tableSwap
  rw [hc]
  dsimp only
  rw [if_neg (by omega), hsame, List.foldl_nil]

/-! Moves (R316, R317). -/

section
variable {id : Nat} {m : Move} {o : Otp} {d : Dev}

theorem moveStart_of_free (hm : moveOf d id = some m) (hp : m.phase = 0) (hb : moveBlocked d id m = false)
    (hl : moveLocked d m = false) (hn : tgetD d.dsp.started (moveSector m) 0 < fld d.dsp.prm0 7 0)
    (hs : ∀ t ∈ moveTargets d m, slicePowered d t = true) : moveStart id o d =
      (moveTargets d m).foldl (fun d t => ((moveSas d m).filter (loadable d)).foldl (fun d sa => startLoad t sa d) d)
        (setMove id { m with phase := 1 } { d with dsp := { d.dsp with
          started := tset d.dsp.started (moveSector m) (tgetD d.dsp.started (moveSector m) 0 + 1) } }) := by
  unfold moveStart
  rw [hm]
  dsimp only
  rw [if_neg ?_]
  rw [hb, hl, List.all_eq_true.mpr hs, decide_eq_false (Nat.not_le.mpr hn), hp]
  decide

theorem moveStart_of_held (hm : moveOf d id = some m) (h : m.phase ≠ 0 ∨ moveBlocked d id m = true
    ∨ moveLocked d m = true ∨ fld d.dsp.prm0 7 0 ≤ tgetD d.dsp.started (moveSector m) 0) : moveStart id o d = d := by
  unfold moveStart
  rw [hm]
  refine if_pos ?_
  rcases h with h | h | h | h <;> simp [h]

/-- The contexts of a move stand ready on its targets. -/
theorem switchover_held (hc : ∀ t ∈ moveTargets d m, ∀ c ∈ (sliceOf d t).ctxs, c.ready = true ∨ c.sa ∉ moveSas d m) :
    (moveTargets d m).all (fun t => (sliceOf d t).ctxs.all (fun c => c.ready || !(moveSas d m).contains c.sa)) = true := by
  rw [List.all_eq_true]
  intro t ht
  rw [List.all_eq_true]
  intro c h
  rcases hc t ht c h with h | h <;> simp [h]

theorem switchover_of_object {k w b : Nat} (hm : moveOf d id = some m) (hp : m.phase = 1)
    (hc : ∀ t ∈ moveTargets d m, ∀ c ∈ (sliceOf d t).ctxs, c.ready = true ∨ c.sa ∉ moveSas d m)
    (ho : m.obj = some (k, w, b)) : switchover id o d =
      setMove id { m with phase := 2, marker := d.fm.nextFlight } { d with dsp := { d.dsp with
        spreads := tset d.dsp.spreads k { spreadOf d k with s := w, b := b, above := 0, under := 0 } } } := by
  unfold switchover
  rw [hm]
  dsimp only
  rw [if_neg (by rw [switchover_held hc, hp]; decide), ho]

theorem setDirs_fm (gid : Nat) (ns : List Nat) (d : Dev) : (setDirs gid ns d).fm = d.fm := by
  unfold setDirs
  induction ns generalizing d with
  | nil => rfl
  | cons n t ih => rw [List.foldl_cons, ih]; rfl

theorem setPosition_fm (gid pos n : Nat) (d : Dev) : (setPosition gid pos n d).fm = d.fm := by
  unfold setPosition
  split
  · rw [setDirs_fm]; rfl
  · rfl

theorem switchover_of_position (hm : moveOf d id = some m) (hp : m.phase = 1)
    (hc : ∀ t ∈ moveTargets d m, ∀ c ∈ (sliceOf d t).ctxs, c.ready = true ∨ c.sa ∉ moveSas d m) (ho : m.obj = none) :
    switchover id o d =
      setMove id { m with phase := 2, marker := d.fm.nextFlight } (setPosition m.group m.pos m.dst d) := by
  unfold switchover
  rw [hm]
  dsimp only
  rw [if_neg (by rw [switchover_held hc, hp]; decide), ho]
  dsimp only
  rw [setPosition_fm]

theorem drainComplete_of_drained (hm : moveOf d id = some m) (hp : m.phase = 2) (hd : draining d m = false) :
    drainComplete id o d = commitCheck (bulkAssign o (reliefSiding m.src (moveDone id m d))) := by
  unfold drainComplete
  rw [hm]
  exact if_neg (by rw [hd, hp]; decide)

/-- The move that takes an object to a stripe width (R313). -/
def widthMove (k g w : Nat) (d : Dev) : Dev := queueMove g (some (k, w, bestSet d k g w)) 0 0 0 0 d

/-- An object of a live group whose width may change: no hint pins it and no move of it waits. -/
structure Spreadable (k g : Nat) (d : Dev) : Prop where
  group : objGroup d k = some g
  frame : g < 128
  live : (tget d.dsp.groups g).isSome = true
  known : (tget d.dsp.spreads k).isSome = true
  free : d.dsp.pins.contains k = false
  still : d.dsp.moves.any (fun p => p.2.obj.map (·.1) == some k) = false

theorem stripeChange_of_wide {k g : Nat} (h : Spreadable k g d) (ha : 2 ≤ (spreadOf d k).above)
    (hw : (spreadOf d k).s * 2 ≤ groupW d g) : stripeChange k o d = widthMove k g ((spreadOf d k).s * 2) d := by
  obtain ⟨x, hx⟩ := Option.isSome_iff_exists.mp h.live
  obtain ⟨y, hy⟩ := Option.isSome_iff_exists.mp h.known
  unfold stripeChange
  rw [h.group]
  dsimp only
  rw [hx]
  dsimp only
  rw [if_neg (by rw [h.still, hy]; simpa using h.frame), if_pos (by rw [h.free, decide_eq_true ha, decide_eq_true hw]; rfl)]
  rfl

theorem stripeChange_of_narrow {k g : Nat} (h : Spreadable k g d) (ha : (spreadOf d k).above < 2)
    (hu : fld d.dsp.prm0 15 8 ≤ (spreadOf d k).under) (hs : 2 ≤ (spreadOf d k).s) :
    stripeChange k o d = widthMove k g ((spreadOf d k).s / 2) d := by
  obtain ⟨x, hx⟩ := Option.isSome_iff_exists.mp h.live
  obtain ⟨y, hy⟩ := Option.isSome_iff_exists.mp h.known
  unfold stripeChange
  rw [h.group]
  dsimp only
  rw [hx]
  dsimp only
  rw [if_neg (by rw [h.still, hy]; simpa using h.frame),
    if_neg (by rw [decide_eq_false (Nat.not_le.mpr ha), Bool.and_false, Bool.false_and]; decide),
    if_pos (by rw [h.free, decide_eq_true hu, decide_eq_true hs]; rfl)]
  rfl

/-! Droop relief (R324) and idle power (R587). -/

/-- A sector's relief begins. -/
def reliefOn (n : Nat) (d : Dev) : Dev := setRelief n { reliefOf d n with on := true, calm := 0, moved := [] } d

/-- EVT_DSP_DROOP_RELIEF at the start of a sector's relief. -/
def reliefTold (n : Nat) (d : Dev) : Dev :=
  emit 0 0x0683 (wd (n * 2 ^ 16 + 1)) (wd (reliefOf d n).moved.length) d

/-- The groups of a sector leave it in turn until one finds no capacity: whether one did not, and the device. -/
def reliefWalk (o : Otp) (n : Nat) (gs : List (Nat × Group)) (d : Dev) : Bool × Dev :=
  gs.foldl (fun (p : Bool × Dev) g =>
    if p.1 then p else match relieve o n g p.2 with | some d => (false, d) | none => (true, p.2)) (false, d)

theorem reliefStart_of_due {n : Nat} (hn : n < sectors o) (hr : (reliefOf d n).on = false)
    (ha : 2 ≤ (reliefOf d n).above) : reliefStart n o d =
      let x := reliefWalk o n (reliefGroups (reliefOn n d) n) (reliefOn n d)
      if x.1 then shortfallEvent 2 o (reliefTold n x.2) else reliefTold n x.2 := by
  unfold reliefStart
  dsimp only
  rw [if_neg (by simp [hr, hn]; omega)]
  rfl

theorem reliefWalk_nil (o : Otp) (n : Nat) (d : Dev) : reliefWalk o n [] d = (false, d) := rfl

theorem reliefWalk_of_relieved {n : Nat} {g : Nat × Group} {e : Dev} (h : relieve o n g d = some e) :
    reliefWalk o n [g] d = (false, e) := by
  simp [reliefWalk, h]

theorem reliefWalk_of_full {n : Nat} {g : Nat × Group} (h : relieve o n g d = none) :
    reliefWalk o n [g] d = (true, d) := by
  simp [reliefWalk, h]

/-- A group that relief has moved returns position by position, as far as its slices of before can take it. -/
def reliefBack (o : Otp) (p : Nat × List Nat) (g : Group) (d : Dev) : Dev :=
  let e := { d with dsp := { d.dsp with groups := tset d.dsp.groups p.1 { g with relief := false } } }
  (List.range (comingSlices e p.1 g).length).foldl (fun d i =>
    let now := (comingSlices e p.1 g).getD i 0
    let next := returnTo o d p.1 now (p.2.getD i now)
    if next = now then d else queueMove p.1 none i now next 2 d) e

/-- The end of a sector's relief, with its event. -/
def reliefOver (n moved : Nat) (d : Dev) : Dev :=
  emit 0 0x0683 (wd (n * 2 ^ 16)) (wd moved) (setRelief n Relief.init d)

theorem reliefEnd_of_calm {n : Nat} (hr : (reliefOf d n).on = true) (hc : fld d.dsp.prm1 15 0 ≤ (reliefOf d n).calm) :
    reliefEnd n o d = reliefOver n (reliefOf d n).moved.length ((reliefOf d n).moved.foldl (fun d p =>
      match tget (dropWaiting p.1 d).dsp.groups p.1 with
      | none => dropWaiting p.1 d
      | some g => reliefBack o p g (dropWaiting p.1 d)) d) := by
  unfold reliefEnd
  dsimp only
  rw [if_neg (by simp [hr, hc])]
  rfl

theorem idleDown_of_idle {n : Nat} (hs : (sliceOf d n).state = 1) (hn : isSiding n = false)
    (hi : 100 ≤ (sliceOf d n).idle) (hu : sliceUnused d n = true) (hc : unclaimed d n = true) : idleDown n o d =
      setSlice n { (sliceOf (setState n 0 d) n).wipe with seeded := false, dir := 0 } (setState n 0 d) := by
  unfold idleDown
  dsimp only
  rw [if_pos (by simp [hs, hn, hi, hu, hc])]

end

/-- Settles O28: each command has its effect on the device that picked it up, a hint that of its kind; a move, a stripe
width, relief and idle power take the branch of their state. -/
theorem dispatcherAndPlacementAct : Obligations.DispatcherAndPlacementAct := by
  unfold Obligations.DispatcherAndPlacementAct
  refine ⟨⟨?group, ?place, ?stats, ?unpin, ?pin, ?prefer, ?avoid, ?latency, ?hint, ?tableWrite, ?tableRead, ?tableCommit,
    ?paramWrite, ?paramRead, ?swap⟩, ?start, ?switchover, ?drain, ?width, ?relief, ?reliefEnd, ?idle⟩
  case group => exact answers_intro (fun _ _ => rfl) (fun _ _ _ => rfl) (fun _ _ _ => rfl)
  case place => exact answers_intro (fun _ _ => rfl) (fun _ _ _ => rfl) (fun _ _ _ => rfl)
  case stats => exact answers_intro (fun _ _ => rfl) (fun _ _ _ => rfl) (fun _ _ _ => rfl)
  case unpin =>
    exact fun r s h hk hb => exec_dspHintSet h (fun sb outs => hintSet_of_unpin hk hb) (by decide)
  case pin =>
    intro r s h hk hb
    exact ⟨fun hn => exec_dspHintSet h (fun sb outs => hintSet_of_pin_full hk hb hn) (by decide),
      fun hn hw => exec_dspHintSet h (fun sb outs => hintSet_of_pin_wide hk hb rfl hn hw) (by decide),
      fun hn hw ho => exec_dspHintSet (e := fun d => pinFetch (queueMove _ (some (_, groupW d _, bestSet (pinned _ d) _ _ _))
        0 0 0 3 (pinned _ d))) h (fun sb outs => hintSet_of_pin_narrow hk hb rfl hn hw ho) (by decide)⟩
  case prefer => exact fun r s h hk => exec_dspHintSet h (fun sb outs => hintSet_of_prefer hk) (by decide)
  case avoid =>
    intro r s h hk
    exact ⟨fun hb => exec_dspHintSet h (fun sb outs => hintSet_of_avoid_cleared hk hb) (by decide),
      fun hb hn => exec_dspHintSet h (fun sb outs => hintSet_of_avoid hk hb hn) (by decide),
      fun hb hn hc => exec_dspHintSet h (fun sb outs => hintSet_of_avoid_full hk hb hn hc) (by decide)⟩
  case latency =>
    intro r s h hk
    exact ⟨fun hb hv hn => exec_dspHintSet h (fun sb outs => hintSet_of_class_full hk hb hv hn) (by decide),
      fun hn => exec_dspHintSet h (fun sb outs => hintSet_of_class_taken hk hn) (by decide)⟩
  case hint => exact answers_intro (fun _ _ => rfl) (fun _ _ _ => rfl) (fun _ _ _ => rfl)
  case tableWrite => exact sets_intro (fun _ _ => rfl) (fun _ _ _ => rfl) (fun _ _ _ => rfl)
  case tableRead => exact answers_intro (fun _ _ => rfl) (fun _ _ _ => rfl) (fun _ _ _ => rfl)
  case tableCommit => exact starts_intro (fun _ _ => rfl) (fun _ _ _ => rfl) (fun _ _ _ => rfl)
  case paramWrite => exact sets_intro (fun _ _ => rfl) (fun _ _ _ => rfl) (fun _ _ _ => rfl)
  case paramRead =>
    refine answers_intro (fun _ _ => rfl) (fun o d r => ?_) (fun _ _ _ => rfl)
    unfold cmdDspParamRead
    dsimp only
    cases d.dsp.prmNext <;> rfl
  case swap =>
    exact fun p tag x s hc => ⟨fun ht => run_eq_next_put (tableSwap_of_early hc ht),
      fun ht hg => run_eq_next_put (tableSwap_of_unchanged hc ht hg)⟩
  case start =>
    exact fun id m s hm => ⟨fun hp hb hl hn hs => run_eq_next_put (moveStart_of_free hm hp hb hl hn hs),
      fun h => run_eq_next_put (moveStart_of_held hm h)⟩
  case switchover =>
    exact fun id m s hm hp hc => ⟨fun k w b ho => run_eq_next_put (switchover_of_object hm hp hc ho),
      fun ho => run_eq_next_put (switchover_of_position hm hp hc ho)⟩
  case drain => exact fun id m s hm hp hd => run_eq_next_put (drainComplete_of_drained hm hp hd)
  case width =>
    intro k g s h1 h2 h3 h4 h5 h6
    exact ⟨fun ha hw => run_eq_next_put (stripeChange_of_wide ⟨h1, h2, h3, h4, h5, h6⟩ ha hw),
      fun ha hu hs => run_eq_next_put (stripeChange_of_narrow ⟨h1, h2, h3, h4, h5, h6⟩ ha hu hs)⟩
  case relief =>
    intro n s hn hr ha
    have h := reliefStart_of_due (o := s.otp) hn hr ha
    refine ⟨fun hg => run_eq_next_put (h.trans ?_), fun g e hg he => run_eq_next_put (h.trans ?_),
      fun g hg he => run_eq_next_put (h.trans ?_)⟩
    · rw [show reliefGroups (reliefOn n s.dev) n = [] from hg, reliefWalk_nil]
      rfl
    · rw [show reliefGroups (reliefOn n s.dev) n = [g] from hg, reliefWalk_of_relieved (d := reliefOn n s.dev) he]
      rfl
    · rw [show reliefGroups (reliefOn n s.dev) n = [g] from hg, reliefWalk_of_full (d := reliefOn n s.dev) he]
      rfl
  case reliefEnd =>
    intro n s hr hc
    have h := reliefEnd_of_calm (o := s.otp) hr hc
    refine ⟨fun hm => run_eq_next_put (h.trans ?_), fun p g hm hg => run_eq_next_put (h.trans ?_)⟩
    · rw [hm]
      rfl
    · rw [hm, List.foldl_cons, List.foldl_nil, hg]
      rfl
  case idle => exact fun n s hs hn hi hu hc => run_eq_next_put (idleDown_of_idle hs hn hi hu hc)

end Sys2Proof.Machine
end

section

/-! Containers and slots: blocks as the digits of one number, and the code of a slot. -/

namespace Sys2Proof.Machine

theorem beBytes_foldl (n v a : Nat) :
    (beBytes n v).foldl (fun a x => a * 256 + x.toNat) a = a * 2 ^ (8 * n) + v % 2 ^ (8 * n) := by
  induction n generalizing a with
  | zero => simp [beBytes, Nat.mod_one]
  | succ n ih =>
    have hm : v % 2 ^ (8 * (n + 1)) = v % 2 ^ (8 * n) + 2 ^ (8 * n) * (v / 2 ^ (8 * n) % 2 ^ 8) := by
      rw [Nat.mul_succ 8 n, Nat.pow_add, Nat.mod_mul]
    rw [beBytes, List.foldl_cons, ih, hm, BitVec.toNat_ofNat, Nat.mul_succ 8 n, Nat.pow_add, Nat.add_mul, Nat.mul_assoc,
      Nat.mul_comm 256, Nat.mul_comm (v / 2 ^ (8 * n) % 2 ^ 8), Nat.add_assoc, Nat.add_comm (2 ^ (8 * n) * _)]

/-- A number written in n bytes reads back modulo their range. -/
theorem beNat_beBytes (n v : Nat) : beNat (beBytes n v) = v % 2 ^ (8 * n) := by
  rw [beNat, beBytes_foldl, Nat.zero_mul, Nat.zero_add]

theorem length_beBytes (n v : Nat) : (beBytes n v).length = n := by
  induction n with
  | zero => rfl
  | succ n ih => simp [beBytes, ih]

/-- Blocks as the digits of one number, the first block the highest digit. -/
def blocksNat (bs : List (BitVec 257)) : Nat := bs.foldl (fun a b => a * 2 ^ 257 + b.toNat) 0

theorem blocksNat_concat (bs : List (BitVec 257)) (b : BitVec 257) :
    blocksNat (bs ++ [b]) = blocksNat bs * 2 ^ 257 + b.toNat := by
  rw [blocksNat, List.foldl_append]
  rfl

/-- Induction on a list from its end. -/
theorem snoc_induction {α : Type} {p : List α → Prop} (nil : p []) (snoc : ∀ l a, p l → p (l ++ [a])) (l : List α) : p l := by
  rw [← l.reverse_reverse]
  induction l.reverse with
  | nil => exact nil
  | cons a t ih =>
    rw [List.reverse_cons]
    exact snoc _ _ ih

theorem blocksNat_lt (bs : List (BitVec 257)) : blocksNat bs < 2 ^ (257 * bs.length) := by
  induction bs using snoc_induction with
  | nil => exact Nat.one_pos
  | snoc bs b ih =>
    have hb := b.isLt
    rw [blocksNat_concat, List.length_append, List.length_singleton, Nat.mul_add, Nat.pow_add]
    calc blocksNat bs * 2 ^ 257 + b.toNat < (blocksNat bs + 1) * 2 ^ 257 := by omega
      _ ≤ 2 ^ (257 * bs.length) * 2 ^ (257 * 1) := Nat.mul_le_mul_right _ ih

/-- Dropping the digits of the last blocks leaves those of the first. -/
theorem blocksNat_div (as bs : List (BitVec 257)) : blocksNat (as ++ bs) / 2 ^ (257 * bs.length) = blocksNat as := by
  induction bs using snoc_induction with
  | nil => simp
  | snoc bs b ih =>
    rw [← List.append_assoc, blocksNat_concat, List.length_append, List.length_singleton, Nat.mul_add, Nat.add_comm (257 * _),
      Nat.mul_one, Nat.pow_add, ← Nat.div_div_eq_div_mul, Nat.mul_comm (blocksNat _), Nat.mul_add_div (Nat.two_pow_pos 257),
      Nat.div_eq_of_lt b.isLt, Nat.add_zero, ih]

/-- The digit of block i. -/
theorem blocksNat_digit {bs : List (BitVec 257)} {i : Nat} (hi : i < bs.length) :
    BitVec.ofNat 257 (blocksNat bs / 2 ^ (257 * (bs.length - (i + 1)))) = bs[i] := by
  have hs : bs = bs.take i ++ [bs[i]] ++ bs.drop (i + 1) := by simp
  have hl : (bs.drop (i + 1)).length = bs.length - (i + 1) := List.length_drop
  have hd := blocksNat_div (bs.take i ++ [bs[i]]) (bs.drop (i + 1))
  rw [← hs, hl] at hd
  rw [hd, blocksNat_concat]
  exact BitVec.eq_of_toNat_eq (by rw [BitVec.toNat_ofNat, Nat.mul_add_mod_self_right, Nat.mod_eq_of_lt bs[i].isLt])

theorem beNat_packBlocks {n : Nat} {bs : List (BitVec 257)} (h : 257 * bs.length ≤ n * 8128) :
    beNat (packBlocks n bs) = blocksNat bs * 2 ^ (n * 8128 - 257 * bs.length) := by
  rw [packBlocks, beNat_beBytes, show 8 * (n * 1016) = 257 * bs.length + (n * 8128 - 257 * bs.length) by omega, Nat.pow_add]
  exact Nat.mod_eq_of_lt (Nat.mul_lt_mul_of_pos_right (blocksNat_lt bs) (Nat.two_pow_pos _))

theorem unpackBlocks_packBlocks {n : Nat} {bs : List (BitVec 257)} (h : bs.length = ethBlocks n) :
    unpackBlocks n (packBlocks n bs) = bs := by
  have hr : 257 * bs.length ≤ n * 8128 := by
    rw [h, ethBlocks]
    omega
  refine List.ext_getElem (by simp [unpackBlocks, h]) fun i _ hi => ?_
  have hx : n * 8128 - 257 * (i + 1) = (n * 8128 - 257 * bs.length) + 257 * (bs.length - (i + 1)) := by omega
  simp only [unpackBlocks, List.getElem_map, List.getElem_range]
  rw [beNat_packBlocks hr, hx, Nat.pow_add, Nat.mul_comm (blocksNat bs),
    Nat.mul_div_mul_left _ _ (Nat.two_pow_pos _)]
  exact blocksNat_digit hi

theorem slot_codes {code : Nat} (hc : code < 3) : code = 0 ∨ code = 1 ∨ code = 2 := by omega

theorem slotPayload_slotBytes {code : Nat} (hc : code < 3) (data : Bytes) : slotPayload code (slotBytes code data) = data := by
  obtain rfl | rfl | rfl := slot_codes hc <;> rfl

theorem length_slotBytes {code : Nat} {data : Bytes} (hc : code < 3) (hd : data.length = slotData code) :
    (slotBytes code data).length = 1018 := by
  obtain rfl | rfl | rfl := slot_codes hc <;> simp [slotBytes, slotData, zeros, length_beBytes] at hd ⊢ <;> omega

theorem beAt_slotBytes {code : Nat} (hc : code < 3) (data : Bytes) : beAt (slotBytes code data) 0 1 = code * 84 := by
  obtain rfl | rfl | rfl := slot_codes hc <;> rfl

/-- A code that stands three times is read from any two copies that are whole. -/
theorem jcVote_of_damaged : ∀ (code : Fin 3) (bad : Fin 4),
    (jcVote (code.val * 84 - code.val * 64 + bad.val * 64)).1 = code.val
      ∧ (jcVote (code.val * 84 - code.val * 16 + bad.val * 16)).1 = code.val
      ∧ (jcVote (code.val * 84 - code.val * 4 + bad.val * 4)).1 = code.val := by decide

/-- Settles O25: the blocks of a container are the digits of its number, and a slot carries its code three times. -/
theorem payloadComesBack : Obligations.PayloadComesBack := by
  unfold Obligations.PayloadComesBack
  refine ⟨fun n bs h => unpackBlocks_packBlocks h, fun code data hc hd =>
    ⟨slotPayload_slotBytes hc data, length_slotBytes hc hd, ?_⟩, ?_⟩
  · rw [beAt_slotBytes hc]
    obtain rfl | rfl | rfl := slot_codes hc <;> rfl
  · intro code bad hc hb
    exact jcVote_of_damaged ⟨code, hc⟩ ⟨bad, hb⟩

end Sys2Proof.Machine
end

section

/-! Shares and masks: XOR with one value on both sides leaves what two shares combine to. -/

namespace Sys2Proof.Machine

theorem xor_masked {w : Nat} (a b m : BitVec w) : (a ^^^ m) ^^^ (b ^^^ m) = a ^^^ b := by
  rw [BitVec.xor_comm b, ← BitVec.xor_assoc, BitVec.xor_assoc a, BitVec.xor_self, BitVec.xor_zero]

theorem xor_inverted {w : Nat} (a b : BitVec w) : (~~~a) ^^^ (~~~b) = a ^^^ b := by
  rw [← BitVec.not_xor_left, ← BitVec.not_xor_right, BitVec.not_not]

theorem zipWith_xor_masked {w : Nat} {a b m : List (BitVec w)} (hab : a.length = b.length) (hm : b.length ≤ m.length) :
    List.zipWith (· ^^^ ·) (List.zipWith (· ^^^ ·) a m) (List.zipWith (· ^^^ ·) b m) = List.zipWith (· ^^^ ·) a b := by
  refine List.ext_getElem (by simp; omega) fun i h1 h2 => ?_
  simp only [List.getElem_zipWith]
  exact xor_masked _ _ _

theorem xorBytes_masked {a b m : Bytes} (hab : a.length = b.length) (hm : b.length ≤ m.length) :
    xorBytes (xorBytes a m) (xorBytes b m) = xorBytes a b :=
  zipWith_xor_masked hab hm

theorem xorBytes_inverted (a b : Bytes) : xorBytes (a.map (~~~ ·)) (b.map (~~~ ·)) = xorBytes a b := by
  refine List.ext_getElem (by simp [xorBytes]) fun i h1 h2 => ?_
  simp only [xorBytes, List.getElem_zipWith, List.getElem_map]
  exact xor_inverted _ _

/-- XOR with one key stream twice gives the text back. -/
theorem xorBytes_cancel {a k : Bytes} (h : a.length ≤ k.length) : xorBytes (xorBytes a k) k = a := by
  refine List.ext_getElem (by simp [xorBytes]; omega) fun i h1 h2 => ?_
  simp [xorBytes, BitVec.xor_assoc]

theorem length_blockBytes (x : Block) : (blockBytes x).length = 16 := length_beBytes 16 _

theorem length_blocksOf (n : Nat) (b : Bytes) : (blocksOf n b).length = n := by
  induction n generalizing b with
  | zero => rfl
  | succ n ih => simp [blocksOf, ih]

/-! Contexts of a slice. -/

theorem length_masks (x : Slice) (n : Nat) : (x.masks n).1.length = n := by simp [Slice.masks]

theorem remask_shares (x : Slice) {a b : Bytes} (h : a.length = b.length) :
    xorBytes (x.remask a b).1.1 (x.remask a b).1.2 = xorBytes a b :=
  xorBytes_masked h (by rw [length_masks]; omega)

theorem remaskBlocks_shares (x : Slice) {a b : List Block} (h : a.length = b.length) :
    List.zipWith (· ^^^ ·) (x.remaskBlocks a b).1.1 (x.remaskBlocks a b).1.2 = List.zipWith (· ^^^ ·) a b :=
  zipWith_xor_masked h (by rw [length_blocksOf]; omega)

/-- The SA of a context and the secrets that its shares combine to. -/
def Ctx.secrets (c : Ctx) : Nat × Bytes × Bytes × List Block :=
  (c.sa, xorBytes c.key1 c.key2, xorBytes c.auth1 c.auth2, List.zipWith (· ^^^ ·) c.hash1 c.hash2)

/-- The two shares of each secret have one length. -/
def Ctx.Even (c : Ctx) : Prop :=
  c.key1.length = c.key2.length ∧ c.auth1.length = c.auth2.length ∧ c.hash1.length = c.hash2.length

theorem freshCtx_secrets (x : Slice) {c : Ctx} (h : c.Even) : (x.freshCtx c).1.secrets = c.secrets := by
  obtain ⟨hk, ha, hh⟩ := h
  exact Prod.ext rfl (Prod.ext (remask_shares x hk) (Prod.ext (remask_shares _ ha) (remaskBlocks_shares _ hh)))

theorem freshAll_secrets (x : Slice) {cs : List Ctx} (h : ∀ c ∈ cs, c.Even) :
    (x.freshAll cs).1.map Ctx.secrets = cs.map Ctx.secrets := by
  induction cs generalizing x with
  | nil => rfl
  | cons c cs ih =>
    obtain ⟨hc, hs⟩ := List.forall_mem_cons.mp h
    rw [Slice.freshAll, List.map_cons, List.map_cons, freshCtx_secrets x hc, ih _ hs]

theorem rerandomise_eq (n : Nat) (o : Otp) (d : Dev) : rerandomise n o d =
    setSlice n { ((sliceOf d n).freshAll (sliceOf d n).ctxs).2 with
      ctxs := ((sliceOf d n).freshAll (sliceOf d n).ctxs).1 } d := rfl

theorem rerandomise_secrets (n : Nat) (o : Otp) {d : Dev} (h : ∀ c ∈ (sliceOf d n).ctxs, c.Even) :
    (sliceOf (rerandomise n o d) n).ctxs.map Ctx.secrets = (sliceOf d n).ctxs.map Ctx.secrets := by
  rw [rerandomise_eq, sliceOf_setSlice_same]
  exact freshAll_secrets (sliceOf d n) h

theorem rerandomise_sliceOf (n : Nat) (o : Otp) {m : Nat} (hm : m ≠ n) (d : Dev) :
    sliceOf (rerandomise n o d) m = sliceOf d m := by
  rw [rerandomise_eq, sliceOf_setSlice_other n m hm]

theorem rerandomise_kc (n : Nat) (o : Otp) (d : Dev) : (rerandomise n o d).kc = d.kc := rfl

/-! Slots of the key store. -/

theorem length_flatMap_blockBytes {α : Type} (l : List α) (f : α → Block) :
    (l.flatMap (fun i => blockBytes (f i))).length = 16 * l.length := by
  induction l with
  | nil => rfl
  | cons a l ih => simp only [List.flatMap_cons, List.length_append, length_blockBytes, ih, List.length_cons]; omega

theorem length_generate (x : DrbgKey) (n : Nat) : (x.generate n).1.length = n := by
  simp only [DrbgKey.generate, List.length_take, length_flatMap_blockBytes, List.length_range, blockCount]
  omega

theorem length_keyBytes (n : Nat) (d : Dev) : (keyBytes n d).1.length = n := by
  unfold keyBytes random
  split
  case isTrue h => exact h.symm
  case isFalse => exact length_generate _ n

theorem keyBytes_only (n : Nat) (d : Dev) : ∃ sl, (keyBytes n d).2 = { d with sl := sl } := by
  obtain ⟨x, hx⟩ := random_only false n d
  exact ⟨_, hx⟩

/-- The number of a slot, its key and what the key may be used for. -/
def slotSecrets (p : Nat × Slot) : Nat × Bytes × Nat × Nat × Nat := (p.1, p.2.key, p.2.typ, p.2.owner, p.2.attrs)

/-- Both shares of a slot with one mask, and inverted where `inv`. -/
def maskShare (inv : Bool) (m b : Bytes) : Bytes := if inv then (xorBytes b m).map (~~~ ·) else xorBytes b m

theorem maskShare_shares {inv : Bool} {m a b : Bytes} (hab : a.length = b.length) (hm : b.length ≤ m.length) :
    xorBytes (maskShare inv m a) (maskShare inv m b) = xorBytes a b := by
  cases inv with
  | false => exact xorBytes_masked hab hm
  | true => exact (xorBytes_inverted _ _).trans (xorBytes_masked hab hm)

theorem remaskSlot_eq (inv : Bool) (acc : Table Slot × Dev) (p : Nat × Slot) : remaskSlot inv acc p =
    let r := keyBytes p.2.share1.length acc.2
    (acc.1 ++ [(p.1, { p.2 with share1 := maskShare inv r.1 p.2.share1, share2 := maskShare inv r.1 p.2.share2 })],
      r.2) := rfl

theorem slotSecrets_masked {inv : Bool} {m : Bytes} {p : Nat × Slot} (h : p.2.share1.length = p.2.share2.length)
    (hm : p.2.share1.length = m.length) :
    slotSecrets (p.1, { p.2 with share1 := maskShare inv m p.2.share1, share2 := maskShare inv m p.2.share2 })
      = slotSecrets p := by
  simp only [slotSecrets, Slot.key, maskShare_shares h (Nat.le_of_eq (h.symm.trans hm))]

theorem remaskSlots (inv : Bool) {ps : List (Nat × Slot)} (h : ∀ p ∈ ps, p.2.share1.length = p.2.share2.length)
    (acc : Table Slot × Dev) :
    (ps.foldl (remaskSlot inv) acc).1.map slotSecrets = acc.1.map slotSecrets ++ ps.map slotSecrets
      ∧ ∃ sl, (ps.foldl (remaskSlot inv) acc).2 = { acc.2 with sl := sl } := by
  induction ps generalizing acc with
  | nil => exact ⟨(List.append_nil _).symm, acc.2.sl, rfl⟩
  | cons p ps ih =>
    obtain ⟨hp, hs⟩ := List.forall_mem_cons.mp h
    obtain ⟨hmap, sl, hdev⟩ := ih hs (remaskSlot inv acc p)
    obtain ⟨sl', hone⟩ := keyBytes_only p.2.share1.length acc.2
    refine ⟨?_, sl, ?_⟩
    · rw [List.foldl_cons, hmap, remaskSlot_eq, List.map_append, List.map_cons, List.map_nil,
        slotSecrets_masked hp (length_keyBytes _ _).symm, List.append_assoc]
      rfl
    · rw [List.foldl_cons, hdev, remaskSlot_eq, hone]

/-- Masking the slots of one table, each with its own value, from the device they stand in. -/
theorem remaskSlots_secrets (inv : Bool) {ps : Table Slot} (h : ∀ p ∈ ps, p.2.share1.length = p.2.share2.length) (d : Dev) :
    ∃ (qs : Table Slot) (sl : _), ps.foldl (remaskSlot inv) ([], d) = (qs, { d with sl := sl })
      ∧ qs.map slotSecrets = ps.map slotSecrets := by
  obtain ⟨hmap, sl, hdev⟩ := remaskSlots inv h ([], d)
  exact ⟨_, sl, Prod.ext rfl hdev, hmap⟩

theorem remask_keeps (o : Otp) {d : Dev} (h : ∀ p ∈ d.ks.flash ++ d.ks.ram, p.2.share1.length = p.2.share2.length) :
    (remask o d).ks.ram.map slotSecrets = d.ks.ram.map slotSecrets
      ∧ (remask o d).ks.flash.map slotSecrets = d.ks.flash.map slotSecrets ∧ (remask o d).kc = d.kc := by
  have hf : ∀ p ∈ d.ks.flash, p.2.share1.length = p.2.share2.length := fun p hp => h p (List.mem_append_left _ hp)
  have hr : ∀ p ∈ d.ks.ram, p.2.share1.length = p.2.share2.length := fun p hp => h p (List.mem_append_right _ hp)
  unfold remask
  split
  case isTrue => exact ⟨rfl, rfl, rfl⟩
  case isFalse =>
    generalize decide (d.ks.remasks % 100 = 99) = inv
    obtain ⟨fs, sl, hfs, hfm⟩ := remaskSlots_secrets inv hf d
    cases hu : d.ks.unwrapped with
    | false =>
      obtain ⟨rs, sl', hrs, hrm⟩ := remaskSlots_secrets inv hr d
      simp only [Bool.false_eq_true, if_false, hrs]
      exact ⟨hrm, trivial, trivial⟩
    | true =>
      obtain ⟨rs, sl', hrs, hrm⟩ := remaskSlots_secrets (ps := d.ks.ram) inv hr { d with sl := sl }
      simp only [if_true, hfs, hrs]
      exact ⟨hrm, hfm, trivial⟩

/-- Settles O27: both shares take one fresh value, of their own length, and what they combine to stays. -/
theorem renewedSharesKeepKeys : Obligations.RenewedSharesKeepKeys := by
  unfold Obligations.RenewedSharesKeepKeys
  constructor
  · intro n s h
    have he : exec (.contextRerandomise n) s = .next (s.put (rerandomise n s.otp s.dev)) :=
      run_eq_next_put (f := rerandomise n) rfl
    have hs := rerandomise_secrets n s.otp h
    have ho := fun m hm => rerandomise_sliceOf n s.otp (m := m) hm s.dev
    have hk := rerandomise_kc n s.otp s.dev
    generalize rerandomise n s.otp s.dev = d at he hs ho hk
    exact ⟨_, he, hs, ho, hk⟩
  · intro s h
    obtain ⟨d, hd⟩ : ∃ d, remask s.otp s.dev = d := ⟨_, rfl⟩
    have hkeep := remask_keeps s.otp h
    rw [hd] at hkeep
    obtain ⟨hr, hf, hk⟩ := hkeep
    exact ⟨_, run_eq_next_put (f := remask) hd, hr, hf, hk, rfl, rfl, rfl⟩

end Sys2Proof.Machine
end

section

/-! Lines of the Granary: nonces, counters, and what a stored line gives back. -/

namespace Sys2Proof.Machine

theorem append_inj {v w : Nat} {a a' : BitVec v} {b b' : BitVec w} (h : a ++ b = a' ++ b') : a = a' ∧ b = b' := by
  have hr : (a ++ b).extractLsb' 0 w = (a' ++ b').extractLsb' 0 w := by rw [h]
  have hl : (a ++ b).extractLsb' w v = (a' ++ b').extractLsb' w v := by rw [h]
  rw [BitVec.extractLsb'_append_eq_right, BitVec.extractLsb'_append_eq_right] at hr
  rw [BitVec.extractLsb'_append_eq_left, BitVec.extractLsb'_append_eq_left] at hl
  exact ⟨hl, hr⟩

theorem lineNonce_inj {g g' : BitVec 4} {p p' : BitVec 26} {l l' : BitVec 6} {m m' : BitVec 64} {n n' : BitVec 7}
    {b b' : BitVec 2} (h : lineNonce g p l m n b = lineNonce g' p' l' m' n' b') :
    g = g' ∧ p = p' ∧ l = l' ∧ m = m' ∧ n = n' ∧ b = b' := by
  unfold lineNonce at h
  obtain ⟨h, hb⟩ := append_inj h
  obtain ⟨h, _⟩ := append_inj h
  obtain ⟨h, hn⟩ := append_inj h
  obtain ⟨h, hm⟩ := append_inj h
  obtain ⟨h, hl⟩ := append_inj h
  obtain ⟨hg, hp⟩ := append_inj h
  exact ⟨hg, hp, hl, hm, hn, hb⟩

/-! Counters. -/

theorem write_of_old {p : PageCtr} (h : p.old = true) (line : Nat) : p.write line = (p.renew.bump line, 65) := by
  rw [PageCtr.write, h]
  rfl

theorem write_of_full {line : Nat} {p : PageCtr} (h : p.old = false) (hm : 127 ≤ tgetD p.minors line 0) :
    p.write line = (p.renew, 64) := by
  rw [PageCtr.write, h, if_pos hm]
  rfl

theorem write_of_room {line : Nat} {p : PageCtr} (h : p.old = false) (hm : tgetD p.minors line 0 < 127) :
    p.write line = (p.bump line, 1) := by
  rw [PageCtr.write, h, if_neg (Nat.not_le.mpr hm)]
  rfl

theorem major_lt_renew {p : PageCtr} (h : p.major.toNat < 2 ^ 64 - 1) : p.major.toNat < p.renew.major.toNat := by
  have hn : p.renew.major.toNat = p.major.toNat + 1 := by
    rw [PageCtr.renew, BitVec.toNat_add]
    exact Nat.mod_eq_of_lt (by simp; omega)
  omega

/-- One write of a line, by what the page's counters ask for. -/
theorem write_cases (line : Nat) (p : PageCtr) :
    p.write line = (p.renew.bump line, 65) ∨ p.write line = (p.renew, 64)
      ∨ p.old = false ∧ tgetD p.minors line 0 < 127 ∧ p.write line = (p.bump line, 1) := by
  cases h : p.old with
  | true => exact .inl (write_of_old h line)
  | false =>
    rcases Nat.lt_or_ge (tgetD p.minors line 0) 127 with hm | hm
    · exact .inr (.inr ⟨rfl, hm, write_of_room h hm⟩)
    · exact .inr (.inl (write_of_full h hm))

theorem write_moves_counters (line : Nat) {p : PageCtr} (h : p.major.toNat < 2 ^ 64 - 1) :
    let q := (p.write line).1
    (q.old = false ∨ q.old = p.old)
      ∧ (p.major.toNat < q.major.toNat ∨ (q.major = p.major ∧ tgetD p.minors line 0 < tgetD q.minors line 0))
      ∧ (p.major.toNat < q.major.toNat ∨ ∀ l, l ≠ line → tgetD q.minors l 0 = tgetD p.minors l 0) := by
  have hj := major_lt_renew h
  rcases write_cases line p with hw | hw | ⟨_, _, hw⟩ <;> rw [hw]
  · exact ⟨.inl rfl, .inl hj, .inl hj⟩
  · exact ⟨.inl rfl, .inl hj, .inl hj⟩
  · exact ⟨.inr rfl, .inr ⟨rfl, by rw [PageCtr.bump, tgetD_tset_same]; omega⟩,
      .inr fun l hl => tgetD_tset_other _ hl _ _⟩

theorem write_keeps_minor_range (line : Nat) (p : PageCtr) : tgetD (p.write line).1.minors line 0 ≤ 127 := by
  rcases write_cases line p with hw | hw | ⟨_, hm, hw⟩ <;> rw [hw]
  · rw [PageCtr.bump, tgetD_tset_same]
    exact Nat.le_of_ble_eq_true rfl
  · exact Nat.zero_le _
  · rw [PageCtr.bump, tgetD_tset_same]
    omega

/-! Stored lines. -/

theorem length_aes (key block : Bytes) : (aes key block).length = 16 := length_blockBytes _

/-- The cipher of a line undoes itself. -/
theorem lineCipher_lineCipher {plain : Bytes} (h : plain.length = 64) (ke : Bytes) (nonce : BitVec 2 → BitVec 128) :
    lineCipher ke nonce (lineCipher ke nonce plain) = plain :=
  xorBytes_cancel (by simp [length_aes, h])

theorem storedLine_storedLine {plain : Bytes} (h : plain.length = 64) (key : Bytes) (g pfn line : Nat) (p : PageCtr) :
    (storedLine key g pfn line p (storedLine key g pfn line p plain).1).1 = plain :=
  lineCipher_lineCipher h _ _

theorem put_lines (g : Nat) (r : Region) (line : Nat) (plain : Bytes) (p : PageFrame) :
    tget (p.put g r line plain).lines line = some (storedLine (r.keyOf p.ctr) g p.pfn line p.ctr plain) :=
  tget_tset_same _ _ _

theorem plain_put {plain : Bytes} (h : plain.length = 64) (g : Nat) (r : Region) (line : Nat) (p : PageFrame) :
    (p.put g r line plain).plain g r line = plain := by
  rw [PageFrame.plain, put_lines]
  exact storedLine_storedLine h _ _ _ _ _

theorem verifies_put {plain : Bytes} (h : plain.length = 64) (g : Nat) (r : Region) (line : Nat) (p : PageFrame) :
    (p.put g r line plain).verifies g r line = true := by
  rw [PageFrame.verifies, put_lines, plain_put h]
  exact beq_self_eq_true _

theorem renewAt_pfn (g : Nat) (r : Region) (pfn : Nat) (p : PageFrame) : (p.renewAt g r pfn).pfn = pfn := by
  unfold PageFrame.renewAt
  exact List.foldlRecOn (motive := fun q : PageFrame => q.pfn = pfn) _ _ rfl fun _ hq _ _ => hq

theorem frameWrite_pfn (g : Nat) (r : Region) (line : Nat) (bytes : Bytes) (p : PageFrame) :
    (p.write g r line bytes).1.pfn = p.pfn := by
  change (if (p.ctr.write line).2 = 1 then p else p.renewAt g r p.pfn).pfn = p.pfn
  split
  · rfl
  · exact renewAt_pfn ..

/-- Settles O34: a nonce is the concatenation of what it names, every branch of a write moves a counter up, and the
cipher of a line undoes itself. -/
theorem lineNoncesNeverRepeat : Obligations.LineNoncesNeverRepeat := by
  unfold Obligations.LineNoncesNeverRepeat
  refine ⟨fun _ _ _ _ _ _ _ _ _ _ _ _ h => lineNonce_inj h, fun line _ h => write_moves_counters line h,
    fun line p _ => write_keeps_minor_range line p, fun g line r bytes p h => ?_⟩
  exact ⟨frameWrite_pfn g r line bytes p, rfl, plain_put h .., verifies_put h ..⟩

end Sys2Proof.Machine
end

section

/-! The places that hold the key of an SA, and what destroying the SA leaves in them. -/

namespace Sys2Proof.Machine

/-- Two devices hold the same SAs, slices and context cache. -/
def SameKeyPlaces (d e : Dev) : Prop := e.kc = d.kc ∧ e.sl = d.sl ∧ e.dsp.cache = d.dsp.cache

theorem SameKeyPlaces.refl (d : Dev) : SameKeyPlaces d d := ⟨rfl, rfl, rfl⟩

theorem SameKeyPlaces.trans {d e f : Dev} (h : SameKeyPlaces d e) (k : SameKeyPlaces e f) : SameKeyPlaces d f :=
  ⟨k.1.trans h.1, k.2.1.trans h.2.1, k.2.2.trans h.2.2⟩

theorem writeMapped_only (g n : Nat) (plain : Bytes) (d : Dev) : ∃ grn, writeMapped g n plain d = { d with grn := grn } :=
  ⟨_, rfl⟩

theorem writeContextLine_only (sa half : Nat) (d : Dev) : ∃ grn, writeContextLine sa half d = { d with grn := grn } :=
  writeMapped_only ..

theorem writeContext_only (sa : Nat) (d : Dev) : ∃ grn, writeContext sa d = { d with grn := grn } := by
  obtain ⟨g, hg⟩ := writeContextLine_only sa 0 d
  obtain ⟨g', hg'⟩ := writeContextLine_only sa 1 { d with grn := g }
  exact ⟨g', by rw [writeContext, hg, hg']⟩

theorem gleanFinish_keyPlaces (b : Bool) (g : Option Glean) (d : Dev) : SameKeyPlaces d (gleanFinish b g d) := by
  cases g with
  | none => exact .refl d
  | some g =>
    unfold gleanFinish
    dsimp only
    split
    · exact ⟨rfl, rfl, rfl⟩
    · rcases withHw_cases (fun d' => { d' with tel := { d.tel with
        lostR7 := satInc 16 d.tel.lostR7, lostRecords := satInc 16 d.tel.lostRecords, event := d.tel.event ||| 4 } }) d
        with h | h <;> rw [h]
      · exact ⟨rfl, rfl, rfl⟩
      · exact ⟨by rw [raise_kc], by rw [raise_sl], by rw [raise_dsp]⟩

/-- A frame that is gone is counted and its record finished. -/
def missedFrame (d : Dev) (f : Flight) : Dev :=
  gleanFinish true f.glean { d with dsp := { d.dsp with missDrops := d.dsp.missDrops + 1 } }

theorem missedFrame_keyPlaces (d : Dev) (f : Flight) : SameKeyPlaces d (missedFrame d f) :=
  .trans ⟨rfl, rfl, rfl⟩ (gleanFinish_keyPlaces true f.glean _)

theorem missedFrames_keyPlaces (gone : List Flight) (d : Dev) : SameKeyPlaces d (gone.foldl missedFrame d) :=
  List.foldlRecOn (motive := SameKeyPlaces d) _ _ (.refl d) fun e he f _ => he.trans (missedFrame_keyPlaces e f)

theorem dropMissing_keyPlaces (i : Nat) (d : Dev) : SameKeyPlaces d (dropMissing i d) :=
  .trans ⟨rfl, rfl, rfl⟩ (missedFrames_keyPlaces _ _)

theorem keep_ctxs (x : Slice) (p : Ctx → Bool) : (x.keep p).ctxs = x.ctxs.filter p := by
  unfold Slice.keep
  dsimp only
  split
  case isTrue h =>
    refine (List.filter_eq_self.mpr fun c hc => ?_).symm
    simpa using List.filter_eq_nil_iff.mp (List.isEmpty_iff.mp h) c hc
  case isFalse => rfl

theorem eraseCtx_ctxs {sa n : Nat} {d : Dev} {c : Ctx} (h : c ∈ (sliceOf (eraseCtx sa d) n).ctxs) : c.sa ≠ sa := by
  have hs : sliceOf (eraseCtx sa d) n = ((tget d.sl.slices n).map (fun x => x.keep (fun c => c.sa != sa))).getD Slice.init :=
    congrArg (Option.getD · Slice.init) (tget_map (fun x : Slice => x.keep (fun c => c.sa != sa)) n d.sl.slices)
  rw [hs] at h
  cases ht : tget d.sl.slices n with
  | none =>
    rw [ht] at h
    exact absurd h List.not_mem_nil
  | some x =>
    rw [ht, Option.map_some, Option.getD_some, keep_ctxs] at h
    exact ne_of_beq_false (by simpa using (List.mem_filter.mp h).2)

theorem eraseCtx_cache (sa : Nat) (d : Dev) : sa ∉ (eraseCtx sa d).dsp.cache := by
  intro h
  simpa using (List.mem_filter.mp h).2

/-- The record of a destroyed SA. -/
def SaRec.destroyed (x : SaRec) : SaRec :=
  { x with state := 4, key := [], ka := [], salt := [], retireAt := none, retireMax := none }

/-- The record of an SA cleared, and its key objects as given. -/
def clearSa (i : Nat) (x : SaRec) (objs : Table KObj) (d : Dev) : Dev :=
  { d with kc := { d.kc with sas := tset d.kc.sas i x.destroyed, objs := objs } }

theorem destroySa_eq {i : Nat} {x : SaRec} {d : Dev} (h : saOf d i = some x) (hs : x.state ≠ 4) :
    ∃ objs, destroySa i d = dropMissing i (writeContext i (eraseCtx i (clearSa i x objs d))) := by
  unfold destroySa
  rw [h]
  dsimp only
  rw [if_neg hs]
  exact ⟨_, rfl⟩

theorem writeContext_keyPlaces (i : Nat) (d : Dev) : SameKeyPlaces d (writeContext i d) := by
  obtain ⟨grn, hg⟩ := writeContext_only i d
  rw [hg]
  exact ⟨rfl, rfl, rfl⟩

/-- What a destroyed SA leaves in the places of keys: its record cleared, its contexts erased. -/
theorem destroySa_keyPlaces {i : Nat} {x : SaRec} {d : Dev} (h : saOf d i = some x) (hs : x.state ≠ 4) :
    ∃ objs, SameKeyPlaces (eraseCtx i (clearSa i x objs d)) (destroySa i d) := by
  obtain ⟨objs, ho⟩ := destroySa_eq h hs
  exact ⟨objs, ho ▸ .trans (writeContext_keyPlaces i _) (dropMissing_keyPlaces i _)⟩

/-- Settles O31: the record is cleared, the contexts of every slice and the cache are filtered, and what follows leaves
them. -/
theorem destroyedAssociationKeepsNoKey : Obligations.DestroyedAssociationKeepsNoKey := by
  unfold Obligations.DestroyedAssociationKeepsNoKey
  intro i x d hx hs
  obtain ⟨objs, hkc, hsl, hcache⟩ := destroySa_keyPlaces hx hs
  refine ⟨⟨x.destroyed, ?_, rfl, rfl, rfl, rfl⟩, fun j hj => ?_, fun n c hc => ?_, ?_⟩
  · rw [saOf, hkc]
    exact tget_tset_same _ _ _
  · rw [saOf, hkc]
    exact tget_tset_other _ hj _
  · rw [sliceOf, hsl] at hc
    exact eraseCtx_ctxs hc
  · rw [hcache]
    exact eraseCtx_cache i _

end Sys2Proof.Machine
end

section

/-! Paths, egress and bring-up: the row of the Points, the queue of a free port, the instant of a swap, the next
stage of a lane. -/

namespace Sys2Proof.Machine

/-! The Points. -/

/-- An end with its claim dropped where its class asks for it. -/
def claimKept (c : Nat) (e : PathEnd) : PathEnd :=
  if c ≤ 3 then { e with accepted := 0, cand := 0, candRun := 0, prio := 0 } else e

theorem judgeEnd_eq (d : Dev) (p : PathPair) (e : PathEnd) : judgeEnd d p e =
    let c := localClass d p e
    let h := min c ((claimKept c e).accepted / 4096)
    { claimKept c e with health := h, margin := if h ≤ 4 then 0 else (claimKept c e).margin } := rfl

theorem claimKept_accepted {c : Nat} (h : c ≤ 3) (e : PathEnd) : (claimKept c e).accepted = 0 :=
  congrArg PathEnd.accepted (if_pos h)

theorem judgeEnd_bounds (d : Dev) (p : PathPair) (e : PathEnd) :
    (judgeEnd d p e).health ≤ localClass d p e
      ∧ (judgeEnd d p e).health = min (localClass d p e) ((judgeEnd d p e).accepted / 4096)
      ∧ ((judgeEnd d p e).health ≤ 4 → (judgeEnd d p e).margin = 0)
      ∧ (localClass d p e ≤ 3 → (judgeEnd d p e).accepted = 0) := by
  rw [judgeEnd_eq]
  exact ⟨Nat.min_le_left _ _, rfl, fun h => if_pos h, fun h => claimKept_accepted h e⟩

/-- The selected path as the Points sees it while HOLDOFF runs. -/
def seenEnd (p : PathPair) : PathEnd :=
  match p.holdoff with
  | some (h, _) => { p.pathEnd (p.selected == 1) with
      health := h, state := if 5 ≤ h then 2 else (p.pathEnd (p.selected == 1)).state }
  | none => p.pathEnd (p.selected == 1)

theorem seenEnd_of_calm {p : PathPair} (h : p.holdoff = none) : seenEnd p = p.pathEnd (p.selected == 1) := by
  rw [seenEnd, h]

theorem pointsRow_eq (d : Dev) (p : PathPair) : pointsRow d p =
    let s := p.pathEnd (p.selected == 1)
    let e := p.pathEnd (p.selected == 0)
    let other := 1 - p.selected
    if s.lockout && !e.lockout then some (other, 5)
    else if p.force = some other && !e.lockout then some (other, 3)
    else if p.force = some p.selected then none
    else if (seenEnd p).state ≠ 2 && e.state = 2 then some (other, 2)
    else if e.state = 2 && decide (claimOf (seenEnd p) + pfHyst d p ≤ claimOf e) then some (other, 1)
    else none := by
  unfold pointsRow seenEnd
  cases p.holdoff <;> rfl

/-- The four rows that decide, with what holds at each. -/
theorem pointsRow_cases {d : Dev} {p : PathPair} {new cause : Nat} (h : pointsRow d p = some (new, cause)) :
    let s := p.pathEnd (p.selected == 1)
    let e := p.pathEnd (p.selected == 0)
    new = 1 - p.selected ∧ (cause = 5 ∧ s.lockout = true ∧ e.lockout = false
      ∨ ¬ (s.lockout = true ∧ e.lockout = false) ∧ (cause = 3 ∧ p.force = some new ∧ e.lockout = false
        ∨ cause = 2 ∧ e.state = 2
        ∨ cause = 1 ∧ e.state = 2 ∧ claimOf (seenEnd p) + pfHyst d p ≤ claimOf e)) := by
  rw [pointsRow_eq] at h
  dsimp only at h ⊢
  split at h
  case isTrue h5 =>
    obtain ⟨rfl, rfl⟩ := Prod.ext_iff.mp (Option.some.inj h)
    simpa using h5
  case isFalse h5 =>
    have hn : ¬ ((p.pathEnd (p.selected == 1)).lockout = true ∧ (p.pathEnd (p.selected == 0)).lockout = false) := by
      simpa using h5
    split at h
    case isTrue h3 =>
      obtain ⟨rfl, rfl⟩ := Prod.ext_iff.mp (Option.some.inj h)
      exact ⟨rfl, .inr ⟨hn, .inl ⟨rfl, by simpa using h3⟩⟩⟩
    case isFalse =>
      split at h
      case isTrue => cases h
      case isFalse =>
        split at h
        case isTrue h2 =>
          obtain ⟨rfl, rfl⟩ := Prod.ext_iff.mp (Option.some.inj h)
          rw [Bool.and_eq_true, decide_eq_true_eq, decide_eq_true_eq] at h2
          exact ⟨rfl, .inr ⟨hn, .inr (.inl ⟨rfl, h2.2⟩)⟩⟩
        case isFalse =>
          split at h
          case isTrue h1 =>
            obtain ⟨rfl, rfl⟩ := Prod.ext_iff.mp (Option.some.inj h)
            rw [Bool.and_eq_true, decide_eq_true_eq, decide_eq_true_eq] at h1
            exact ⟨rfl, .inr ⟨hn, .inr (.inr ⟨rfl, h1⟩)⟩⟩
          case isFalse => cases h

theorem pathEnd_of_both {P : PathEnd → Prop} {p : PathPair} (ha : P p.a) (hb : P p.b) (x : Bool) : P (p.pathEnd x) := by
  cases x
  · exact ha
  · exact hb

/-- A function that agrees on both ends agrees on any two. -/
theorem pathEnd_agree {α : Type} {f : PathEnd → α} {p : PathPair} (h : f p.a = f p.b) (x y : Bool) :
    f (p.pathEnd x) = f (p.pathEnd y) := by
  cases x <;> cases y
  · rfl
  · exact h
  · exact h.symm
  · rfl

theorem pointsRow_of_equal {d : Dev} {p : PathPair} (hy : 0 < pfHyst d p) (hh : p.holdoff = none) (hf : p.force = none)
    (ha : p.a.lockout = false) (hb : p.b.lockout = false) (hs : p.a.state = p.b.state) (hc : claimOf p.a = claimOf p.b) :
    pointsRow d p = none := by
  have hl := fun x => pathEnd_of_both (P := fun e => e.lockout = false) ha hb x
  have hst := pathEnd_agree (f := PathEnd.state) hs (p.selected == 1) (p.selected == 0)
  have hcl := pathEnd_agree (f := claimOf) hc (p.selected == 1) (p.selected == 0)
  rw [pointsRow_eq, seenEnd_of_calm hh]
  dsimp only
  rw [hl, hl, hf, hst, hcl]
  simp only [Bool.false_and, Bool.false_eq_true, if_false, reduceCtorEq, decide_false]
  rw [if_neg (by simp), if_neg (by simp; omega)]

theorem switchPath_of_pair {i new cause : Nat} {p : PathPair} {d : Dev} (h : tget d.pth.pairs i = some p) :
    tget (switchPath i new cause d).pth.pairs i
      = some { p with selected := new, switches := satInc 16 p.switches, holdoff := none } := by
  unfold switchPath
  rw [h]
  dsimp only
  rw [emit_pth]
  exact tget_tset_same _ _ _

/-- Settles O37: a judged end is the lower of class and claim, and each row of the table that decides names its cause.
The row that a force takes asks only that the new path is not locked out, and an accepted claim falls at once: log entry
38. -/
theorem pointsFollowTheDecisionTable : Obligations.PointsFollowTheDecisionTable := by
  unfold Obligations.PointsFollowTheDecisionTable
  refine ⟨judgeEnd_bounds, fun d p new cause _ h => ?_, fun d p _ hy hh hf ha hb hs hc =>
    pointsRow_of_equal hy hh hf ha hb hs hc, fun i new cause p d h => switchPath_of_pair h⟩
  obtain ⟨hnew, hrow⟩ := pointsRow_cases h
  refine ⟨hnew, ?_, ?_, ?_, ?_, ?_⟩
  · omega
  · constructor
    · rintro rfl
      rcases hrow with ⟨_, hl⟩ | ⟨_, ⟨h3, _⟩ | ⟨h2, _⟩ | ⟨h1, _⟩⟩
      · exact hl
      · cases h3
      · cases h2
      · cases h1
    · rintro hl
      rcases hrow with ⟨h5, _⟩ | ⟨hn, _⟩
      · exact h5
      · exact absurd hl hn
  · rintro rfl
    rcases hrow with ⟨h5, _⟩ | ⟨_, ⟨_, h3⟩ | ⟨h2, _⟩ | ⟨h1, _⟩⟩
    · cases h5
    · exact h3
    · cases h2
    · cases h1
  · intro hc
    rcases hrow with ⟨h5, _⟩ | ⟨_, ⟨h3, _⟩ | ⟨_, h2⟩ | ⟨_, h1, _⟩⟩
    · omega
    · omega
    · exact h2
    · exact h1
  · rintro rfl hh
    rcases hrow with ⟨h5, _⟩ | ⟨_, ⟨h3, _⟩ | ⟨h2, _⟩ | ⟨_, _, h1⟩⟩
    · cases h5
    · cases h3
    · cases h2
    · rwa [seenEnd_of_calm hh] at h1

/-! Egress. -/

theorem find?_range_reverse_highest {P : Nat → Bool} {q n : Nat} (hq : q < n) (hP : P q = true)
    (hn : ∀ k, q < k → k < n → P k = false) : (List.range n).reverse.find? P = some q := by
  induction n with
  | zero => exact absurd hq (Nat.not_lt_zero _)
  | succ n ih =>
    rw [List.range_succ, List.reverse_append]
    rcases Nat.lt_or_ge q n with hlt | hge
    · rw [List.reverse_singleton, List.singleton_append, List.find?_cons_of_neg (by rw [hn n hlt (Nat.lt_succ_self n)]; decide)]
      exact ih hlt fun k h1 h2 => hn k h1 (Nat.lt_succ_of_lt h2)
    · obtain rfl : q = n := Nat.le_antisymm (Nat.le_of_lt_succ hq) hge
      exact List.find?_cons_of_pos hP

theorem find?_highest_of_eight {P : Nat → Bool} {q : Nat} (hq : q ≤ 7) (hP : P q = true)
    (hn : ∀ k, q < k → k ≤ 7 → P k = false) : [7, 6, 5, 4, 3, 2, 1, 0].find? P = some q :=
  find?_range_reverse_highest (n := 8) (Nat.lt_succ_of_le hq) hP fun k h1 h2 => hn k h1 (Nat.le_of_lt_succ h2)

theorem find?_none_of_eight {P : Nat → Bool} (hn : ∀ k, k ≤ 7 → P k = false) : [7, 6, 5, 4, 3, 2, 1, 0].find? P = none := by
  refine List.find?_eq_none.mpr fun k hk => ?_
  rw [hn k (by simp only [List.mem_cons, List.not_mem_nil, or_false] at hk; omega)]
  decide

/-- The device once the frames that no gate opening holds have left the queues of a line port. -/
def gatedDropped (p : Nat) (d : Dev) : Dev :=
  (List.range 8).foldl (fun d q => dropGated p q (queueOf d (lineQueue p q)).frames.length d) d

theorem egressSelect_of_line {p dt : Nat} {o : Otp} {s d : Dev} (hd : passTime dt s = d) (hp : p < 64)
    (hf : portFree d p = true) (hh : hostFrame d p = none) (hb : lineBound d p = true) : egressSelect p dt o s =
      match [7, 6, 5, 4, 3, 2, 1, 0].find? (eligible (gatedDropped p d) p) with
      | some q => startFrame (lineQueue p q) 0 p (gatedDropped p d)
      | none => gatedDropped p d := by
  unfold egressSelect
  dsimp only
  rw [hd, if_neg (by simp [hf, hh]), if_pos hp, if_neg (by simp [hb])]
  unfold gatedDropped
  generalize List.foldl _ d _ = e
  cases [7, 6, 5, 4, 3, 2, 1, 0].find? (eligible e p) <;> rfl

theorem egressSelect_of_highest {p dt q : Nat} {o : Otp} {s : Dev} (hp : p < 64) (hf : portFree (passTime dt s) p = true)
    (hh : hostFrame (passTime dt s) p = none) (hb : lineBound (passTime dt s) p = true) (hq : q ≤ 7)
    (he : eligible (gatedDropped p (passTime dt s)) p q = true)
    (hn : ∀ k, q < k → k ≤ 7 → eligible (gatedDropped p (passTime dt s)) p k = false) :
    egressSelect p dt o s = startFrame (lineQueue p q) 0 p (gatedDropped p (passTime dt s)) := by
  rw [egressSelect_of_line rfl hp hf hh hb, find?_highest_of_eight hq he hn]

theorem egressSelect_of_none {p dt : Nat} {o : Otp} {s : Dev} (hp : p < 64) (hf : portFree (passTime dt s) p = true)
    (hh : hostFrame (passTime dt s) p = none) (hb : lineBound (passTime dt s) p = true)
    (hn : ∀ k, k ≤ 7 → eligible (gatedDropped p (passTime dt s)) p k = false) :
    egressSelect p dt o s = gatedDropped p (passTime dt s) := by
  rw [egressSelect_of_line rfl hp hf hh hb, find?_none_of_eight hn]

theorem egressSelect_of_client {p dt : Nat} {o : Otp} {s d : Dev} (hd : passTime dt s = d) (hp : p < 64)
    (hf : portFree d (64 + p) = true) (hh : hostFrame d (64 + p) = none) : egressSelect (64 + p) dt o s =
      if egressBlocked d then out (blockedOutput d p) d
      else if clientBound d p && modeSends d 0 then startFrame (clientQueue p) 0 (64 + p) d else d := by
  unfold egressSelect
  dsimp only
  have hc : 64 + p < 128 := by omega
  rw [hd, if_neg (by simp [hf, hh]), if_neg (by omega), Nat.add_sub_cancel_left, decide_eq_true hc, Bool.true_and,
    Bool.true_and]

theorem passTime_sys_mode (n : Nat) (d : Dev) : (passTime n d).sys.mode = d.sys.mode := rfl

/-- Settles O39: a line port asks its queues from 7 down, a client port the mode and then its queue. -/
theorem portTakesHighestEligibleQueue : Obligations.PortTakesHighestEligibleQueue := by
  unfold Obligations.PortTakesHighestEligibleQueue
  constructor
  · intro p dt s hp d e hf hh hb
    exact ⟨fun q hq he hn => run_eq_next_put (f := egressSelect p dt) (egressSelect_of_highest hp hf hh hb hq he hn),
      fun hn => run_eq_next_put (f := egressSelect p dt) (egressSelect_of_none hp hf hh hb hn)⟩
  · intro p dt s hp d hf hh
    have h := egressSelect_of_client (o := s.otp) (s := s.dev) (dt := dt) rfl hp hf hh
    refine ⟨fun hc hm => run_eq_next_put (f := egressSelect (64 + p) dt) (h.trans ?_),
      fun hu hm => run_eq_next_put (f := egressSelect (64 + p) dt) (h.trans ?_)⟩
    · have hmode : d.sys.mode = .secure ∨ d.sys.mode = .service := hm
      have hb : egressBlocked d = false := by rcases hmode with hm | hm <;> simp [egressBlocked, hm]
      have hs : modeSends d 0 = true := by rcases hmode with hm | hm <;> simp [modeSends, hm]
      rw [if_neg (by rw [hb]; decide), if_pos (by rw [hc, hs]; rfl)]
    · exact if_pos (by rcases hm with hm | hm <;> rw [egressBlocked, hu, hm] <;> rfl)

/-! Swap instants and credit. -/

theorem swapInstant_of_empty {t : Timetable} (h : t.active = []) (b : Nat) : swapInstant t b = b := by
  rw [swapInstant, h]
  rfl

/-- The next multiple of a period, counted from a base, at or after an instant. -/
theorem next_boundary (base b : Nat) {c : Nat} (hc : 0 < c) :
    let off := (((b : Int) - base) % (c : Int)).toNat
    let x := if off = 0 then b else b + (c - off)
    b ≤ x ∧ x < b + c ∧ ∃ k : Int, (x : Int) = base + k * c := by
  have hci : (0 : Int) < c := by exact_mod_cast hc
  have h0 := Int.emod_nonneg ((b : Int) - base) (Int.ne_of_gt hci)
  have hlt := Int.emod_lt_of_pos ((b : Int) - base) hci
  have hdiv := Int.emod_add_mul_ediv ((b : Int) - base) c
  dsimp only
  generalize hr : ((b : Int) - base) % (c : Int) = r at *
  generalize ((b : Int) - base) / (c : Int) = q at *
  split
  case isTrue h =>
    refine ⟨Nat.le_refl _, by omega, q, ?_⟩
    have : r = 0 := by omega
    rw [Int.mul_comm]
    omega
  case isFalse h =>
    refine ⟨Nat.le_add_right _ _, by omega, q + 1, ?_⟩
    have hx : ((b + (c - r.toNat) : Nat) : Int) = b + (c - r) := by omega
    rw [hx, Int.add_mul, Int.one_mul, Int.mul_comm]
    omega

theorem swapInstant_of_running {t : Timetable} (ht : t.active ≠ []) (hc : 1 ≤ cycleNs t.active) (b : Nat) :
    b ≤ swapInstant t b ∧ swapInstant t b < b + cycleNs t.active * 2 ^ 32
      ∧ ∃ k : Int, ((swapInstant t b : Nat) : Int) = (t.base : Int) + k * ((cycleNs t.active * 2 ^ 32 : Nat) : Int) := by
  have he : t.active.isEmpty = false := by simpa using ht
  rw [show (2 : Nat) ^ 32 = nsU from rfl]
  have hpos : 0 < cycleNs t.active * nsU := Nat.mul_pos hc (by decide)
  simp only [swapInstant, cycleOff, he, Nat.max_eq_right hc, Bool.false_eq_true, if_false]
  generalize cycleNs t.active * nsU = c at hpos
  exact next_boundary t.base b hpos

theorem refill_le_burst (d : Dev) (x : Queue) : (refill d x).credit ≤ burstU x := by
  unfold refill
  dsimp only
  split <;> omega

theorem le_refill {x : Queue} (h : x.credit ≤ burstU x) (d : Dev) : x.credit ≤ (refill d x).credit := by
  unfold refill
  dsimp only
  split <;> omega

/-- Settles O40: the swap waits for the rest of the running cycle, and a refill is cut at BURST. -/
theorem swapFallsOnCycleBoundary : Obligations.SwapFallsOnCycleBoundary := by
  unfold Obligations.SwapFallsOnCycleBoundary
  exact ⟨fun t b ht hc => swapInstant_of_running ht hc b, fun t b h => swapInstant_of_empty h b, refill_le_burst,
    fun d x h => le_refill h d⟩

/-! Stages of a lane. -/

theorem find?_range_some {P : Nat → Bool} {i n : Nat} (h : (List.range n).find? P = some i) :
    i < n ∧ P i = true ∧ ∀ j, j < i → P j = false := by
  obtain ⟨hi, hm, hf⟩ := List.find?_range_eq_some.mp h
  exact ⟨List.mem_range.mp hm, hi, fun j hj => by simpa using hf j hj⟩

theorem nextStage_spec (ws : List Word) {n : Nat} (hn : n ≤ 6) : n ≤ nextStage ws n ∧ nextStage ws n ≤ 6
    ∧ (nextStage ws n < 6 → bit (ws.getD (nextStage ws n - 1) 0) 31 = true)
    ∧ (∀ m, n ≤ m → 1 ≤ m → m < nextStage ws n → bit (ws.getD (m - 1) 0) 31 = false) := by
  unfold nextStage
  cases hf : (List.range 6).find? (fun i => decide (n ≤ i + 1) && bit (ws.getD i 0) 31) with
  | some i =>
    obtain ⟨hi, hP, hlow⟩ := find?_range_some hf
    rw [Bool.and_eq_true, decide_eq_true_eq] at hP
    dsimp only
    refine ⟨hP.1, hi, fun _ => hP.2, fun m hnm hm hlt => ?_⟩
    have := hlow (m - 1) (by omega)
    rwa [Nat.sub_add_cancel hm, decide_eq_true hnm, Bool.true_and] at this
  | none =>
    dsimp only
    refine ⟨hn, Nat.le_refl _, fun h => absurd h (Nat.lt_irrefl _), fun m hnm hm hlt => ?_⟩
    have := List.find?_eq_none.mp hf (m - 1) (List.mem_range.mpr (by omega))
    rwa [Nat.sub_add_cancel hm, decide_eq_true hnm, Bool.true_and, Bool.not_eq_true] at this

theorem laneOf_setLane (k : Nat) (l : Lane) (d : Dev) : laneOf (setLane k l d) k =
    { l with
      signalAt := if l.signal = (laneOf d k).signal then (laneOf d k).signalAt else rawNow d
      lockAt := if l.lock = (laneOf d k).lock then (laneOf d k).lockAt else rawNow d } :=
  tgetD_tset_same _ _ _ _

/-- A lane that enters stage m of a profile, asked for stage n. -/
def stagedLane (ws : List Word) (m n retries now : Nat) (l : Lane) : Lane :=
  let l := { l with word := ws.getD (m - 1) 0, stageAt := now, waiting := false, trial := none }
  if m = 6 then { l with
    state := 6, retries := 0, held := true, lock := true, signal := true, entries := satInc 16 l.entries }
  else { l with
    state := m, retries := if m = n then retries else 0, held := l.held && decide (3 ≤ m)
    coeffs := if m < 3 then 0 else l.coeffs, fom := if m < 3 then 0 else l.fom }

theorem enterStage_eq (k n retries : Nat) (d : Dev) : enterStage k n retries d =
    setLane k (stagedLane (laneProfile d k) (nextStage (laneProfile d k) n) n retries (rawNow d) (laneOf d k)) d := rfl

theorem stagedLane_spec (ws : List Word) (m n retries now : Nat) (x : Lane) :
    let l := stagedLane ws m n retries now x
    l.state = m ∧ (l.state < 3 → l.held = false ∧ l.fom = 0 ∧ l.coeffs = 0)
      ∧ l.stageAt = now ∧ l.waiting = false ∧ l.trial = none
      ∧ l.word = ws.getD (l.state - 1) 0 ∧ (l.state = 6 → l.lock = true ∧ l.retries = 0) := by
  unfold stagedLane
  by_cases h : m = 6
  · subst h
    exact ⟨rfl, fun h => absurd (show 6 < 3 from h) (by decide), rfl, rfl, rfl, rfl, fun _ => ⟨rfl, rfl⟩⟩
  · dsimp only
    rw [if_neg h]
    refine ⟨rfl, fun h3 => ⟨?_, if_pos h3, if_pos h3⟩, rfl, rfl, rfl, rfl, fun h6 => absurd h6 h⟩
    have h3 : m < 3 := h3
    exact (congrArg (x.held && ·) (decide_eq_false (Nat.not_le.mpr h3))).trans (Bool.and_false _)

theorem enterStage_entered {k n : Nat} (retries : Nat) (d : Dev) :
    let l := laneOf (enterStage k n retries d) k
    l.state = nextStage (laneProfile d k) n ∧ (l.state < 3 → l.held = false ∧ l.fom = 0 ∧ l.coeffs = 0)
      ∧ l.stageAt = rawNow d ∧ l.waiting = false ∧ l.trial = none
      ∧ l.word = (laneProfile d k).getD (l.state - 1) 0 ∧ (l.state = 6 → l.lock = true ∧ l.retries = 0) := by
  rw [enterStage_eq, laneOf_setLane]
  exact stagedLane_spec ..

theorem laneOf_enterStage_other {k j : Nat} (hj : j ≠ k) (n retries : Nat) (d : Dev) :
    laneOf (enterStage k n retries d) j = laneOf d j := tgetD_tset_other _ hj _ _

/-- Settles O45: the next stage is the first that the profile enables, and entering it leaves what its number asks. -/
theorem stageEntryFollowsProfile : Obligations.StageEntryFollowsProfile := by
  unfold Obligations.StageEntryFollowsProfile
  refine ⟨fun ws n hn => nextStage_spec ws hn, fun k n retries d _ _ => ?_⟩
  obtain ⟨hstate, hlow, hat, hwait, htrial, hword, hsix⟩ := enterStage_entered (k := k) (n := n) retries d
  exact ⟨hstate, hlow, hat, hwait, htrial, hword, hsix, fun j hj => laneOf_enterStage_other hj n retries d⟩

end Sys2Proof.Machine
end

section

/-! Operands of the public-key engine, a fall-back, and the throttle's stretch. -/

namespace Sys2Proof.Machine

/-! A job's operands. -/

/-- The operand memory as a job of its page finds it. -/
def jobOwned (j : PkeJob) (d : Dev) : Dev :=
  { d with pke := { d.pke with
    regs := if d.pke.owner = some j.page then d.pke.regs else [], owner := some j.page, idle := 0 } }

/-- The registers with the inputs of a job that were loaded. -/
def jobRegs (loads : List (Option PkeReg × Option Nat)) (t : Table PkeReg) : Table PkeReg :=
  (List.range 4).foldl (fun t i => match loads.getD i (none, none) with
    | (some r, _) => tset t i r
    | _ => t) t

/-- A job that has the operand memory starts. -/
def jobRun (j : PkeJob) (o : Otp) (d : Dev) : Dev :=
  let loads := (List.range 4).map (loadInput o d j)
  let ins := (List.range 4).map (fun i => ((loads.getD i (none, none)).1.map (·.bytes)).getD [])
  let kinds := pkeIns (jobOp j)
  let m := beNat (ins.getD 0 [])
  let one := fun i => match (loads.getD i (none, none)).2 with
    | some st => some (st, i)
    | none => (inputCheck (jobSet j) (jobN j) m (kinds.getD i .unused) (ins.getD i [])).map (fun st => (st, i))
  { d with pke := { d.pke with
    regs := jobRegs loads d.pke.regs
    running := some { j with ins := ins, fail := (List.range 4).findSome? one, startAt := rawNow d }
    waiting := d.pke.waiting.drop 1 } }

theorem jobStart_eq (j : PkeJob) (o : Otp) (d : Dev) : jobStart j o d = jobRun j o (jobOwned j d) := rfl

theorem jobOwned_of_other {j : PkeJob} {d : Dev} (h : d.pke.owner ≠ some j.page) (regs : Table PkeReg) :
    jobOwned j { d with pke := { d.pke with regs := regs } } = jobOwned j d := by
  unfold jobOwned
  dsimp only
  rw [if_neg h, if_neg h]

theorem jobOwned_regs {j : PkeJob} {d : Dev} (h : d.pke.owner ≠ some j.page) : (jobOwned j d).pke.regs = [] := if_neg h

theorem jobRegs_cases (loads : List (Option PkeReg × Option Nat)) (t : Table PkeReg) {i : Nat} {x : PkeReg}
    (h : tget (jobRegs loads t) i = some x) : tget t i = some x ∨ ∃ st, loads.getD i (none, none) = (some x, st) := by
  unfold jobRegs at h
  revert i x
  refine List.foldlRecOn (motive := fun u : Table PkeReg => ∀ {i x}, tget u i = some x →
    tget t i = some x ∨ ∃ st, loads.getD i (none, none) = (some x, st)) _ _ (fun h => .inl h) ?_
  intro u hu k _ i x h
  split at h
  case h_1 r st hk =>
    by_cases hi : i = k
    · subst hi
      rw [tget_tset_same] at h
      exact .inr ⟨st, Option.some.inj h ▸ hk⟩
    · exact hu ((tget_tset_other _ hi _).symm.trans h)
  case h_2 => exact hu h

/-- Input i of a job comes from nowhere or from an empty operand memory: nothing is loaded. -/
theorem loadInput_of_no_source {o : Otp} {d : Dev} {j : PkeJob} {i : Nat} (hr : d.pke.regs = [])
    (h : inSource j i = 0 ∨ inSource j i = 3) : (loadInput o d j i).1 = none := by
  unfold loadInput
  rcases h with h | h
  · rw [h]
    rfl
  · rw [h, hr]
    rfl

/-- Settles O48: a change of owner empties the operand memory before anything is read from it. -/
theorem pkeOperandsStayWithTheirPage : Obligations.PkeOperandsStayWithTheirPage := by
  unfold Obligations.PkeOperandsStayWithTheirPage
  intro j o d h
  refine ⟨fun regs => ?_, rfl, fun i x hi hx => ?_⟩
  · rw [jobStart_eq, jobOwned_of_other h, jobStart_eq]
  · have hregs := jobOwned_regs h
    rcases jobRegs_cases _ _ hx with hold | ⟨st, hload⟩
    · cases (congrArg (tget · i) hregs).symm.trans hold
    · have hl : loadInput o (jobOwned j d) j i = (some x, st) := by
        rwa [List.getD_eq_getElem?_getD, List.getElem?_map, List.getElem?_range hi] at hload
      have hno := fun hs => loadInput_of_no_source (o := o) (j := j) (i := i) hregs hs
      rw [hl] at hno
      exact ⟨fun h0 => (by cases hno (.inl h0)), fun h3 => (by cases hno (.inr h3))⟩

/-! A fall-back. -/

theorem dmaStopRunning_only (d : Dev) : ∃ tel, dmaStopRunning d = { d with tel := tel } := by
  unfold dmaStopRunning
  split
  · exact ⟨_, rfl⟩
  · exact ⟨d.tel, rfl⟩

theorem withHw_keeps {α : Type} {g : Dev → α} {f : Dev → Dev} (d : Dev) (hf : g (f d) = g d)
    (hr : ∀ e, g (raise 65 e) = g e) : g (withHw f d) = g d := by
  rcases withHw_cases f d with h | h <;> rw [h]
  · exact hf
  · exact (hr _).trans hf

/-- HALTED: what the record says, and that the image stays. -/
theorem goHalted_spec (c : Nat) (d : Dev) :
    (goHalted c d).sys.mode = .halted ∧ (goHalted c d).sys.haltCause = c ∧ (goHalted c d).fw = d.fw := by
  unfold goHalted
  dsimp only
  generalize hu : setSbUp false _ = u
  have hsys : (withHw dmaStopRunning (pkeHalt u)).sys = (pkeHalt u).sys := withHw_keeps _ (by
    obtain ⟨t, ht⟩ := dmaStopRunning_only (pkeHalt u)
    rw [ht]) (raise_sys 65)
  have hfw : (withHw dmaStopRunning (pkeHalt u)).fw = (pkeHalt u).fw := withHw_keeps _ (by
    obtain ⟨t, ht⟩ := dmaStopRunning_only (pkeHalt u)
    rw [ht]) (raise_fw 65)
  obtain ⟨x, out, he⟩ := driveAlert_eq { withHw dmaStopRunning (pkeHalt u) with
    fm := { (withHw dmaStopRunning (pkeHalt u)).fm with flights := [] }
    sl := { (withHw dmaStopRunning (pkeHalt u)).sl with bulk := [], samples := [] }
    tel := { (withHw dmaStopRunning (pkeHalt u)).tel with writing := none } }
  rw [he]
  refine ⟨?_, ?_, ?_⟩
  · exact (congrArg Sys.mode hsys).trans (by rw [← hu]; exact congrArg Sys.mode (setSbUp_sys ..))
  · exact (congrArg Sys.haltCause hsys).trans (by rw [← hu]; exact congrArg Sys.haltCause (setSbUp_sys ..))
  · exact hfw.trans (by rw [← hu]; exact setSbUp_fw ..)

theorem haltEntry_of_recall {o : Otp} {d : Dev} (h : d.sys.mode ≠ .halted) : haltEntry 0x32 o d = goHalted 0x32 d := by
  unfold haltEntry
  cases d.sys.phase <;> exact (if_neg Bool.false_ne_true).trans (if_neg h)

theorem fwState_sys (st outcome : Nat) (d : Dev) : (fwState st outcome d).sys = d.sys := by
  unfold fwState
  rw [emit_sys]
  rfl

theorem fwState_fw (st outcome : Nat) (d : Dev) : (fwState st outcome d).fw.recallImg = d.fw.recallImg
    ∧ (fwState st outcome d).fw.recallValid = d.fw.recallValid ∧ (fwState st outcome d).fw.running = d.fw.running := by
  unfold fwState
  rw [emit_fw]
  exact ⟨rfl, rfl, rfl⟩

theorem sbStop_sys (r : Nat) (d : Dev) : (sbStop r d).sys = d.sys := setSbUp_sys ..
theorem sbStop_fw (r : Nat) (d : Dev) : (sbStop r d).fw = d.fw := setSbUp_fw ..

/-- Settles O53: the recall image runs after its checks, else cause 0x32 halts the device. -/
theorem fallBackRunsAcceptedImage : Obligations.FallBackRunsAcceptedImage := by
  unfold Obligations.FallBackRunsAcceptedImage
  intro outcome o d h
  obtain ⟨himg, hvalid, hrun⟩ := fwState_fw 6 outcome d
  have hsys := (sbStop_sys 4 (fwState 6 outcome d)).trans (fwState_sys 6 outcome d)
  have hfw := sbStop_fw 4 (fwState 6 outcome d)
  unfold fallBack recallStarts
  dsimp only
  rw [hfw, himg, hvalid]
  split
  case isTrue hok =>
    rw [imageAccepted, Bool.and_eq_true, Bool.and_eq_true, decide_eq_true_eq] at hok
    obtain ⟨hv, hs, hf⟩ := hok
    exact .inl ⟨rfl, hv, hf, hs, congrArg Sys.mode hsys⟩
  case isFalse =>
    obtain ⟨hm, hc, hk⟩ := goHalted_spec 0x32 (sbStop 4 (fwState 6 outcome d))
    rw [haltEntry_of_recall (by rw [hsys]; exact h)]
    exact .inr ⟨hm, hc, by rw [hk, hfw, hrun]⟩

/-! The stretch of a sector. -/

/-- A sector at an entry of the curve for a sag. -/
def levelSet (n level sag : Nat) (d : Dev) : Dev :=
  let x := powerOf d n
  setPower n { x with
    calmAt := if level == x.level && released d level sag && released d level x.sag then x.calmAt else rawNow d
    sag := sag, level := level, stretch := stretchFor d n level, sagTick := max x.sagTick (min sag 255) } d

/-- The last used entry is marked as reached. -/
def topMarked (n : Nat) (d : Dev) : Dev :=
  { d with pwr := { d.pwr with event := d.pwr.event ||| BitVec.ofNat 10 (2 ^ (4 + n)) } }

theorem setLevel_cases (n level sag : Nat) (d : Dev) : setLevel n level sag d = levelSet n level sag d
    ∨ setLevel n level sag d = topMarked n (levelSet n level sag d)
    ∨ setLevel n level sag d = raise 65 (topMarked n (levelSet n level sag d)) := by
  have h : setLevel n level sag d =
      if decide (level = curveUsed d.pwr.curve) && decide ((powerOf d n).level < level) then
        withHw (topMarked n) (levelSet n level sag d) else levelSet n level sag d := rfl
  rw [h]
  split
  · exact .inr (withHw_cases _ _)
  · exact .inl rfl

/-- What a set level leaves: its sector, the other sectors, the curve and the mode. -/
theorem setLevel_spec (n level sag : Nat) (d : Dev) :
    (setLevel n level sag d).pwr.sectors = (levelSet n level sag d).pwr.sectors
      ∧ (setLevel n level sag d).pwr.curve = d.pwr.curve ∧ (setLevel n level sag d).sys = d.sys := by
  rcases setLevel_cases n level sag d with h | h | h <;> rw [h]
  · exact ⟨rfl, rfl, rfl⟩
  · exact ⟨rfl, rfl, rfl⟩
  · rw [raise_pwr, raise_sys]
    exact ⟨rfl, rfl, rfl⟩

theorem powerOf_setLevel_same (n level sag : Nat) (d : Dev) :
    (powerOf (setLevel n level sag d) n).sag = sag ∧ (powerOf (setLevel n level sag d) n).level = level
      ∧ (powerOf (setLevel n level sag d) n).stretch = stretchFor d n level := by
  have h : powerOf (setLevel n level sag d) n = powerOf (levelSet n level sag d) n :=
    congrArg (tgetD · n Sector.init) (setLevel_spec n level sag d).1
  rw [h, levelSet, powerOf_setPower_same]
  exact ⟨rfl, rfl, rfl⟩

theorem powerOf_setLevel_other {n m : Nat} (hm : m ≠ n) (level sag : Nat) (d : Dev) :
    powerOf (setLevel n level sag d) m = powerOf d m := by
  have h : powerOf (setLevel n level sag d) m = powerOf (levelSet n level sag d) m :=
    congrArg (tgetD · m Sector.init) (setLevel_spec n level sag d).1
  rw [h, levelSet, powerOf_setPower_other n m hm]

theorem curveStretch_le_stretchFor (d : Dev) (n : Nat) {level : Nat} (h : level ≠ 0) :
    curveStretch d.pwr.curve (level - 1) ≤ stretchFor d n level := by
  rw [stretchFor, if_neg h]
  exact Nat.le_max_left _ _

theorem one_le_stretchFor {d : Dev} {n : Nat} (h : sensorsIn d n < 4) (level : Nat) : 1 ≤ stretchFor d n level := by
  rw [stretchFor, if_pos h]
  exact Nat.le_max_right _ _

theorem stretchRise_of_running {n dt : Nat} {readings : List Nat} {o : Otp} {d : Dev} (hn : n < sectors o)
    (hr : pmuRuns (passTime dt d) = true) : stretchRise n readings dt o d =
      setLevel n (max (powerOf (passTime dt d) n).level (curveLevel (passTime dt d).pwr.curve
        (sagOf (passTime dt d) n readings))) (sagOf (passTime dt d) n readings) (passTime dt d) := by
  unfold stretchRise
  exact if_pos (by rw [decide_eq_true hn, hr]; rfl)

/-- Settles O55: the sector is set to the higher of its own entry and that of the sag, with the stretch of that entry. -/
theorem stretchMeetsTheCurve : Obligations.StretchMeetsTheCurve := by
  unfold Obligations.StretchMeetsTheCurve
  intro n dt readings s hn hr d sag
  obtain ⟨level, hlv⟩ : ∃ x, x = max (powerOf d n).level (curveLevel d.pwr.curve sag) := ⟨_, rfl⟩
  have he : exec (.stretchRise n readings dt) s = .next (s.put (setLevel n level sag d)) :=
    run_eq_next_put (f := stretchRise n readings dt) (hlv ▸ stretchRise_of_running hn hr)
  obtain ⟨hsag, hlevel, hstretch⟩ := powerOf_setLevel_same n level sag d
  obtain ⟨_, hcurve, hsys⟩ := setLevel_spec n level sag d
  have hother := fun m (hm : m ≠ n) => powerOf_setLevel_other hm level sag d
  generalize setLevel n level sag d = e at *
  refine ⟨_, he, hsag, ?_, ?_, ?_, ?_, hother, hcurve, hsys, rfl, rfl, rfl⟩
  · exact Nat.le_trans (hlv ▸ Nat.le_max_right _ _ : _ ≤ level) (Nat.le_of_eq hlevel.symm)
  · exact Nat.le_trans (hlv ▸ Nat.le_max_left _ _ : _ ≤ level) (Nat.le_of_eq hlevel.symm)
  · intro h0
    change curveStretch d.pwr.curve ((powerOf e n).level - 1) ≤ (powerOf e n).stretch
    rw [hstretch, hlevel]
    exact curveStretch_le_stretchFor d n (hlevel ▸ h0)
  · exact fun h4 => hstretch.symm ▸ one_le_stretchFor h4 level

end Sys2Proof.Machine
end

section

/-! LOCK+ERASE: the SAs are destroyed one by one, then the places of keys are emptied. -/

namespace Sys2Proof.Machine

/-- Two devices hold the same in every place where a key can stand. -/
def SameKeyState (d e : Dev) : Prop :=
  e.kc = d.kc ∧ e.ks = d.ks ∧ e.sl = d.sl ∧ e.dsp = d.dsp ∧ e.grn = d.grn ∧ e.pke = d.pke ∧ e.tamp = d.tamp

theorem SameKeyState.refl (d : Dev) : SameKeyState d d := ⟨rfl, rfl, rfl, rfl, rfl, rfl, rfl⟩

theorem SameKeyState.trans {d e f : Dev} (h : SameKeyState d e) (k : SameKeyState e f) : SameKeyState d f := by
  obtain ⟨h1, h2, h3, h4, h5, h6, h7⟩ := h
  obtain ⟨k1, k2, k3, k4, k5, k6, k7⟩ := k
  exact ⟨k1.trans h1, k2.trans h2, k3.trans h3, k4.trans h4, k5.trans h5, k6.trans h6, k7.trans h7⟩

theorem OnlySb.sameKeyState {d e : Dev} (h : OnlySb d e) : SameKeyState d e := by
  unfold OnlySb at h
  rw [h]
  exact ⟨rfl, rfl, rfl, rfl, rfl, rfl, rfl⟩

theorem changeMode_sameKeyState (m : Mode) (c dt : Nat) (w : Word) (d : Dev) : SameKeyState d (changeMode m c dt w d) := by
  obtain ⟨b, x, o, h⟩ := changeMode_eq m c dt w d
  rw [h]
  exact ⟨rfl, rfl, rfl, rfl, rfl, rfl, rfl⟩

theorem maintEnd_sameKeyState (n : Nat) (d : Dev) : SameKeyState d (maintEnd n d) := by
  have h : SameKeyState d (setMaint n false d) := ⟨rfl, rfl, rfl, rfl, rfl, rfl, rfl⟩
  unfold maintEnd
  dsimp only
  split
  · exact h.trans (changeMode_sameKeyState ..)
  · exact h

theorem endCreating_sameKeyState (d : Dev) : SameKeyState d (endCreating d) := by
  unfold endCreating
  refine List.foldlRecOn (motive := SameKeyState d) _ _ (.refl d) fun e he c _ => ?_
  split
  · exact he.trans (finish_only ..).sameKeyState
  · exact he

/-! The Granary. -/

/-- Every Granary key register zeroed. -/
def regionsZeroed (d : Dev) : Dev :=
  { d with grn := { d.grn with
    kt := [], regions := d.grn.regions.map (fun r => (r.1, { r.2 with key := [], oldKey := [] }))
    rekeying := none, retiring := none, waiting := [] } }

/-- No Granary key stands anywhere. -/
def BareGranary (d : Dev) : Prop := d.grn.kt = [] ∧ ∀ g, (regionOf d g).key = [] ∧ (regionOf d g).oldKey = []

theorem regionOf_regionsZeroed (d : Dev) (g : Nat) :
    regionOf (regionsZeroed d) g = { regionOf d g with key := [], oldKey := [] } := by
  have h : regionOf (regionsZeroed d) g =
      ((tget d.grn.regions g).map (fun r : Region => { r with key := [], oldKey := [] })).getD Region.init :=
    congrArg (Option.getD · Region.init) (tget_map (fun r : Region => { r with key := [], oldKey := [] }) g d.grn.regions)
  rw [h, regionOf, tgetD]
  cases tget d.grn.regions g <;> rfl

theorem regionsZeroed_bare (d : Dev) : BareGranary (regionsZeroed d) :=
  ⟨rfl, fun g => by rw [regionOf_regionsZeroed]; exact ⟨rfl, rfl⟩⟩

theorem BareGranary.of_same {d e : Dev} (h : BareGranary d) (hg : e.grn = d.grn) : BareGranary e := by
  unfold BareGranary regionOf at h ⊢
  rwa [hg]

/-- A quota of a region that holds no key leaves the Granary bare. -/
theorem BareGranary.setQuota {d : Dev} (h : BareGranary d) (g n : Nat) :
    BareGranary (setRegion g { regionOf d g with quota := n } d) := by
  refine ⟨h.1, fun k => ?_⟩
  by_cases hk : k = g
  · subst hk
    rw [regionOf_setRegion_same]
    exact h.2 k
  · rw [regionOf_setRegion_other g k hk]
    exact h.2 k

/-- Two devices hold the same in every place of a key outside the Granary, and the second holds no Granary key. -/
def SameBare (d e : Dev) : Prop :=
  e.kc = d.kc ∧ e.ks = d.ks ∧ e.sl = d.sl ∧ e.dsp = d.dsp ∧ e.pke = d.pke ∧ e.tamp = d.tamp ∧ BareGranary e

theorem SameBare.trans {d e f : Dev} (h : SameBare d e) (k : SameKeyState e f) : SameBare d f := by
  obtain ⟨h1, h2, h3, h4, h6, h7, hb⟩ := h
  obtain ⟨k1, k2, k3, k4, k5, k6, k7⟩ := k
  exact ⟨k1.trans h1, k2.trans h2, k3.trans h3, k4.trans h4, k6.trans h6, k7.trans h7, hb.of_same k5⟩

theorem SameBare.setQuota {d e : Dev} (h : SameBare d e) (g n : Nat) :
    SameBare d (setRegion g { regionOf e g with quota := n } e) := by
  obtain ⟨h1, h2, h3, h4, h6, h7, hb⟩ := h
  exact ⟨h1, h2, h3, h4, h6, h7, hb.setQuota g n⟩

/-- A re-key that ran ends with its command. -/
def rekeyStopped (rk : Option Rekeying) (d : Dev) : Dev :=
  match rk with
  | some x => match x.cmd with
    | some (page, tag) => maintEnd 1 (finish page tag 0x0710 stLocked (wd (regionOf d x.region).epoch) d)
    | none => maintEnd 1 d
  | none => d

/-- A retirement that ran ends with its command; the Buffer region has its frames back. -/
def retireStopped (rt : Option Retiring) (d : Dev) : Dev :=
  match rt with
  | some x => maintEnd 2 (finish x.page x.tag 0x0711 stLocked (wd x.moved)
      (setRegion 4 { regionOf d 4 with quota := (regionOf d 4).quota + framesPerChannel } d))
  | none => d

theorem zeroGranary_eq (d : Dev) :
    zeroGranary d = retireStopped d.grn.retiring (rekeyStopped d.grn.rekeying (regionsZeroed d)) := by
  unfold zeroGranary retireStopped rekeyStopped
  rfl

theorem rekeyStopped_sameKeyState (rk : Option Rekeying) (d : Dev) : SameKeyState d (rekeyStopped rk d) := by
  cases rk with
  | none => exact .refl d
  | some x =>
    unfold rekeyStopped
    dsimp only
    split
    · exact (finish_only ..).sameKeyState.trans (maintEnd_sameKeyState ..)
    · exact maintEnd_sameKeyState ..

theorem retireStopped_bare (rt : Option Retiring) {d e : Dev} (h : SameBare d e) : SameBare d (retireStopped rt e) := by
  cases rt with
  | none => exact h
  | some x =>
    exact ((h.setQuota 4 _).trans (finish_only ..).sameKeyState).trans (maintEnd_sameKeyState 2 _)

theorem zeroGranary_bare (d : Dev) : SameBare d (zeroGranary d) := by
  have h : SameBare d (regionsZeroed d) := ⟨rfl, rfl, rfl, rfl, rfl, rfl, regionsZeroed_bare d⟩
  rw [zeroGranary_eq]
  exact retireStopped_bare _ (h.trans (rekeyStopped_sameKeyState _ _))

/-! The SAs. -/

/-- A destroyed SA holds no key. -/
def DestroyedBare (d : Dev) : Prop := ∀ i x, saOf d i = some x → x.state = 4 → x.key = [] ∧ x.ka = [] ∧ x.salt = []

theorem saOf_destroySa_other {i j : Nat} (hj : j ≠ i) (d : Dev) : saOf (destroySa i d) j = saOf d j := by
  cases hx : saOf d i with
  | none =>
    unfold destroySa
    rw [hx]
  | some x =>
    by_cases hs : x.state = 4
    · unfold destroySa
      rw [hx]
      exact congrArg (saOf · j) (if_pos hs)
    · exact (destroyedAssociationKeepsNoKey i x d hx hs).2.1 j hj

/-- After an SA is destroyed its record, where there is one, is in state 4 and holds no key. -/
theorem saOf_destroySa_same {i : Nat} {d : Dev} (h : DestroyedBare d) {x : SaRec}
    (hx : saOf (destroySa i d) i = some x) : x.state = 4 ∧ x.key = [] ∧ x.ka = [] ∧ x.salt = [] := by
  cases hi : saOf d i with
  | none =>
    unfold destroySa at hx
    rw [hi] at hx
    cases hi.symm.trans hx
  | some y =>
    by_cases hs : y.state = 4
    · have hd : destroySa i d = d := by
        unfold destroySa
        rw [hi]
        exact if_pos hs
      rw [hd] at hx
      rw [Option.some.inj (hx.symm.trans hi)]
      exact ⟨hs, h i y hi hs⟩
    · obtain ⟨⟨z, hz, hfour, hkeys⟩, _⟩ := destroyedAssociationKeepsNoKey i y d hi hs
      cases hz.symm.trans hx
      exact ⟨hfour, hkeys⟩

theorem DestroyedBare.destroySa {d : Dev} (h : DestroyedBare d) (i : Nat) : DestroyedBare (destroySa i d) := by
  intro j x hx hs
  by_cases hj : j = i
  · subst hj
    exact (saOf_destroySa_same h hx).2
  · exact h j x ((saOf_destroySa_other hj d).symm.trans hx) hs

theorem destroySa_lists (i : Nat) (d : Dev) :
    (destroySa i d).kc.chains = d.kc.chains ∧ (destroySa i d).kc.scheds = d.kc.scheds := by
  cases hi : saOf d i with
  | none =>
    unfold destroySa
    rw [hi]
    exact ⟨rfl, rfl⟩
  | some x =>
    by_cases hs : x.state = 4
    · have hd : destroySa i d = d := by
        unfold destroySa
        rw [hi]
        exact if_pos hs
      rw [hd]
      exact ⟨rfl, rfl⟩
    · obtain ⟨objs, hkc, _⟩ := destroySa_keyPlaces hi hs
      rw [hkc]
      exact ⟨rfl, rfl⟩

/-- Destroying SAs one after the other: every listed one is destroyed, every other as before. -/
theorem destroyAll_spec (is : List Nat) {d : Dev} (h : DestroyedBare d) :
    let e := is.foldl (fun d i => destroySa i d) d
    DestroyedBare e ∧ e.kc.chains = d.kc.chains ∧ e.kc.scheds = d.kc.scheds
      ∧ (∀ j, j ∉ is → saOf e j = saOf d j)
      ∧ (∀ j ∈ is, ∀ x, saOf e j = some x → x.state = 4) := by
  induction is generalizing d with
  | nil => exact ⟨h, rfl, rfl, fun _ _ => rfl, fun _ hj => absurd hj List.not_mem_nil⟩
  | cons i is ih =>
    obtain ⟨hbare, hch, hsc, hother, hdone⟩ := ih (h.destroySa i)
    obtain ⟨hch', hsc'⟩ := destroySa_lists i d
    refine ⟨hbare, hch.trans hch', hsc.trans hsc', fun j hj => ?_, fun j hj x hx => ?_⟩
    · obtain ⟨hji, hj⟩ := not_or.mp (mt List.mem_cons.mpr hj)
      exact (hother j hj).trans (saOf_destroySa_other hji d)
    · by_cases hin : j ∈ is
      · exact hdone j hin x hx
      · obtain rfl : j = i := (List.mem_cons.mp hj).resolve_right hin
        exact (saOf_destroySa_same h ((hother j hin).symm.trans hx)).1

theorem mem_keys_of_tget {α : Type} {t : Table α} {k : Nat} {a : α} (h : tget t k = some a) : k ∈ t.map (·.1) := by
  induction t with
  | nil => cases h
  | cons p t ih =>
    obtain ⟨i, b⟩ := p
    unfold tget at h
    split at h
    case isTrue hi => exact hi ▸ List.mem_cons_self
    case isFalse =>
      split at h
      case isTrue => cases h
      case isFalse => exact List.mem_cons_of_mem _ (ih h)

/-! The erase. -/

/-- A peer without its KEK. -/
def Peer.bare (p : Peer) : Peer :=
  { p with kek := [], kck := [], estab := false, state := if p.state = 2 then 0 else p.state }

/-- The device as it goes into the erase: no schedule, chain or pending generation. -/
def listsEmptied (d : Dev) : Dev :=
  let d := endCreating d
  { d with kc := { d.kc with scheds := [], rekeyAll := none, chains := [], encNext := [] } }

/-- Peers, slices, context cache and operand memory emptied. -/
def placesEmptied (d : Dev) : Dev :=
  { d with
    kc := { d.kc with peers := d.kc.peers.map (fun p => (p.1, p.2.bare)) }
    sl := { d.sl with slices := d.sl.slices.map (fun p => (p.1, p.2.wipe)) }
    dsp := { d.dsp with cache := [] }
    pke := { d.pke with regs := [] }
    tamp := { d.tamp with erased := true } }

theorem eraseKeys_eq (d : Dev) : eraseKeys d = zeroGranary (zeroKeyStore (placesEmptied
    (((listsEmptied d).kc.sas.map (·.1)).foldl (fun d i => destroySa i d) (listsEmptied d)))) := rfl

theorem listsEmptied_sas (d : Dev) : (listsEmptied d).kc.sas = d.kc.sas :=
  show (endCreating d).kc.sas = d.kc.sas by rw [(endCreating_sameKeyState d).1]

theorem placesEmptied_ctxs (d : Dev) (n : Nat) : (sliceOf (placesEmptied d) n).ctxs = [] := by
  have h : sliceOf (placesEmptied d) n = ((tget d.sl.slices n).map Slice.wipe).getD Slice.init :=
    congrArg (Option.getD · Slice.init) (tget_map Slice.wipe n d.sl.slices)
  rw [h]
  cases tget d.sl.slices n with
  | none => rfl
  | some x =>
    rw [Option.map_some, Option.getD_some, Slice.wipe, keep_ctxs]
    exact List.filter_eq_nil_iff.mpr fun _ _ => Bool.false_ne_true

theorem peers_bare (d : Dev) : ∀ p ∈ (placesEmptied d).kc.peers,
    p.2.kek = [] ∧ p.2.kck = [] ∧ p.2.estab = false ∧ p.2.state ≠ 2 := by
  intro p hp
  obtain ⟨q, _, rfl⟩ := List.mem_map.mp hp
  refine ⟨rfl, rfl, rfl, fun h => ?_⟩
  have h : (if q.2.state = 2 then 0 else q.2.state) = 2 := h
  split at h
  · cases h
  · contradiction

/-- Settles O51: every SA is destroyed, and what follows empties the other places. -/
theorem lockEraseLeavesNoKey : Obligations.LockEraseLeavesNoKey := by
  unfold Obligations.LockEraseLeavesNoKey
  intro d hd
  have hbare : DestroyedBare (listsEmptied d) := fun i x hx => hd i x (by rwa [saOf, listsEmptied_sas] at hx)
  obtain ⟨hbare', hch, hsc, hother, hdone⟩ := destroyAll_spec ((listsEmptied d).kc.sas.map (·.1)) hbare
  rw [eraseKeys_eq]
  generalize ((listsEmptied d).kc.sas.map (·.1)).foldl (fun d i => destroySa i d) (listsEmptied d) = e at *
  obtain ⟨hkc, hks, hsl, hdsp, hpke, htamp, hkt, hregions⟩ := zeroGranary_bare (zeroKeyStore (placesEmptied e))
  refine ⟨fun i x hx => ?_, by rw [hks]; rfl, by rw [hks]; rfl, by rw [hks]; rfl, by rw [hks]; rfl, hkt, hregions, ?_, ?_,
    by rw [hdsp]; rfl, by rw [hpke]; rfl, ?_, ?_, by rw [htamp]; rfl⟩
  · have hx : saOf e i = some x := by rwa [saOf, hkc] at hx
    have h4 : x.state = 4 := by
      by_cases hi : i ∈ (listsEmptied d).kc.sas.map (·.1)
      · exact hdone i hi x hx
      · exact absurd (mem_keys_of_tget ((hother i hi).symm.trans hx)) hi
    exact ⟨h4, hbare' i x hx h4⟩
  · rw [hkc]
    exact peers_bare e
  · intro n
    rw [sliceOf, hsl]
    exact placesEmptied_ctxs e n
  · rw [hkc]
    exact hch
  · rw [hkc]
    exact hsc

end Sys2Proof.Machine
end

section

/-! DMA: the accesses of a side, and what a run can touch. -/

namespace Sys2Proof.Machine

/-! Accesses. -/

theorem accessLen_spec (a : Nat) {n : Nat} (hn : n ≠ 0) :
    1 ≤ accessLen a n ∧ accessLen a n ≤ n ∧ accessLen a n ≤ 256 ∧ a % 4096 + accessLen a n ≤ 4096
      ∧ (8 ≤ accessLen a n → a % 8 = 0 ∧ accessLen a n % 8 = 0) := by
  unfold accessLen
  split
  case isTrue h =>
    rw [Bool.and_eq_true, decide_eq_true_eq, decide_eq_true_eq] at h
    omega
  case isFalse =>
    split
    case isTrue h =>
      rw [Bool.and_eq_true, decide_eq_true_eq, decide_eq_true_eq] at h
      omega
    case isFalse =>
      split
      case isTrue h =>
        rw [Bool.and_eq_true, decide_eq_true_eq, decide_eq_true_eq] at h
        omega
      case isFalse => omega

theorem accesses_succ (f a off : Nat) {n : Nat} (hn : n ≠ 0) : accesses (f + 1) a n off =
    (off, accessLen a n) :: accesses f (a + accessLen a n) (n - accessLen a n) (off + accessLen a n) := by
  rw [accesses, if_neg hn]

theorem accesses_zero (f a off : Nat) : accesses f a 0 off = [] := by
  cases f with
  | zero => rfl
  | succ f => exact if_pos rfl

theorem accesses_sum {f n : Nat} (a off : Nat) (hf : n ≤ f) : ((accesses f a n off).map (·.2)).sum = n := by
  induction f generalizing a n off with
  | zero => exact (Nat.le_zero.mp hf).symm
  | succ f ih =>
    by_cases hn : n = 0
    · rw [hn, accesses_zero]
      rfl
    · obtain ⟨h1, hle, _⟩ := accessLen_spec a hn
      rw [accesses_succ f a off hn, List.map_cons, List.sum_cons, ih _ _ (by omega)]
      omega

/-- Each access begins where the ones before it end. -/
theorem accesses_offset {f a n off : Nat} {l r : List (Nat × Nat)} {c : Nat × Nat} (h : accesses f a n off = l ++ c :: r) :
    c.1 = off + (l.map (·.2)).sum := by
  induction f generalizing a n off l with
  | zero => exact absurd h (by simp [accesses])
  | succ f ih =>
    by_cases hn : n = 0
    · rw [hn, accesses_zero] at h
      exact absurd h (by simp)
    · rw [accesses_succ f a off hn] at h
      cases l with
      | nil =>
        rw [← (List.cons.inj h).1]
        rfl
      | cons x l =>
        obtain ⟨rfl, ht⟩ := List.cons.inj h
        rw [ih ht, List.map_cons, List.sum_cons, Nat.add_assoc]

theorem accesses_each {f a n off : Nat} {c : Nat × Nat} (h : c ∈ accesses f a n off) :
    ∃ e, c.1 = off + e ∧ 1 ≤ c.2 ∧ c.2 ≤ 256 ∧ (a + e) % 4096 + c.2 ≤ 4096 ∧ (8 ≤ c.2 → (a + e) % 8 = 0 ∧ c.2 % 8 = 0) := by
  induction f generalizing a n off with
  | zero => exact absurd h List.not_mem_nil
  | succ f ih =>
    by_cases hn : n = 0
    · rw [hn, accesses_zero] at h
      exact absurd h List.not_mem_nil
    · obtain ⟨h1, _, h256, hpage, hal⟩ := accessLen_spec a hn
      rw [accesses_succ f a off hn] at h
      rcases List.mem_cons.mp h with rfl | h
      · exact ⟨0, rfl, h1, h256, hpage, hal⟩
      · obtain ⟨e, he, hrest⟩ := ih h
        exact ⟨accessLen a n + e, by omega, by rwa [← Nat.add_assoc]⟩

/-- An access of a side from address a, by its offset. -/
theorem accesses_bounds {a n : Nat} {c : Nat × Nat} (h : c ∈ accesses n a n 0) :
    1 ≤ c.2 ∧ c.2 ≤ 256 ∧ (a + c.1) % 4096 + c.2 ≤ 4096 ∧ (8 ≤ c.2 → (a + c.1) % 8 = 0 ∧ c.2 % 8 = 0) := by
  obtain ⟨e, he, hrest⟩ := accesses_each h
  rw [Nat.zero_add] at he
  rwa [he]

/-! What a run keeps. -/

/-- From one point of a run to a later one no byte outside the window has changed, nor the device beside the DMA
channels, the faults and what leaves it. -/
structure Confined (x y : DmaRun) : Prop where
  wf : Memory.wf x.ram = true → Memory.wf y.ram = true
  byte : Memory.wf x.ram = true → ∀ a, windowOk x.dev a 1 = false → ramByte y.ram a = ramByte x.ram a
  regions : y.dev.grn.regions = x.dev.grn.regions
  kc : y.dev.kc = x.dev.kc
  ks : y.dev.ks = x.dev.ks
  sys : y.dev.sys = x.dev.sys

/-- A step that leaves the window memory and, of the device, all but faults and outputs. -/
theorem Confined.of_ram {x y : DmaRun} (hm : y.ram = x.ram) (hg : y.dev.grn.regions = x.dev.grn.regions)
    (hkc : y.dev.kc = x.dev.kc) (hks : y.dev.ks = x.dev.ks) (hsys : y.dev.sys = x.dev.sys) : Confined x y where
  wf h := by rwa [hm]
  byte _ a _ := by rw [hm]
  regions := hg
  kc := hkc
  ks := hks
  sys := hsys

theorem Confined.refl (x : DmaRun) : Confined x x := .of_ram rfl rfl rfl rfl rfl

theorem windowOk_of_regions {d e : Dev} (h : e.grn.regions = d.grn.regions) (a n : Nat) : windowOk e a n = windowOk d a n := by
  unfold windowOk regionOf
  rw [h]

theorem Confined.trans {x y z : DmaRun} (h : Confined x y) (k : Confined y z) : Confined x z where
  wf hw := k.wf (h.wf hw)
  byte hw a ha := (k.byte (h.wf hw) a ((windowOk_of_regions h.regions a 1).trans ha)).trans (h.byte hw a ha)
  regions := k.regions.trans h.regions
  kc := k.kc.trans h.kc
  ks := k.ks.trans h.ks
  sys := k.sys.trans h.sys

theorem dmaFail_confined (e : Nat) (write : Bool) (a : Nat) (x : DmaRun) : Confined x (dmaFail e write a x) := by
  unfold dmaFail
  by_cases h : e = 2
  · simp only [if_pos h]
    exact .of_ram rfl rfl rfl rfl rfl
  · simp only [if_neg h]
    exact .of_ram rfl rfl rfl rfl rfl

/-- The bytes of an access that the window takes and that stays in its page are bytes of the window. -/
theorem windowOk_byte {d : Dev} {a n b : Nat} (h : windowOk d a n = true) (hp : a % 4096 + n ≤ 4096) (hb : a ≤ b ∧ b < a + n) :
    windowOk d b 1 = true := by
  unfold windowOk at h ⊢
  generalize (regionOf d 5).quota * 4096 = q at *
  rw [Bool.and_eq_true, beq_iff_eq, decide_eq_true_eq] at h ⊢
  omega

theorem length_sideRead (x : DmaRun) (window : Bool) (a n : Nat) : (sideRead x window a n).length = n := by
  unfold sideRead
  split
  · simp
  · simp [hostRead]

theorem sideWrite_confined {x : DmaRun} {window : Bool} {a : Nat} {b : Bytes} (hp : a % 4096 + b.length ≤ 4096)
    (h : sideError x window a b.length = 0) : Confined x (sideWrite x window a b) := by
  cases window with
  | false => exact .of_ram rfl rfl rfl rfl rfl
  | true =>
    have hok : windowOk x.dev a b.length = true := by
      cases hk : windowOk x.dev a b.length with
      | true => rfl
      | false =>
        rw [sideError, if_pos rfl, if_neg (by rw [hk]; decide)] at h
        cases h
    refine ⟨fun hw => ramPut_wf hw a b, fun hw n hn => ?_, rfl, rfl, rfl, rfl⟩
    refine (windowWriteReadsBack x.ram a n b hw).trans (if_neg fun hin => ?_)
    rw [windowOk_byte hok hp hin] at hn
    cases hn

theorem dmaStep_confined {sw dw : Bool} {src dst : Nat} (bad : Option (Nat × Nat × Nat)) {x : DmaRun} {c : Nat × Nat}
    (hp : (dst + c.1) % 4096 + c.2 ≤ 4096) : Confined x (dmaStep sw dw src dst bad x c) := by
  unfold dmaStep
  split
  case isTrue => exact .refl x
  case isFalse =>
    split
    case isTrue => exact .of_ram rfl rfl rfl rfl rfl
    case isFalse =>
      split
      case h_1 => exact dmaFail_confined ..
      case h_2 =>
        dsimp only
        split
        case isTrue => exact dmaFail_confined ..
        case isFalse he =>
          have hl := length_sideRead x sw (src + c.1) c.2
          have hw : Confined x (sideWrite x dw (dst + c.1) (sideRead x sw (src + c.1) c.2)) :=
            sideWrite_confined (by rwa [hl]) (by rw [hl]; exact Classical.not_not.mp he)
          exact hw.trans (.of_ram rfl rfl rfl rfl rfl)

theorem dmaMove_confined (sw dw : Bool) (src dst count : Nat) (x : DmaRun) : Confined x (dmaMove sw dw src dst count x) := by
  unfold dmaMove
  exact List.foldlRecOn (motive := Confined x) _ _ (.of_ram rfl rfl rfl rfl rfl) fun y hy c hc =>
    hy.trans (dmaStep_confined _ (accesses_bounds hc).2.2.1)

theorem recordDone_confined (a : Nat) (x : DmaRun) : Confined x (recordDone a x) := by
  unfold recordDone
  dsimp only
  split
  · exact .refl x
  · split
    · exact .of_ram rfl rfl rfl rfl rfl
    · split
      · exact .of_ram rfl rfl rfl rfl rfl
      · exact .of_ram rfl rfl rfl rfl rfl

theorem dmaChain_confined (f a : Nat) (x : DmaRun) : Confined x (dmaChain f a x) := by
  induction f generalizing a x with
  | zero => exact .of_ram rfl rfl rfl rfl rfl
  | succ f ih =>
    have herr : ∀ e, Confined x { x with err := e } := fun e => .of_ram rfl rfl rfl rfl rfl
    unfold dmaChain
    dsimp only
    split
    · exact herr 6
    split
    · exact herr 7
    split
    · exact herr _
    split
    · exact herr 5
    split
    · exact herr 6
    have hspend : Confined x (dmaSpend x) := .of_ram rfl rfl rfl rfl rfl
    have hrec := fun sw dw src dst n =>
      (hspend.trans (dmaMove_confined sw dw src dst n _)).trans (recordDone_confined a _)
    split
    · exact hrec ..
    · exact (hrec ..).trans (ih _ _)

theorem dmaGo_confined (x : DmaRun) : Confined x (dmaGo x) := by
  unfold dmaGo
  dsimp only
  split
  · exact dmaChain_confined ..
  · exact dmaMove_confined ..

/-- A run of the engine on the window and the device. -/
theorem dmaRun_confined (host : HostMem) (cut : Option Nat) (o : Otp) {ram : List Host.Cell} (d : Dev)
    (hw : Memory.wf ram = true) :
    (∀ a, windowOk d a 1 = false → ramByte (dmaRun host cut o ram d).2.1 a = ramByte ram a)
      ∧ (dmaRun host cut o ram d).2.2.grn.regions = d.grn.regions ∧ (dmaRun host cut o ram d).2.2.kc = d.kc
      ∧ (dmaRun host cut o ram d).2.2.ks = d.ks ∧ (dmaRun host cut o ram d).2.2.sys = d.sys := by
  unfold dmaRun
  split
  case h_1 => exact ⟨fun _ _ => rfl, rfl, rfl, rfl, rfl⟩
  case h_2 c _ =>
    have h := dmaGo_confined ⟨host, ram, d, c, { dmaOf d c with state := 2, hops := 0, done := 0 }, cut, 0⟩
    exact ⟨fun a ha => h.byte hw a ha, h.regions, h.kc, h.ks, h.sys⟩

/-- Settles O58: the accesses by induction on the bytes to move; each step of a run writes the window only where the
whole access lies in region 5 and in one page. -/
theorem dmaStaysInItsWindow : Obligations.DmaStaysInItsWindow := by
  unfold Obligations.DmaStaysInItsWindow
  refine ⟨fun a n => ⟨accesses_sum a 0 (Nat.le_refl n), fun l r c h => ?_, fun c hc => accesses_bounds hc⟩,
    fun host cut s hw => ⟨_, runAll_next (dmaRun host cut) s, ?_⟩⟩
  · rw [accesses_offset h, Nat.zero_add]
  · obtain ⟨hbyte, hreg, hkc, hks, hsys⟩ := dmaRun_confined host cut s.otp s.dev hw
    exact ⟨hbyte, hreg, hkc, hks, hsys, dmaRun_otp .., rfl⟩

end Sys2Proof.Machine
end

section

/-! Line mode: frame periods, received frames, the release of Sheaves, superframe boundaries. -/

namespace Sys2Proof.Machine

variable {o : Otp} {d : Dev}

/-! A frame period. -/

/-- What a frame period leaves of the shared counter of a type: the value, and the epoch. -/
def nextFc (now : Nat × Nat) : Nat × Nat :=
  ((now.1 + 1) % 2 ^ 48, if now.1 = 2 ^ 48 - 1 then (now.2 + 1) % 65536 else now.2)

theorem emitAcross_lm (ls : List Nat) (evt : Nat) (w : Nat → Word) (d : Dev) :
    (ls.foldl (fun d m => emit 0 evt (w m) 0 d) d).lm = d.lm :=
  List.foldlRecOn (motive := fun e : Dev => e.lm = d.lm) _ _ rfl fun _ he _ _ => (emit_lm ..).trans he

theorem counted_of_wrap (typ : Nat) (ls : List Nat) (w : Nat → Word) (p : Prop) [Decidable p] (v : Nat × Nat) (d : Dev) :
    let e := { d with lm := { d.lm with txFc := tset d.lm.txFc typ v } }
    tgetD (if p then ls.foldl (fun d m => emit 0 0x0481 (w m) 0 d) e else e).lm.txFc typ (0, 0) = v := by
  dsimp only
  split
  · rw [emitAcross_lm]
    exact tgetD_tset_same _ _ _ _
  · exact tgetD_tset_same _ _ _ _

theorem frameTransmit_counts {typ dt : Nat} (ins : List ClientIn) (skips faults : List Nat) (ht : typ < 4)
    (hr : txRuns (passTime dt d) = true) :
    tgetD (frameTransmit typ ins skips faults dt o d).lm.txFc typ (0, 0) = nextFc (tgetD d.lm.txFc typ (0, 0)) := by
  unfold frameTransmit
  dsimp only
  rw [if_neg (by simp [hr]; omega)]
  exact counted_of_wrap ..

/-! A received frame. -/

variable {lane pos dt : Nat} {f : Bytes} {skip : Bool}

theorem frameReceive_of_lane (hr : txRuns (passTime dt d) = true) (hm : isLmLane (passTime dt d) lane = true)
    (hl : lane < lanes o) (hf : f.length = 8192) (hp : pos < 8192) : frameReceive lane pos f skip dt o d =
      if (lmLane (passTime dt d) lane).sync then
        (if pos = (lmLane (passTime dt d) lane).pos then defectsAndPaths (syncFrame lane f skip o) (passTime dt d)
         else passTime dt d)
      else defectsAndPaths (huntFrame lane pos f) (passTime dt d) := by
  unfold frameReceive
  dsimp only
  rw [if_neg (by simp [hr, hm, hf]; omega)]

theorem barExpiry_of_past {since : Nat} (hb : (pos, since) ∈ (lmLane (passTime dt d) lane).barred)
    (ht : since * 25 + hBar (huntOf (passTime dt d) lane) * (14336 * 2 ^ laneType (passTime dt d) lane)
      ≤ rawNow (passTime dt d) * 25) : barExpiry lane pos dt o d = setLm lane { lmLane (passTime dt d) lane with
        barred := (lmLane (passTime dt d) lane).barred.filter (fun b => b.1 != pos) } (passTime dt d) := by
  unfold barExpiry
  refine if_pos (List.any_eq_true.mpr ⟨(pos, since), hb, ?_⟩)
  rw [periodsSince, decide_eq_true ht, beq_self_eq_true]
  rfl

/-! The release of a Sheaf. -/

theorem le_foldl_min {l : List RxFrame} {b a : Nat} (ha : b ≤ a) (hl : ∀ g ∈ l, b ≤ g.arrival) :
    b ≤ l.foldl (fun a g => min a g.arrival) a := by
  induction l generalizing a with
  | nil => exact ha
  | cons g l ih =>
    obtain ⟨hg, hl⟩ := List.forall_mem_cons.mp hl
    exact ih (Nat.le_min.mpr ⟨ha, hg⟩) hl

/-- Until its skew allowance has passed since the first of them, the frames wait. -/
theorem skewDue_of_early {x : Sheaf} {got : List RxFrame}
    (h : ∃ f ∈ got, ∀ g ∈ got, f.arrival ≤ g.arrival ∧ rawNow d < f.arrival + x.d * 1750) : skewDue d x got = false := by
  obtain ⟨f, hf, hall⟩ := h
  unfold skewDue
  cases got with
  | nil => exact absurd hf List.not_mem_nil
  | cons g gs =>
    obtain ⟨hg, hgs⟩ := List.forall_mem_cons.mp hall
    have hmin := le_foldl_min hg.1 fun k hk => (hgs k hk).1
    refine decide_eq_false (Nat.not_le.mpr ?_)
    omega

/-- The reorder stage of a Sheaf once the frames up to a counter have left it. -/
def sheafDrained (i fc : Nat) (x : Sheaf) (d : Dev) : Dev :=
  let rest := x.waiting.filter (fun f => decide (0 < fcDiff f.fc fc))
  skewRead x rest { d with lm := { d.lm with sheaves := tset d.lm.sheaves i { x with waiting := rest } } }

variable {i fc : Nat} {x : Sheaf}

theorem sheafRelease_of_early (hx : tget (passTime dt d).lm.sheaves i = some x)
    (h : skewDue (passTime dt d) x (x.waiting.filter (fun f => f.fc == fc)) = false) :
    sheafRelease i fc dt o d = passTime dt d := by
  unfold sheafRelease
  dsimp only
  rw [hx]
  dsimp only
  rw [h]
  rfl

theorem sheafRelease_of_traffic (hx : tget (passTime dt d).lm.sheaves i = some x)
    (h : skewDue (passTime dt d) x (x.waiting.filter (fun f => f.fc == fc)) = true)
    (ht : trafficOn (sheafDrained i fc x (passTime dt d)) = true)
    (hp : pathOfSheaf (sheafDrained i fc x (passTime dt d)) i = none) :
    sheafRelease i fc dt o d = pathsRefresh (withDefects (fun d =>
      (demapAll i fc (memberFrames x (x.waiting.filter (fun f => f.fc == fc))) false d).2)
      (sheafDrained i fc x (passTime dt d))) := by
  unfold sheafDrained at *
  unfold sheafRelease
  dsimp only at *
  rw [hx]
  dsimp only
  rw [h]
  simp only [Bool.not_true, Bool.false_eq_true, if_false]
  generalize skewRead x _ _ = e at *
  rw [ht, hp]
  rfl

theorem sheafRelease_of_blocked (hx : tget (passTime dt d).lm.sheaves i = some x)
    (h : skewDue (passTime dt d) x (x.waiting.filter (fun f => f.fc == fc)) = true)
    (ht : trafficOn (sheafDrained i fc x (passTime dt d)) = false)
    (hb : egressBlocked (sheafDrained i fc x (passTime dt d)) = true) :
    sheafRelease i fc dt o d = ((rxClients (sheafDrained i fc x (passTime dt d))).filter
      (fun c => descSheaf c.2 == i)).foldl (fun d c => out (replacement c.1 c.2) d) (sheafDrained i fc x (passTime dt d)) := by
  unfold sheafDrained at *
  unfold sheafRelease
  dsimp only at *
  rw [hx]
  dsimp only
  rw [h]
  simp only [Bool.not_true, Bool.false_eq_true, if_false]
  generalize skewRead x _ _ = e at *
  rw [ht, hb]
  rfl

/-! Superframe boundaries. -/

theorem txBoundary_of_superframe {typ n : Nat} (hr : txRuns d = true) (ht : typ < 4)
    (hf : (tgetD d.lm.txFc typ (0, 0)).1 = 256 * n) : txBoundary typ o d =
      let ls := (lmLanes d).filter (fun m => laneType d m == typ && decide (m < lanes o))
      let ss := (d.lm.sheaves.filter (fun s => s.2.members.any (fun m => ls.contains m))).map (·.1)
      ss.foldl (txSheafBoundary n) (ls.foldl laneBoundary { d with pth := { d.pth with
        pairs := d.pth.pairs.map (fun p =>
          (p.1, { p.2 with bSends := p.2.bSends || (p.2.line && ss.contains p.2.b.carrier) })) } }) := by
  unfold txBoundary
  dsimp only
  rw [if_neg (by simp [hr, hf]; omega), hf, Nat.mul_div_cancel_left n (by decide)]

theorem rxBoundary_of_commit {n : Nat} {c : DescCommit} (hr : txRuns d = true) (hs : (tget d.lm.sheaves i).isSome = true)
    (hc : tget d.lm.commits i = some c) (hn : c.rx = some n) : rxBoundary i n o d =
      let e := { d with lm := { d.lm with rxCopy := takeRows i d.lm.rxCopy d.lm.shadow } }
      commitSwapped i { c with rx := none } (emit 0 0x0484 (wd (2 ^ 16 + i)) (wd (n % 2 ^ 32))
        (rxInForce d { e with lm := { e.lm with rxNow := takeRows i e.lm.rxNow e.lm.rxCopy } })) := by
  unfold rxBoundary
  dsimp only
  rw [if_neg (by simp [hr, Option.ne_none_iff_isSome.mpr hs]), hc]
  dsimp only
  have hb : (c.rx == some n) = true := by rw [hn]; exact beq_self_eq_true _
  simp only [hb, if_true]

/-- Settles O23: each frame, release and boundary takes the branch of its lane, Sheaf or commit. A receive swap takes
the shadow as it stands (log entry 64), and the counters advance whether or not a lane carries them (log entry 25). -/
theorem lineModeFramesAct : Obligations.LineModeFramesAct := by
  unfold Obligations.LineModeFramesAct
  refine ⟨?period, ?receive, ?bar, ?release, ?transmit, ?swap⟩
  case period =>
    intro typ dt ins m s ht hr
    exact ⟨_, run_eq_next_put (f := frameTransmit typ ins m.skips m.faults dt) rfl, rfl, rfl,
      frameTransmit_counts ins m.skips m.faults ht hr⟩
  case receive =>
    intro lane pos dt f skip s d hr hm hl hf hp
    have h := frameReceive_of_lane (skip := skip) hr hm hl hf hp
    refine ⟨fun hs hat => run_eq_next_put (f := frameReceive lane pos f skip dt) (h.trans ?_),
      fun hs hat => run_eq_next_put (f := frameReceive lane pos f skip dt) (h.trans ?_),
      fun hs => run_eq_next_put (f := frameReceive lane pos f skip dt) (h.trans ?_)⟩
    · exact (if_pos hs).trans (if_pos hat)
    · exact (if_pos hs).trans (if_neg hat)
    · exact if_neg (Bool.not_eq_true _ ▸ hs)
  case bar => exact fun lane pos dt since s hb ht => run_eq_next_put (f := barExpiry lane pos dt) (barExpiry_of_past hb ht)
  case release =>
    intro i fc dt x s d got rest e hx
    exact ⟨fun h => run_eq_next_put (f := sheafRelease i fc dt) (sheafRelease_of_early hx (skewDue_of_early h)),
      fun h ht hp => run_eq_next_put (f := sheafRelease i fc dt) (sheafRelease_of_traffic hx h ht hp),
      fun h ht hb => run_eq_next_put (f := sheafRelease i fc dt) (sheafRelease_of_blocked hx h ht hb)⟩
  case transmit =>
    exact fun typ n s hr ht hf => run_eq_next_put (f := txBoundary typ) (txBoundary_of_superframe hr ht hf)
  case swap =>
    exact fun i n c s hr hs hc hn => run_eq_next_put (f := rxBoundary i n) (rxBoundary_of_commit hr hs hc hn)

end Sys2Proof.Machine
end

section
/-! Line-mode commands (R204 to R213, R224, R234). -/
namespace Sys2Proof.Machine

theorem mapRecord_submitted (c : Nat) (r q : NcsReq) (d : Dev) : mapRecord (submitted c r d) q = mapRecord d q := by
  obtain ⟨sb, outs, h⟩ := submitted_eq c r d
  rw [h]
  rfl

theorem clientMap_of_record {o : Otp} {d : Dev} {r : NcsReq} {x : List Word} (h : mapRecord d r = some x) :
    cmdLmClientMap.act o d r = (partialSecond (rf r 0 29 24) (putRecord (rf r 0 29 24) x d), stOk, [x.getD 2 0, x.getD 3 0]) := by
  change (match mapRecord d r with | none => _ | some x => _) = _
  rw [h]

/-- The table that LM_DESC_READ names. -/
theorem descRead_act (o : Otp) (d : Dev) (r : NcsReq) : cmdLmDescRead.act o d r = (d, stOk, tgetD
    (if rf r 0 31 30 = 0 then d.lm.shadow else if rf r 0 31 30 = 1 then d.lm.txCopy else d.lm.rxCopy) (rf r 0 5 0)
      [0, 0, 0, 0]) := by
  change (d, stOk, tgetD (match rf r 0 31 30 with | 0 => d.lm.shadow | 1 => d.lm.txCopy | _ => d.lm.rxCopy) _ _) = _
  split
  case h_1 h => rw [if_pos h]
  case h_2 h => rw [if_neg (by omega), if_pos h]
  case h_3 h0 h1 => rw [if_neg h0, if_neg h1]

/-- Settles O22: each command has its effect on the device that picked it up. The words of a lane outside line mode, and
a commit that takes the place of an armed one, are log entries 64 and 28. -/
theorem lineModeCommandsAct : Obligations.LineModeCommandsAct := by
  unfold Obligations.LineModeCommandsAct
  refine ⟨?portEnable, ?portDisable, ?sheafCreate, ?sheafDelete, ?clientMap, ?clientUnmap, ?laneStatus, ?traceSet,
    ?traceGet, ?descWrite, ?descRead, ?descCommit, ?huntWrite, ?huntRead, ?testMode, ?defectGet, ?pmGet, ?paramWrite,
    ?paramRead, ?maintSet⟩
  case clientMap =>
    intro r x s h hx
    exact served_at (c := cmdLmClientMap) rfl h rfl
      (clientMap_of_record (by rw [mapRecord_submitted]; exact hx)) (by decide) (fun _ => rfl)
  case descRead => exact answers_intro (fun _ _ => rfl) descRead_act (fun _ _ _ => rfl)
  case portEnable | portDisable | sheafCreate | sheafDelete | clientUnmap | traceSet | descWrite |
      descCommit | huntWrite | testMode | paramWrite | maintSet =>
    exact sets_intro (fun _ _ => rfl) (fun _ _ _ => rfl) (fun _ _ _ => rfl)
  case laneStatus | traceGet | huntRead | defectGet | pmGet | paramRead =>
    exact answers_intro (fun _ _ => rfl) (fun _ _ _ => rfl) (fun _ _ _ => rfl)

end Sys2Proof.Machine
end

section
/-! Lane defects and one-second counters (R216, R227, R228). -/
namespace Sys2Proof.Machine

variable {code m dt : Nat} {on : Bool} {cond : Dev → Nat → Bool} {o : Otp} {d : Dev}

theorem defectRow_of_held (hm : isLmLane (passTime dt d) m = true) (hc : cond (passTime dt d) m = true) :
    defectRow code on cond m dt o d = defectsAndPaths (setDefect m code on) (passTime dt d) :=
  if_pos (by rw [hm, hc]; rfl)

theorem defectRow_of_open (hc : cond (passTime dt d) m = false) : defectRow code on cond m dt o d = passTime dt d :=
  if_neg (by rw [hc, Bool.and_false]; decide)

theorem losHolds_of {present : Bool} {n : Nat} (hs : (laneOf d m).signal = present)
    (ht : (laneOf d m).signalAt + n ≤ rawNow d) : losHolds present n d m = true := by
  rw [losHolds, hs, decide_eq_true ht, beq_self_eq_true]
  rfl

theorem losHolds_of_open {n : Nat} (h : (laneOf d m).signal = true ∨ rawNow d < (laneOf d m).signalAt + n) :
    losHolds false n d m = false := by
  rw [losHolds]
  rcases h with h | h
  · rw [h]
    rfl
  · rw [decide_eq_false (Nat.not_le.mpr h), Bool.and_false]

theorem lockHolds_of (hl : (laneOf d m).lock = true) (ht : (laneOf d m).lockAt + 175000 ≤ rawNow d) : lockHolds d m = true := by
  rw [lockHolds, hl, decide_eq_true ht]
  rfl

theorem periodsSince_of {typ n since : Nat} (h : since * 25 + n * (14336 * 2 ^ typ) ≤ rawNow d * 25) :
    periodsSince d typ n since = true := decide_eq_true h

theorem syncHolds_of {sync : Bool} {n : Nat} (hs : (lmLane d m).sync = sync)
    (ht : periodsSince d (laneType d m) n (lmLane d m).syncAt = true) : syncHolds sync n d m = true := by
  rw [syncHolds, hs, ht, beq_self_eq_true]
  rfl

theorem epochUnknown_of (hs : (lmLane d m).sync = true) (he : (lmLane d m).epoch = none)
    (ht : periodsSince d (laneType d m) 256 (lmLane d m).syncAt = true) : epochUnknown d m = true := by
  rw [epochUnknown, he, syncHolds_of hs ht]
  rfl

theorem fitHolds_of {fit : Bool} {n : Nat} (hf : fitOf d m = some fit) (hx : (lmLane d m).fit = some fit)
    (ht : periodsSince d (laneType d m) n (lmLane d m).fitAt = true) : fitHolds fit n d m = true := by
  rw [fitHolds, hf, hx, ht, beq_self_eq_true]
  rfl

/-- A seconds boundary that the TU has not yet seen. -/
theorem secondsBoundary_of_new (hr : tuRuns (passTime dt d) = true)
    (hs : (passTime dt d).tu.lastSec < secOf (timeNow (passTime dt d))) : secondsBoundary dt o d =
      let e := revertsRoll (latchAll (passTime dt d).tu.lastSec false (passTime dt d))
      ppsOut (secOf (timeNow (passTime dt d))) { e with tu := { e.tu with
        lastSec := secOf (timeNow (passTime dt d)), pps := e.tu.ppsNext.getD e.tu.pps, ppsNext := none } } := by
  unfold secondsBoundary
  exact if_neg (by simp [hr, hs])

theorem latchPm_hist (tag now : Nat) (part : Bool) (p : Pm) {i : Nat} (hi : i < 7) :
    (latchPm tag now part p).hist[i + 1]? = p.hist[i]? := by
  rw [latchPm, List.getElem?_take, if_pos (by omega)]
  rfl

/-- Settles O24: a row acts where the criterion of its defect has held, and a latch puts the second before the others. -/
theorem defectsAndSecondsAct : Obligations.DefectsAndSecondsAct := by
  unfold Obligations.DefectsAndSecondsAct
  refine ⟨⟨?defects, ?boundary⟩, ?latch⟩
  case defects =>
    intro m dt s d l x periods set hm
    have row := fun {code on cond} (hc : cond d m = true) =>
      run_eq_next_put (s := s) (f := defectRow code on cond m dt) (defectRow_of_held hm hc)
    exact ⟨fun hs ht => row (losHolds_of hs ht), fun hs ht => row (losHolds_of hs ht), fun hl ht => row (lockHolds_of hl ht),
      fun hs ht => row (cond := syncHolds false (lofSet s.dev)) (syncHolds_of hs (periodsSince_of ht)),
      fun hs ht => row (cond := syncHolds true (lofClr s.dev)) (syncHolds_of hs (periodsSince_of ht)),
      fun hs he ht => row (epochUnknown_of hs he (periodsSince_of ht)),
      fun hf hx ht => row (fitHolds_of hf hx (periodsSince_of ht)),
      fun hf hx ht => row (fitHolds_of hf hx (periodsSince_of ht)),
      fun h => run_eq_next_put (f := defectRow 1 true (losHolds false 3500) m dt) (defectRow_of_open (losHolds_of_open h))⟩
  case boundary =>
    exact fun dt s hr hs => run_eq_next_put (f := secondsBoundary dt) (secondsBoundary_of_new hr hs)
  case latch =>
    intro tag now part p q
    exact ⟨rfl, List.length_take_le _ _, rfl, rfl, rfl, rfl, fun i hi => latchPm_hist tag now part p hi⟩

end Sys2Proof.Machine
end

section
/-! Cipher slices, the DRBG and the bulk service (R245 to R268). -/
namespace Sys2Proof.Machine

variable {n : Nat} {o : Otp} {d : Dev}

/-! Shadow verification (R253, R254). -/

/-- A slice's oldest sample has been taken out and recomputed. -/
def recomputed (n : Nat) (x : Sample) (d : Dev) : Dev :=
  countSlice n (fun y => { y with samples := y.samples + 1 }) (sidingWork x.siding x (dropSample n (·.first.isNone) d))

/-- The Siding's tag differs: a second Siding is sought and the sample waits for its arbitration. -/
def disputed (n : Nat) (tag : Bytes) (o : Otp) (x : Sample) (d : Dev) : Dev :=
  let e := countSlice n (fun y => { y with mismatches := y.mismatches + 1 }) (recomputed n x d)
  let z := { x with first := some tag, second := secondSiding o e n x.siding }
  let f := { e with sl := { e.sl with samples := e.sl.samples ++ [z] } }
  match z.second with
  | some m => sidingRefresh m f
  | none => f

section
variable {tag : Bytes} {x : Sample} (hm : d.sys.mode ≠ .locked)
  (hx : d.sl.samples.find? (fun x => x.slice == n && x.first.isSome == false) = some x)
include hm hx

theorem recomputeDone_of_gone (hl : sampleLives d x = false) :
    recomputeDone n tag o d = skipSample n (sidingRefresh x.siding (dropSample n (·.first.isNone) d)) := by
  unfold recomputeDone sampleOf
  rw [if_neg hm, hx]
  exact if_pos (by rw [hl]; rfl)

theorem recomputeDone_of_same (hl : sampleLives d x = true) (ht : tag = x.tag) :
    recomputeDone n tag o d = sidingRefresh x.siding (recomputed n x d) := by
  unfold recomputeDone sampleOf
  rw [if_neg hm, hx]
  exact (if_neg (by rw [hl]; decide)).trans (if_pos ht)

theorem recomputeDone_of_other (hl : sampleLives d x = true) (ht : tag ≠ x.tag) :
    recomputeDone n tag o d = disputed n tag o x d := by
  unfold recomputeDone sampleOf
  rw [if_neg hm, hx]
  refine (if_neg (by rw [hl]; decide)).trans ((if_neg ht).trans ?_)
  unfold disputed recomputed
  rfl

end

/-- The verdict of an arbitration (R254). -/
def arbitrationCode (tag : Bytes) (runs : List (Bool × Bool)) (o : Otp) (x : Sample) : Nat :=
  if x.second.isNone then (if katFail o runs = 0 then 1 else 2)
  else if some tag = x.first then 1 else if tag = x.tag then 2 else 3

/-- The sample is taken out, its Sidings go on, the verdict is told. -/
def arbitrated (n code : Nat) (x : Sample) (d : Dev) : Dev :=
  let e := dropSample n (·.first.isSome) d
  let f := match x.second with | some m => sidingRefresh m (sidingWork m x e) | none => waste x.siding 2048 e
  emit 0 0x06E1 (wd (code * 2 ^ 24 + x.second.getD 0xFF * 2 ^ 16 + x.siding * 2 ^ 8 + n)) (wd x.sa) (sidingRefresh x.siding f)

/-- The slices that a verdict takes out of service. -/
def verdictActs (n : Nat) (o : Otp) (x : Sample) (code : Nat) (d : Dev) : Dev :=
  if code = 1 then sliceOut 2 n o d
  else if code = 2 then sliceOut (if x.second.isNone then 1 else 5) x.siding o d
  else sliceOut 5 x.siding o (sliceOut 2 n o d)

theorem arbitrate_of_sample {tag : Bytes} {runs : List (Bool × Bool)} {x : Sample} (hm : d.sys.mode ≠ .locked)
    (hx : d.sl.samples.find? (fun x => x.slice == n && x.first.isSome == true) = some x) :
    arbitrate n tag runs o d =
      verdictActs n o x (arbitrationCode tag runs o x) (arbitrated n (arbitrationCode tag runs o x) x d) := by
  unfold arbitrate sampleOf
  rw [if_neg hm, hx]
  rfl

theorem arbitrationCode_of_alone {tag : Bytes} {runs : List (Bool × Bool)} {x : Sample} (hs : x.second = none) :
    arbitrationCode tag runs o x = if katFail o runs = 0 then 1 else 2 := by
  rw [arbitrationCode, hs]
  rfl

theorem arbitrationCode_of_second {tag first : Bytes} {runs : List (Bool × Bool)} {x : Sample} {m : Nat}
    (hs : x.second = some m) (hf : x.first = some first) :
    arbitrationCode tag runs o x = if tag = first then 1 else if tag = x.tag then 2 else 3 := by
  rw [arbitrationCode, hs, hf]
  simp

theorem arbitrated_of_second {x : Sample} {m : Nat} (hs : x.second = some m) (code : Nat) : arbitrated n code x d =
    emit 0 0x06E1 (wd (code * 2 ^ 24 + m * 2 ^ 16 + x.siding * 2 ^ 8 + n)) (wd x.sa)
      (sidingRefresh x.siding (sidingRefresh m (sidingWork m x (dropSample n (·.first.isSome) d)))) := by
  unfold arbitrated
  rw [hs]
  rfl

theorem arbitrated_of_alone {x : Sample} (hs : x.second = none) (code : Nat) : arbitrated n code x d =
    emit 0 0x06E1 (wd (code * 2 ^ 24 + 0xFF * 2 ^ 16 + x.siding * 2 ^ 8 + n)) (wd x.sa)
      (sidingRefresh x.siding (waste x.siding 2048 (dropSample n (·.first.isSome) d))) := by
  unfold arbitrated
  rw [hs]
  rfl

theorem takeoverDone_of_siding (h : (sliceOf d n).state = 5) : takeoverDone n o d =
    let x := sliceOf d n
    let y := x.loadAll d.kc.sas (x.ctxs.map (·.sa))
    let e := waste n (33 * y.ctxs.length) d
    sliceRun o n (setSlice n y (if x.ctxs.any (!·.ready) then { e with dsp := { e.dsp with
      movesDone := e.dsp.movesDone + 1, doneTick := e.dsp.doneTick + 1, causeTick := e.dsp.causeTick ||| 2 } } else e)) := by
  unfold takeoverDone
  exact if_pos h

theorem reseedMask_of_powered (hn : n < slices o) (hs : (sliceOf d n).state ≠ 0) (hu : d.sl.keyDrbg.up = true) :
    reseedMask n o d = sliceRun o n (seedMask n d) := by
  unfold reseedMask
  exact if_pos (by rw [decide_eq_true hn, beq_false_of_ne hs, hu]; rfl)

/-! The DRBG and its sources (R246 to R248). -/

theorem entropyInput_sl (k : Nat) (d : Dev) : (entropyInput k d).2.sl = d.sl := by
  unfold entropyInput
  exact List.foldlRecOn (motive := fun a : List Bool × Dev => a.2.sl = d.sl) _ _ rfl fun _ ha _ _ => ha

theorem reseedDrbg_key (d : Dev) : (reseedDrbg false d).sl.keyDrbg.requests = 0 := rfl

theorem reseedDrbg_line (d : Dev) : (reseedDrbg true d).sl.keyDrbg = d.sl.keyDrbg ∧ (reseedDrbg true d).sl.lineDrbg.requests = 0 :=
  ⟨congrArg (fun x => x.keyDrbg) (entropyInput_sl 1 d), rfl⟩

theorem reseeded_requests (d : Dev) :
    let e := emptyPools (reseedDrbg true (reseedDrbg false d))
    e.sl.keyDrbg.requests = 0 ∧ e.sl.lineDrbg.requests = 0 := by
  obtain ⟨hk, hl⟩ := reseedDrbg_line (reseedDrbg false d)
  exact ⟨(congrArg Drbg.requests hk).trans (reseedDrbg_key d), hl⟩

theorem drbgReseed_of_healthy (hu : d.sl.keyDrbg.up = true) (hs : d.sl.source0.state = 0 ∨ d.sl.source1.state = 0) :
    drbgReseed o d = let e := emptyPools (reseedDrbg true (reseedDrbg false d))
      { e with sl := { e.sl with sinceReseed := 0 } } := by
  unfold drbgReseed
  exact if_pos (by simpa [hu] using hs)

theorem drbgReseed_of_failed (h0 : d.sl.source0.state ≠ 0) (h1 : d.sl.source1.state ≠ 0) : drbgReseed o d = d := by
  unfold drbgReseed
  exact if_neg (by simp [h0, h1])

section
variable {i : Nat} {bs : List Bool} (hi : i ≤ 1)
include hi

theorem takeSamples_of_healthy (hs : (sourceOf d i).state = 0) (hu : d.sl.keyDrbg.up = true) : takeSamples i bs d =
    let x := sourceOf d i
    let r := x.health.samples bs
    if r.2 = 0 then setSource i { x with health := r.1, pool := x.pool ++ bs } d
    else rngEvent false r.2 i (setSource i (x.restart r.2) d) := by
  unfold takeSamples
  exact if_neg (by simp [hs, hu, hi])

theorem startupTest_of_restarted (hs : (sourceOf d i).state = 1) : startupTest i bs o d =
    let x := sourceOf d i
    if startupOk bs then setSource i { x with state := 0, fails := 0 } d
    else if x.fails + 1 < 3 then setSource i { x with fails := x.fails + 1 } d
    else rngEvent true 3 i (setSource i { x with state := 2, fails := 3 } d) := by
  unfold startupTest
  exact if_pos (by simp [hs, hi])

end

theorem startupOk_iff (bs : List Bool) : startupOk bs = true ↔ 1024 ≤ bs.length ∧ (Health.init.samples (bs.take 1024)).2 = 0 := by
  rw [startupOk, Bool.and_eq_true, decide_eq_true_eq, beq_iff_eq]
  rfl

/-! Bulk jobs and tests on request (R264 to R268). -/

theorem bulkDone_of_bus {p tag : Nat} {j : BulkJob}
    (h : d.sl.bulk.find? (fun j => j.page == p && j.tag == tag && j.siding.isSome) = some j) :
    bulkDone p tag false o d = bulkStop o stBusError j d := by
  unfold bulkDone
  rw [h]
  rfl

theorem bulkDone_of_end {p tag : Nat} {j : BulkJob}
    (h : d.sl.bulk.find? (fun j => j.page == p && j.tag == tag && j.siding.isSome) = some j) :
    bulkDone p tag true o d =
      let blocks := blockCount j.source.length - j.pos
      let cycles := if j.encrypt && (j.mode == 2 || j.mode == 3) then 58 * blocks else blocks + 1
      let e := out (.hostWrite (j.dst + 16 * j.pos) (bulkResult j).2) (deliver (j.siding.getD 0) cycles d)
      if (bulkResult j).1 then bulkEnd o j stOk j.dstLen e
      else bulkEnd o j stAuthFail j.dstLen (out (.hostWrite j.dst (zeros j.dstLen)) e) := by
  unfold bulkDone
  rw [h]
  rfl

theorem sliceTestDone_of_test {p tag : Nat} {runs : List (Bool × Bool)} {wasOut : Bool}
    (h : d.sl.testing.find? (fun x => x.2.2.1 == n) = some (p, tag, n, wasOut)) :
    sliceTestDone n runs o d =
      let fail := katFail o runs
      let e := { d with sl := { d.sl with testing := d.sl.testing.filter (fun x => x.2.2.1 != n) } }
      finish p tag 0x0670 stOk (wd (fail * 2 ^ 8 + (if fail = 0 then 1 else 0)))
        (if wasOut then setState n 7 (waste n 2048 e) else testEnded n (fail = 0) o e) := by
  unfold sliceTestDone
  rw [h]

/-- A slice that is out of service is tested. -/
def outTested (r : NcsReq) (d : Dev) : Dev :=
  let e := setState (rf r 0 7 0) 6 d
  { e with sl := { e.sl with testing := e.sl.testing ++ [(r.page, r.tag, rf r 0 7 0, true)] } }

theorem testBegin_of_out {r : NcsReq} (h : (sliceOf d (rf r 0 7 0)).state = 7) : testBegin r o d = outTested r d := by
  unfold testBegin outTested
  dsimp only
  rw [h]
  cases pickSiding o d (sliceSector (rf r 0 7 0)) <;> rfl

theorem sliceOf_submitted (c : Nat) (r : NcsReq) (d : Dev) (n : Nat) : sliceOf (submitted c r d) n = sliceOf d n := by
  unfold sliceOf
  rw [submitted_sl]

/-- A cancelled job stops once its request has been answered. -/
theorem bulkCancel_after {r : NcsReq} {j : BulkJob}
    (h : d.sl.bulk.find? (fun j => j.page == r.page && j.tag == rf r 0 7 0) = some j) :
    cmdBulkCancel.after o r stOk d = bulkStop o stCancelled j d := by
  change (if stOk = stOk then (match d.sl.bulk.find? (fun j => j.page == r.page && j.tag == rf r 0 7 0) with
    | some j => bulkStop o stCancelled j d
    | none => d) else d) = _
  rw [if_pos rfl, h]

/-- Settles O26: each command has its effect on the device that picked it up, and each happening takes the branch of its
sample, source, job or test. -/
theorem slicesAndBulkAct : Obligations.SlicesAndBulkAct := by
  unfold Obligations.SlicesAndBulkAct
  refine ⟨⟨?status, ?map, ?rng, ?submit, ?cancel, ?test, ?shadow⟩, ?recompute, ?arbitrate, ?alone, ?takeover, ?mask, ?reseed,
    ?samples, ?startup, ?bulk, ?tested⟩
  case status | map | rng => exact answers_intro (fun _ _ => rfl) (fun _ _ _ => rfl) (fun _ _ _ => rfl)
  case submit => exact starts_intro (fun _ _ => rfl) (fun _ _ _ => rfl) (fun _ _ _ => rfl)
  case cancel =>
    intro r j s h hj
    refine (show exec (.bulkCancel r) s = run (command cmdBulkCancel r) s from rfl).trans
      ((passes_answered h rfl (by decide)).trans (congrArg (fun x => Host.Outcome.next (s.put x)) (bulkCancel_after ?_)))
    rw [respond_sl, submitted_sl]
    exact hj
  case test =>
    exact fun r s h hs => taken_at (c := cmdSliceTest) (e := outTested r) rfl h rfl
      (congrArg (fun x => (x, stAccepted, [])) (testBegin_of_out (by rw [sliceOf_submitted]; exact hs))) rfl (fun _ => rfl)
  case shadow => exact sets_intro (fun _ _ => rfl) (fun _ _ _ => rfl) (fun _ _ _ => rfl)
  case recompute =>
    intro n tag x s hm hx
    exact ⟨fun hl => run_eq_next_put (f := recomputeDone n tag) (recomputeDone_of_gone hm hx hl),
      fun hl ht => run_eq_next_put (f := recomputeDone n tag) (recomputeDone_of_same hm hx hl ht),
      fun hl ht => run_eq_next_put (f := recomputeDone n tag) (recomputeDone_of_other hm hx hl ht)⟩
  case arbitrate =>
    intro n m tag first runs x s hm hx hf hs
    have h := arbitrate_of_sample (o := s.otp) (tag := tag) (runs := runs) hm hx
    rw [arbitrationCode_of_second hs hf] at h
    refine ⟨fun ht => run_eq_next_put (f := arbitrate n tag runs) (h.trans ?_),
      fun ht hp => run_eq_next_put (f := arbitrate n tag runs) (h.trans ?_),
      fun ht hp => run_eq_next_put (f := arbitrate n tag runs) (h.trans ?_)⟩
    · rw [if_pos ht, arbitrated_of_second hs]
      rfl
    · rw [if_neg ht, if_pos hp, arbitrated_of_second hs, verdictActs, hs]
      rfl
    · rw [if_neg ht, if_neg hp, arbitrated_of_second hs]
      rfl
  case alone =>
    intro n tag runs x s hm hx hs
    have h := arbitrate_of_sample (o := s.otp) (tag := tag) (runs := runs) hm hx
    rw [arbitrationCode_of_alone hs] at h
    refine ⟨fun hk => run_eq_next_put (f := arbitrate n tag runs) (h.trans ?_),
      fun hk => run_eq_next_put (f := arbitrate n tag runs) (h.trans ?_)⟩
    · rw [if_pos hk, arbitrated_of_alone hs]
      rfl
    · rw [if_neg hk, arbitrated_of_alone hs, verdictActs, hs]
      rfl
  case takeover => exact fun n s h => run_eq_next_put (f := takeoverDone n) (takeoverDone_of_siding h)
  case mask => exact fun n s hn hs hu => run_eq_next_put (f := reseedMask n) (reseedMask_of_powered hn hs hu)
  case reseed =>
    exact fun s => ⟨fun hu hs => ⟨run_eq_next_put (f := drbgReseed) (drbgReseed_of_healthy hu hs), reseeded_requests s.dev⟩,
      fun h0 h1 => run_eq_next_put (f := drbgReseed) (drbgReseed_of_failed h0 h1)⟩
  case samples =>
    intro i bs s hi hs hu x h
    have ht := takeSamples_of_healthy (bs := bs) hi hs hu
    have row := fun {e : Dev} (he : takeSamples i bs s.dev = e) =>
      run_eq_next_put (s := s) (f := fun _ d => takeSamples i bs d) he
    refine ⟨fun h0 => row (ht.trans (if_pos h0)), fun h1 => row (ht.trans ((if_neg ?_).trans ?_)),
      fun h2 => row (ht.trans ((if_neg ?_).trans ?_))⟩
    · exact fun h0 => absurd (h0.symm.trans h1) (by decide)
    · rw [show ((sourceOf s.dev i).health.samples bs).2 = 1 from h1]
      rfl
    · exact fun h0 => absurd (h0.symm.trans h2) (by decide)
    · rw [show ((sourceOf s.dev i).health.samples bs).2 = 2 from h2]
      rfl
  case startup =>
    intro i bs s hi hs x pass
    have h := startupTest_of_restarted (o := s.otp) (bs := bs) hi hs
    refine ⟨fun hp => run_eq_next_put (f := startupTest i bs) (h.trans (if_pos ((startupOk_iff bs).mpr hp))),
      fun hp hf => run_eq_next_put (f := startupTest i bs) (h.trans ((if_neg (mt (startupOk_iff bs).mp hp)).trans (if_pos ?_))),
      fun hp hf => run_eq_next_put (f := startupTest i bs) (h.trans ((if_neg (mt (startupOk_iff bs).mp hp)).trans (if_neg ?_)))⟩
    · exact Nat.succ_lt_succ hf
    · exact Nat.not_lt.mpr (Nat.succ_le_succ hf)
  case bulk =>
    intro p tag j s h
    refine ⟨run_eq_next_put (f := bulkDone p tag false) (bulkDone_of_bus h),
      fun hr => run_eq_next_put (f := bulkDone p tag true) ((bulkDone_of_end h).trans (if_pos hr)),
      fun hr => run_eq_next_put (f := bulkDone p tag true) ((bulkDone_of_end h).trans (if_neg ?_))⟩
    rw [hr]
    decide
  case tested =>
    exact fun p tag n runs wasOut s h => run_eq_next_put (f := sliceTestDone n runs) (sliceTestDone_of_test h)

end Sys2Proof.Machine
end

section
/-! Key associations, schedules and chains (R272 to R286, R299 to R306). -/
namespace Sys2Proof.Machine

/-! What the context cache touches (R318 to R321). -/

/-- A device that differs from another in what the context cache and its store use, and in what has left it. -/
def CacheOnly (d e : Dev) : Prop :=
  e = { d with
    dsp := { d.dsp with cache := e.dsp.cache, prefetches := e.dsp.prefetches, unmet := e.dsp.unmet }
    grn := e.grn, sb := e.sb, outs := e.outs, free := e.free }

theorem CacheOnly.refl (d : Dev) : CacheOnly d d := rfl

theorem CacheOnly.trans {d e f : Dev} (h : CacheOnly d e) (k : CacheOnly e f) : CacheOnly d f := by
  unfold CacheOnly at *
  rw [k, h]

theorem OnlySb.cacheOnly {d e : Dev} (h : OnlySb d e) : CacheOnly d e := by
  unfold OnlySb at h
  rw [h]
  rfl

theorem CacheOnly.fm {d e : Dev} (h : CacheOnly d e) : e.fm = d.fm := by
  unfold CacheOnly at h
  rw [h]

theorem CacheOnly.pins {d e : Dev} (h : CacheOnly d e) : e.dsp.pins = d.dsp.pins := by
  unfold CacheOnly at h
  rw [h]

theorem writeContextLine_cacheOnly (sa half : Nat) (d : Dev) : CacheOnly d (writeContextLine sa half d) := by
  obtain ⟨grn, h⟩ := writeContextLine_only sa half d
  rw [h]
  rfl

theorem writeBack_cacheOnly (sa : Nat) (d : Dev) : CacheOnly d (writeBack sa d) := by
  have hd : CacheOnly d (draw 2 d).2 := rfl
  have h0 : CacheOnly d (if (draw 2 d).1.getLsbD 0 then writeContextLine sa 0 (draw 2 d).2 else (draw 2 d).2) := by
    split
    · exact hd.trans (writeContextLine_cacheOnly ..)
    · exact hd
  unfold writeBack
  dsimp only
  split
  · exact h0.trans (writeContextLine_cacheOnly ..)
  · exact h0

theorem cacheInsert_cacheOnly (sa : Nat) (d : Dev) : CacheOnly d (cacheInsert sa d) := by
  unfold cacheInsert
  dsimp only
  generalize (if !decide ((d.dsp.cache.filter (· != sa)).length < 65536) then cacheVictim d else none) = v
  cases v with
  | none => rfl
  | some v => exact (writeBack_cacheOnly v d).trans rfl

theorem metaUse_only (dirty : Bool) (pfn : Nat) (d : Dev) : ∃ grn, metaUse dirty pfn d = { d with grn := grn } := by
  unfold metaUse
  exact ⟨_, rfl⟩

theorem metaUse_cacheOnly (dirty : Bool) (pfn : Nat) (d : Dev) : CacheOnly d (metaUse dirty pfn d) := by
  obtain ⟨grn, h⟩ := metaUse_only dirty pfn d
  rw [h]
  rfl

theorem cacheRead_cacheOnly (sa : Nat) (d : Dev) : CacheOnly d (cacheRead sa d) := by
  unfold cacheRead
  exact (metaUse_cacheOnly ..).trans (cacheInsert_cacheOnly ..)

theorem cacheFetch_cacheOnly (sa : Nat) (d : Dev) : CacheOnly d (cacheFetch sa d) := by
  unfold cacheFetch
  split
  · refine .trans ?_ (cacheRead_cacheOnly sa _)
    split
    · exact .refl d
    · exact cacheRead_cacheOnly ..
  · exact cacheRead_cacheOnly ..

theorem prefetch_cacheOnly (sa : Nat) (d : Dev) : CacheOnly d (prefetch sa d) := by
  unfold prefetch
  split
  · exact .refl d
  · exact (cacheFetch_cacheOnly sa d).trans rfl

theorem pinFetch_cacheOnly (d : Dev) : CacheOnly d (pinFetch d) := by
  unfold pinFetch
  exact List.foldlRecOn (motive := CacheOnly d) _ _ (.refl d) fun e he _ _ => he.trans (prefetch_cacheOnly _ e)

theorem hintUnmet_cacheOnly (kind obj reason owner : Nat) (d : Dev) : CacheOnly d (hintUnmet kind obj reason owner d) := by
  unfold hintUnmet
  dsimp only
  refine iteInduction (fun _ => .refl d) fun _ => ?_
  have h : CacheOnly d { d with dsp := { d.dsp with unmet := tset d.dsp.unmet (kind * 2 ^ 20 + obj) d.sys.ticks } } := rfl
  exact h.trans (emitOn_only ..).cacheOnly

theorem pinNew_cacheOnly (sa : Nat) (d : Dev) : CacheOnly d (pinNew sa d) := by
  unfold pinNew
  split
  · exact .refl d
  · split
    · exact .refl d
    · split
      · exact prefetch_cacheOnly ..
      · split
        · exact hintUnmet_cacheOnly ..
        · exact hintUnmet_cacheOnly ..

theorem putSa_fm (i : Nat) (x : SaRec) (d : Dev) : (putSa i x d).fm = d.fm := by
  obtain ⟨grn, h⟩ := writeContext_only i (setSa i { x with order := d.kc.order } d)
  unfold putSa
  rw [(pinNew_cacheOnly ..).fm, h]
  rfl

section
variable {r : NcsReq} {o : Otp} {d : Dev}

/-! SA_INSTALL. -/

/-- The SA that a request installs stands on its index under the next generation of that index. -/
def installedSa (r : NcsReq) (i : Nat) (x : SaRec) (d : Dev) : Dev :=
  let n := (tgetD d.kc.installs i 0 + 1) % 2 ^ 32
  let e := putSa i { x with gen := n } { d with kc := { d.kc with installs := tset d.kc.installs i n } }
  if bit (rw r 0) 25 then { e with kc := { e.kc with encNext := e.kc.encNext ++ [(x.obj, x.an)] } } else e

theorem installedSa_fm (r : NcsReq) (i : Nat) (x : SaRec) (d : Dev) : (installedSa r i x d).fm = d.fm := by
  unfold installedSa
  dsimp only
  split
  · exact putSa_fm ..
  · exact putSa_fm ..

/-- An SA whose first PN lies past the threshold of its SecY is told. -/
def thresholdTold (i : Nat) (x : SaRec) (d : Dev) : Dev :=
  match tget d.fm.scs (objNum x.obj) with
  | some sc => match tget d.fm.secys sc.secy with
    | some y => if objKind x.obj = 0 && decide (pnThreshold y x.suite ≤ x.pn) then
        match saOf d i with | some x => thresholdReached (pnThreshold y x.suite) i x d | none => d
      else d
    | none => d
  | none => d

theorem saInstall_of_reused {i : Nat} (hi : freeSa o d = some i) (hk : keyReused d (installRec d r) = true) :
    saInstall o d r = (d, 0x8500, []) := by
  unfold saInstall
  dsimp only
  rw [hi]
  exact if_pos hk

theorem saInstall_of_new {i : Nat} (hi : freeSa o d = some i) (hk : keyReused d (installRec d r) = false) :
    saInstall o d r = (thresholdTold i (installRec d r) (installedSa r i (installRec d r) d), stOk, [wd i]) := by
  unfold saInstall
  dsimp only
  rw [hi]
  refine (if_neg (by rw [hk]; decide)).trans ?_
  unfold thresholdTold installedSa
  rfl

theorem thresholdTold_of_below {i : Nat} {x : SaRec} (h : ∀ sc y, objKind x.obj = 0 → tget d.fm.scs (objNum x.obj) = some sc →
    tget d.fm.secys sc.secy = some y → x.pn < pnThreshold y x.suite) : thresholdTold i x d = d := by
  unfold thresholdTold
  split
  case h_2 => rfl
  case h_1 sc hsc =>
    split
    case h_2 => rfl
    case h_1 y hy =>
      refine if_neg fun hc => ?_
      rw [Bool.and_eq_true, decide_eq_true_eq, decide_eq_true_eq] at hc
      exact absurd hc.2 (Nat.not_le.mpr (h sc y hc.1 hsc hy))

theorem thresholdTold_of_past {i : Nat} {x : SaRec} {sc : Sc} {y : Secy} (hk : objKind x.obj = 0)
    (hsc : tget d.fm.scs (objNum x.obj) = some sc) (hy : tget d.fm.secys sc.secy = some y)
    (hp : pnThreshold y x.suite ≤ x.pn) : thresholdTold i x d =
      match saOf d i with | some z => thresholdReached (pnThreshold y z.suite) i z d | none => d := by
  unfold thresholdTold
  rw [hsc]
  dsimp only
  rw [hy]
  exact if_pos (by rw [decide_eq_true hk, decide_eq_true hp]; rfl)

/-- What a command reads is as it was before its request. -/
theorem submitted_reads {α : Type} {c : Nat} {r : NcsReq} {d : Dev} (f : Dev → α)
    (hf : ∀ sb outs, f { d with sb := sb, outs := outs } = f d) : f (submitted c r d) = f d := by
  obtain ⟨sb, outs, h⟩ := submitted_eq c r d
  rw [h]
  exact hf sb outs

theorem freeSa_submitted (c : Nat) (r : NcsReq) (o : Otp) (d : Dev) : freeSa o (submitted c r d) = freeSa o d :=
  submitted_reads (freeSa o) fun _ _ => rfl

theorem installRec_submitted (c : Nat) (r q : NcsReq) (d : Dev) : installRec (submitted c r d) q = installRec d q :=
  submitted_reads (installRec · q) fun _ _ => rfl

theorem keyReused_submitted (c : Nat) (r : NcsReq) (x : SaRec) (d : Dev) : keyReused (submitted c r d) x = keyReused d x :=
  submitted_reads (keyReused · x) fun _ _ => rfl

/-! Other commands. -/

theorem setEncoding_of_installed {x : SaRec} (hx : namedSa d (rw r 0) = some x) (hs : x.state = 1) :
    cmdSaSetEncoding.act o d r =
      ({ d with kc := { d.kc with encNext := d.kc.encNext ++ [(ow (rw r 0), owAn (rw r 0))] } }, stOk, []) := by
  change (match namedSa d (rw r 0) with
    | some x => if x.state = 1 then _ else _
    | none => _) = _
  rw [hx]
  exact if_pos hs

theorem setEncoding_of_active {x : SaRec} (hx : namedSa d (rw r 0) = some x) (hs : x.state ≠ 1) :
    cmdSaSetEncoding.act o d r = (d, stOk, []) := by
  change (match namedSa d (rw r 0) with
    | some x => if x.state = 1 then _ else _
    | none => _) = _
  rw [hx]
  exact if_neg hs

theorem namedSa_submitted (c : Nat) (r : NcsReq) (w : Word) (d : Dev) : namedSa (submitted c r d) w = namedSa d w :=
  submitted_reads (namedSa · w) fun _ _ => rfl

theorem freeIndex_of_destroyed {i : Nat} {x : SaRec} (hx : saOf d i = some x) (hs : x.state = 4) :
    freeIndex i d = { d with kc := { d.kc with sas := tdel d.kc.sas i } } := by
  unfold freeIndex
  rw [hx]
  exact if_pos hs

theorem exec_saIndexFree (i : Nat) (s : State) : exec (.saIndexFree i) s = .next (s.put (freeIndex i s.dev)) :=
  run_eq_next_put (f := fun _ d => freeIndex i d) rfl

theorem exec_kcChainCreate {s : State} (h : Passes cmdKcChainCreate r s) : exec (.kcChainCreate r) s =
    .next (s.put (chainCreate r (respond r.page r.tag stAccepted [] (accept r.page r.tag 0x0506 (submitted 0x0506 r s.dev))))) :=
  passes_accepted (c := cmdKcChainCreate) h rfl

theorem kcSchedule_of_soon {objs : List (Nat × Nat)} {all : Bool} (h : tooSoon d (schedT r) = true) :
    kcSchedule d r objs all = (d, 0x8501, []) := if_pos h

/-- A schedule of the objects that a request names. -/
def namedSched (r : NcsReq) (i : Nat) (d : Dev) : Dev :=
  makeSched i (newSched d r ((schedWords r).map (fun e => (ow e.2, owAn e.2))) false) d

theorem kcSchedule_of_free {i : Nat} (h : tooSoon d (schedT r) = false) (hi : freeSched d = some i) :
    kcSchedule d r ((schedWords r).map (fun e => (ow e.2, owAn e.2))) false = (namedSched r i d, stOk, [wd i]) := by
  unfold kcSchedule namedSched
  rw [h, hi]
  simp only [Bool.false_eq_true, if_false]

/-- A schedule of every chain, which KC_REKEY_ALL names. -/
def rekeySched (r : NcsReq) (i : Nat) (d : Dev) : Dev :=
  let e := makeSched i (newSched d r [] true) d
  { e with kc := { e.kc with rekeyAll := some (i, schedT r) } }

theorem kcSchedule_of_rekey {i : Nat} (h : tooSoon d (schedT r) = false) (hi : freeSched d = some i) :
    kcSchedule d r [] true = (rekeySched r i d, stOk, [wd i]) := by
  unfold kcSchedule rekeySched
  rw [h, hi]
  simp only [Bool.false_eq_true, if_false, if_true]

theorem cmdKcSchedule_act :
    cmdKcSchedule.act o d r = kcSchedule d r ((schedWords r).map (fun e => (ow e.2, owAn e.2))) false := rfl

theorem cmdKcRekeyAll_act : cmdKcRekeyAll.act o d r = kcSchedule d r [] true := rfl

theorem tooSoon_submitted (c : Nat) (r : NcsReq) (t : Nat) (d : Dev) : tooSoon (submitted c r d) t = tooSoon d t :=
  submitted_reads (tooSoon · t) fun _ _ => rfl

theorem freeSched_submitted (c : Nat) (r : NcsReq) (d : Dev) : freeSched (submitted c r d) = freeSched d := by
  unfold freeSched
  rw [submitted_kc]

end

/-- Settles O29: each command has its effect on the device that picked it up, by what it finds there. -/
theorem securityAssociationCommands : Obligations.SecurityAssociationCommands := by
  unfold Obligations.SecurityAssociationCommands
  refine ⟨⟨?install, ?destroy, ?encode, ?status, ?free⟩, ?schedule, ?cancel, ?chain, ?chainDelete, ?rekey, ?paramWrite,
    ?paramRead⟩
  case install =>
    intro r i s h hi
    have hi' : freeSa s.otp (submitted cmdSaInstall.code r s.dev) = some i := by rwa [freeSa_submitted]
    have hrec := installRec_submitted cmdSaInstall.code r r s.dev
    refine ⟨fun hk => served_at (c := cmdSaInstall) rfl h rfl
      (saInstall_of_reused hi' (by rw [hrec, keyReused_submitted]; exact hk)) (by decide) (fun _ => rfl), ?_⟩
    intro hk x new
    have hact : saInstall s.otp (submitted cmdSaInstall.code r s.dev) r =
        (thresholdTold i x (installedSa r i x (submitted cmdSaInstall.code r s.dev)), stOk, [wd i]) := by
      have h0 := saInstall_of_new (r := r) hi' (by rw [hrec, keyReused_submitted]; exact hk)
      rwa [hrec] at h0
    have hfm : (installedSa r i x (submitted cmdSaInstall.code r s.dev)).fm = s.dev.fm := by rw [installedSa_fm, submitted_fm]
    refine ⟨fun hb => ?_, fun sc y hkind hsc hy hp => ?_⟩
    · refine served_at (c := cmdSaInstall) (e := installedSa r i x) rfl h rfl (hact.trans ?_) (by decide) (fun _ => rfl)
      rw [thresholdTold_of_below (by rw [hfm]; exact hb)]
    · refine served_at (c := cmdSaInstall) rfl h rfl (hact.trans ?_) (by decide) (fun _ => rfl)
      rw [thresholdTold_of_past (sc := sc) (y := y) hkind (by rw [hfm]; exact hsc) (by rw [hfm]; exact hy) hp]
      rfl
  case destroy | cancel | chainDelete | paramWrite =>
    exact sets_intro (fun _ _ => rfl) (fun _ _ _ => rfl) (fun _ _ _ => rfl)
  case status | paramRead => exact answers_intro (fun _ _ => rfl) (fun _ _ _ => rfl) (fun _ _ _ => rfl)
  case encode =>
    intro r x s h hx
    have hx' : namedSa (submitted cmdSaSetEncoding.code r s.dev) (rw r 0) = some x := by rwa [namedSa_submitted]
    exact ⟨fun hs => served_at (c := cmdSaSetEncoding) rfl h rfl (setEncoding_of_installed hx' hs) (by decide) (fun _ => rfl),
      fun hs => served_at (c := cmdSaSetEncoding) rfl h rfl (setEncoding_of_active hx' hs) (by decide) (fun _ => rfl)⟩
  case free =>
    intro i x s hx hs
    rw [exec_saIndexFree, freeIndex_of_destroyed hx hs]
  case schedule =>
    intro r s h
    refine ⟨fun hs => ?_, fun i hs hi => ?_⟩
    · have hact := kcSchedule_of_soon (objs := (schedWords r).map (fun e => (ow e.2, owAn e.2))) (all := false)
        ((tooSoon_submitted 0x0504 r (schedT r) s.dev).trans hs)
      exact served_at (c := cmdKcSchedule) (e := id) rfl h rfl (cmdKcSchedule_act.trans hact) (by decide) (fun _ => rfl)
    · have hact := kcSchedule_of_free
        ((tooSoon_submitted 0x0504 r (schedT r) s.dev).trans hs) ((freeSched_submitted 0x0504 r s.dev).trans hi)
      exact served_at (c := cmdKcSchedule) (e := namedSched r i) rfl h rfl (cmdKcSchedule_act.trans hact) (by decide)
        (fun _ => rfl)
  case chain => exact fun r s h => exec_kcChainCreate h
  case rekey =>
    intro r i s h hs hi
    have hact := kcSchedule_of_rekey ((tooSoon_submitted 0x0512 r (schedT r) s.dev).trans hs)
      ((freeSched_submitted 0x0512 r s.dev).trans hi)
    exact served_at (c := cmdKcRekeyAll) (e := rekeySched r i) rfl h rfl (cmdKcRekeyAll_act.trans hact) (by decide) (fun _ => rfl)

/-! The instants of key change (R276 to R286, R294, R303). -/

section
variable {o : Otp} {d : Dev}

theorem kcPreload_of_due {i dt : Nat} {x : Sched} (hx : tget (passTime dt d).kc.scheds i = some x)
    (h : preloadDue (passTime dt d) x = true) : kcPreload i dt o d = preload i x (passTime dt d) := by
  unfold kcPreload
  dsimp only
  rw [hx]
  exact if_pos h

theorem kcSwitch_of_reached {i dt : Nat} {x : Sched} (hx : tget (passTime dt d).kc.scheds i = some x)
    (h : reachedAt (timeNow (passTime dt d)) x.t = true) : kcSwitch i dt o d =
      let e := passTime dt d
      let y := (schedObjs e x).foldl (switchOne i x) (0, { e with kc := { e.kc with scheds := tdel e.kc.scheds i } })
      emitOn (schedPages x) 0x0580 (wd i) (wd y.1) y.2 := by
  unfold kcSwitch
  dsimp only
  rw [hx]
  exact if_neg (by rw [h]; decide)

theorem saRetireTx_of_reached {i dt t : Nat} {x : SaRec} (hx : saOf (passTime dt d) i = some x) (hs : x.state = 3)
    (hk : isTx x.obj = true) (ht : x.retireAt = some t) (h : reachedAt (timeNow (passTime dt d)) t = true) :
    saRetireTx i dt o d = destroySa i (passTime dt d) := by
  unfold saRetireTx
  dsimp only
  rw [hx]
  dsimp only
  rw [ht]
  exact if_pos (by rw [hk, decide_eq_true hs, h]; rfl)

theorem saRetireRx_of_reached {i dt t : Nat} {x y : SaRec} (hx : saOf (passTime dt d) i = some x) (hk : isTx x.obj = false)
    (hy : saOf (setRetire x.obj (passTime dt d)) i = some y) (hs : y.state = 3) (hyk : isTx y.obj = false)
    (ht : retireInstant y = some t) (h : reachedAt (timeNow (setRetire x.obj (passTime dt d))) t = true) :
    saRetireRx i dt o d = destroySa i (setRetire x.obj (passTime dt d)) := by
  unfold saRetireRx
  dsimp only
  rw [hx]
  dsimp only
  simp only [hk, Bool.false_eq_true, if_false]
  rw [hy]
  dsimp only
  rw [ht]
  exact if_pos (by rw [hyk, decide_eq_true hs, h]; rfl)

theorem schedLate_of_late {i dt n t w m : Nat} {x : SaRec} (hx : saOf (passTime dt d) i = some x)
    (hw : x.switched = some (n, t, w, m)) (hn : n < 0xFFE) (hk : isTx x.obj = false) (hs : x.state = 2) (h1 : x.t1 = none)
    (h1b : x.t1b = none) (ht : x.told = false) (h : reachedAt (timeNow (passTime dt d)) (t + w * tickU) = true) :
    schedLate i dt o d = mismatchEvent false n x (setSa i { x with told := true } (passTime dt d)) := by
  unfold schedLate
  dsimp only
  rw [hx]
  dsimp only
  rw [hw]
  dsimp only
  rw [if_pos (by simp [hk, hs, h1, h1b, ht, h]; omega), if_neg (by omega)]

/-- A chain with a multiple of its period taken. -/
def periodTaken (k : Nat) (c : Chain) (sec : Nat) (d : Dev) : Dev :=
  { d with kc := { d.kc with chains := tset d.kc.chains k { c with lastPeriod := sec } } }

/-- The chain goes to its next generation where it holds it. -/
def periodSwitched (k sec : Nat) (c : Chain) (e : Dev) : Dev :=
  match targetSa e (k, 0) with
  | none => e
  | some (i, x) => emitOn (pagesOf c.owner) 0x0580 0xFFE (wd (b1 (isTx k)))
      (if isTx k then switchTx k x.an 0xFFE (instant sec 0) (overlap e) e
       else activateRx i (some (0xFFE, instant sec 0, overlap e, retireMax e)) e)

theorem chainPeriod_of_passed {k dt : Nat} {c : Chain} (hc : tget (passTime dt d).kc.chains k = some c) (hp : 0 < c.period)
    (h : c.lastPeriod < secOf (timeNow (passTime dt d)) / c.period * c.period) : chainPeriod k dt o d =
      periodSwitched k (secOf (timeNow (passTime dt d)) / c.period * c.period) c
        (periodTaken k c (secOf (timeNow (passTime dt d)) / c.period * c.period) (passTime dt d)) := by
  have hm : max 1 c.period = c.period := Nat.max_eq_right hp
  unfold chainPeriod
  dsimp only
  rw [hc]
  dsimp only
  rw [hm, if_neg (by simp; omega)]
  unfold periodSwitched periodTaken
  rfl

theorem periodSwitched_of_none {k sec : Nat} {c : Chain} (h : targetSa d (k, 0) = none) : periodSwitched k sec c d = d := by
  rw [periodSwitched, h]

theorem periodSwitched_of_tx {k sec i : Nat} {c : Chain} {x : SaRec} (h : targetSa d (k, 0) = some (i, x)) (hk : isTx k = true) :
    periodSwitched k sec c d = emitOn (pagesOf c.owner) 0x0580 0xFFE (wd 1)
      (switchTx k x.an 0xFFE (instant sec 0) (overlap d) d) := by
  rw [periodSwitched, h]
  dsimp only
  rw [hk]
  rfl

theorem periodSwitched_of_rx {k sec i : Nat} {c : Chain} {x : SaRec} (h : targetSa d (k, 0) = some (i, x)) (hk : isTx k = false) :
    periodSwitched k sec c d = emitOn (pagesOf c.owner) 0x0580 0xFFE (wd 0)
      (activateRx i (some (0xFFE, instant sec 0, overlap d, retireMax d)) d) := by
  rw [periodSwitched, h]
  dsimp only
  rw [hk]
  rfl

theorem chainDerive_of_kek {k p tag : Nat} {c : Chain} (hc : tget d.kc.chains k = some c) (hu : d.sb.up = true)
    (hcr : c.creating = some (p, tag)) (hk : (slotRec d c.kekSlot).isSome = true) :
    chainDerive k o d = chainFirst k p tag o (deviceJob (chainKek k d)) := by
  unfold chainDerive
  rw [hc]
  dsimp only
  rw [if_neg (by rw [hu]; decide), hcr]
  exact if_pos hk

theorem chainDerive_of_no_kek {k p tag : Nat} {c : Chain} (hc : tget d.kc.chains k = some c) (hu : d.sb.up = true)
    (hcr : c.creating = some (p, tag)) (hk : slotRec d c.kekSlot = none) : chainDerive k o d =
      finish p tag 0x0506 stNoResource 0 { d with kc := { d.kc with chains := tdel d.kc.chains k } } := by
  unfold chainDerive
  rw [hc]
  dsimp only
  rw [if_neg (by rw [hu]; decide), hcr]
  exact if_neg (by rw [hk]; decide)

theorem rekeyReady_of_all {i t : Nat} (h : d.kc.rekeyAll = some (i, t)) (hs : tget d.kc.scheds i = none)
    (ha : d.kc.chains.all (fun c => c.2.nextReady) = true) : rekeyReady o d =
      emit 0 0x0585 (wd d.kc.chains.length) (wd ((timeNow d - t) / tickU)) { d with kc := { d.kc with rekeyAll := none } } := by
  unfold rekeyReady
  rw [h]
  exact if_neg (by rw [hs, ha]; decide)

end

/-- Settles O30: each instant takes the branch of its schedule, SA or chain. An empty KEK slot ends a chain that is being
created (log entry 69), and 0xFFE stands for a switch of a period (log entry 35). -/
theorem keyChangeInstantsAct : Obligations.KeyChangeInstantsAct := by
  unfold Obligations.KeyChangeInstantsAct
  refine ⟨?schedule, ?retire, ?late, ?period, ?derive, ?rekey⟩
  case schedule =>
    exact fun i dt x s hx => ⟨fun h => run_eq_next_put (f := kcPreload i dt) (kcPreload_of_due hx h),
      fun h => run_eq_next_put (f := kcSwitch i dt) (kcSwitch_of_reached hx h)⟩
  case retire =>
    exact fun i dt t x s hx hs => ⟨fun hk ht h => run_eq_next_put (f := saRetireTx i dt) (saRetireTx_of_reached hx hs hk ht h),
      fun hk y hy hys hyk ht h => run_eq_next_put (f := saRetireRx i dt) (saRetireRx_of_reached hx hk hy hys hyk ht h)⟩
  case late =>
    exact fun i dt n t w m x s hx hw hn hk hs h1 h1b ht h =>
      run_eq_next_put (f := schedLate i dt) (schedLate_of_late hx hw hn hk hs h1 h1b ht h)
  case period =>
    intro k dt c s d hc hp h e
    have hrow := chainPeriod_of_passed (o := s.otp) hc hp h
    exact ⟨fun hn => run_eq_next_put (f := chainPeriod k dt) (hrow.trans (periodSwitched_of_none hn)),
      fun i x hx hk => run_eq_next_put (f := chainPeriod k dt) (hrow.trans (periodSwitched_of_tx hx hk)),
      fun i x hx hk => run_eq_next_put (f := chainPeriod k dt) (hrow.trans (periodSwitched_of_rx hx hk))⟩
  case derive =>
    exact fun k c p tag s hc hu hcr => ⟨fun hk => run_eq_next_put (f := chainDerive k) (chainDerive_of_kek hc hu hcr hk),
      fun hk => run_eq_next_put (f := chainDerive k) (chainDerive_of_no_kek hc hu hcr hk)⟩
  case rekey => exact fun i t s h hs ha => run_eq_next_put (f := rekeyReady) (rekeyReady_of_all h hs ha)

end Sys2Proof.Machine
end

section
/-! Key agreement (R287 to R293, R304, R305). -/
namespace Sys2Proof.Machine

section
variable {r : NcsReq} {o : Otp} {d : Dev} {p : Peer} {i : Nat}

theorem kaStart_of_peer (hp : tget d.kc.peers (rf r 0 5 0) = some p) : cmdKaStart.after o r stAccepted d =
    kaBegin (rf r 0 5 0) { p with byPeer := false, cmd := some (r.page, r.tag) } o d := by
  change kaStart r o d = _
  unfold kaStart
  rw [hp]

/-- The four words of KA_STATUS. -/
def peerWords (p : Peer) : List Word :=
  [wd (p.state * 2 ^ 28 + flag p.initiator 24 + p.outcome), wd p.assoc, wd p.completed, wd (if p.estab then p.ticks else 0)]

theorem kaStatus_of_peer (hp : tget d.kc.peers (rf r 0 5 0) = some p) : cmdKaStatus.act o d r = (d, stOk, peerWords p) := by
  change (match tget d.kc.peers (rf r 0 5 0) with | some p => (d, stOk, peerWords p) | none => (d, stOk, [])) = _
  rw [hp]

/-! A message is taken up for its peer. -/

section
variable {port : Nat} {msg : Bytes} {e : Dev} (ht : takeUp port msg e = (some (i, p), d))
include ht

theorem kaInit_of_request (h1 : beAt msg 0 1 = 1) (hs : p.state ≠ 1) (ha : p.answers = true) (hm : beAt msg 1 1 = p.method)
    (hf : kaForm 1 1757 p msg = true) (hw : beAt msg 8 4 = 0x01000000) : kaInit port msg o e =
      if slice msg 44 48 ≠ peerCred d p then kaFail 1 4 i { p with byPeer := true } o d else kaAnswer i p msg o d := by
  unfold kaInit
  rw [ht]
  dsimp only
  rw [if_neg (not_not_intro h1), if_neg (by simp [hs]), if_neg (by simp [hs]), if_neg (by simp [ha])]
  unfold kaChecked
  dsimp only
  rw [if_neg (not_not_intro hm), if_neg (by simp [hf, hw])]
  have hb : (p.byPeer || p.state != 1) = true := by simp [hs]
  rw [hb]

/-- What an initiator does with a response whose form is right. -/
def respJudged (i : Nat) (p : Peer) (msg : Bytes) (o : Otp) (d : Dev) : Dev :=
  let e := deviceJob d
  let n := kaSigLen p.method
  let th1 := sha384 (p.mInit ++ msg.take 1753)
  let th2 := sha384 (p.mInit ++ msg)
  match Config.ecShared (p.eph.drop 64) (slice msg 1656 97) with
  | none => if slice msg 40 48 ≠ peerCred d p then kaFail 1 4 i p o d else kaFail 2 5 i p o d
  | some sx =>
    let k := kaKeys e p (Config.kemDecaps (p.eph.take 64) (slice msg 88 1568) ++ sx) th1
    let x := keyBytes 32 e
    let fin := kaHeader 3 p.method (56 + n) p.assoc ++ kaSign x.2 p (ascii "BALSEVY KA FIN" ++ th2) x.1
      ++ hmac384 k.2 (ascii "FIN" ++ th2)
    let q := { p with mResp := msg, mFin := fin, kek := k.1, kck := k.2, sent := fin, sends := 1, waited := 0 }
    if slice msg 40 48 ≠ peerCred d p then kaFail 1 4 i p o d
    else if !kaVerify e p (ascii "BALSEVY KA RESP" ++ th1) (slice msg 1753 n)
        || hmac384 k.2 (ascii "RESP" ++ th1) ≠ slice msg (1753 + n) 48 then kaFail 2 5 i p o e
    else kaSend q fin o (setPeer i q x.2)

theorem kaResp_of_response (hs : p.state = 1) (hi : p.initiator = true) (h2 : beAt msg 0 1 = 2) (hr : p.mResp = [])
    (hf : kaForm 2 (1801 + kaSigLen p.method) p msg = true) : kaResp port msg o e = respJudged i p msg o d := by
  unfold kaResp
  rw [ht]
  dsimp only
  rw [if_neg (by simp [hs, hi, h2]), if_neg (by rw [hr]; decide), if_neg (by rw [hf]; decide)]
  unfold respJudged
  dsimp only
  cases Config.ecShared (p.eph.drop 64) (slice msg 1656 97) with
  | none => rfl
  | some sx => rfl

theorem kaFin_of_fin (hi : p.initiator = false) (h3 : beAt msg 0 1 = 3) (hs : p.state = 1)
    (hf : kaForm 3 (56 + kaSigLen p.method) p msg = true) : kaFin port msg o e =
      let e := deviceJob d
      let th2 := sha384 (p.mInit ++ p.mResp)
      if !kaVerify e p (ascii "BALSEVY KA FIN" ++ th2) (slice msg 8 (kaSigLen p.method))
          || hmac384 p.kck (ascii "FIN" ++ th2) ≠ slice msg (8 + kaSigLen p.method) 48 then kaFail 2 5 i p o e
      else kaEstablish i { p with mFin := msg } (kaSend { p with mFin := msg } (kaDoneMsg e { p with mFin := msg }) o e) := by
  unfold kaFin
  rw [ht]
  dsimp only
  rw [if_neg (by simp [hi, h3]), if_neg (by rw [hs]; decide), if_neg (not_not_intro hs), hf, Bool.not_true, Bool.false_or]

theorem kaDone_of_done (hs : p.state = 1) (hi : p.initiator = true) (hm : p.mFin ≠ []) (h4 : beAt msg 0 1 = 4)
    (hd : msg = kaDoneMsg d p) : kaDone port msg o e = kaEstablish i p d := by
  unfold kaDone
  rw [ht]
  dsimp only
  rw [if_neg (by simp [hs, hi, h4, hm]), if_pos (beq_iff_eq.mpr hd)]

theorem kaAbortIn_of_abort (hs : p.state = 1) (hf : kaForm 0x0F 12 p msg = true) : kaAbortIn port msg o e = kaEnd 2 i p d := by
  unfold kaAbortIn
  rw [ht]
  exact if_pos (by rw [decide_eq_true hs, hf]; rfl)

end

/-! Retransmission (R291). -/

theorem kaRetransmit_of_due (hp : tget d.kc.peers i = some p) (hs : p.state = 1) (hw : 200 ≤ p.waited) (hu : d.sb.up = true) :
    kaRetransmit i o d = if p.sends < 5 then kaSend p p.sent o (setPeer i { p with sends := p.sends + 1, waited := 0 } d)
      else kaFail 4 3 i p o d := by
  unfold kaRetransmit
  rw [hp]
  exact if_neg (by simp [hs, hu]; omega)

end

/-- Settles O32: each message takes the branch of its peer's state, form and checks. The credential is judged before the
signature, and the fifth failure aborts with reason 4: log entry 35. -/
theorem keyAgreementActs : Obligations.KeyAgreementActs := by
  unfold Obligations.KeyAgreementActs
  refine ⟨?set, ?start, ?status, ?messages, ?retransmit⟩
  case set => exact sets_intro (fun _ _ => rfl) (fun _ _ _ => rfl) (fun _ _ _ => rfl)
  case start =>
    intro r p s h hp
    refine (show exec (.kaStart r) s = run (command cmdKaStart r) s from rfl).trans
      ((passes_accepted h rfl).trans (congrArg (fun x => Host.Outcome.next (s.put x)) (kaStart_of_peer ?_)))
    rw [respond_kc, accept_kc, submitted_kc]
    exact hp
  case status =>
    intro r p s h hp
    refine served_at (c := cmdKaStatus) (e := id) rfl h rfl (kaStatus_of_peer ?_) (by decide) (fun _ => rfl)
    rwa [submitted_kc]
  case messages =>
    intro port i msg p d s ht
    exact ⟨fun h1 hs ha hm hf hw => run_eq_next_put (f := kaInit port msg) (kaInit_of_request ht h1 hs ha hm hf hw),
      fun hs hi h2 hr hf => run_eq_next_put (f := kaResp port msg) (kaResp_of_response ht hs hi h2 hr hf),
      fun hi h3 hs hf => run_eq_next_put (f := kaFin port msg) (kaFin_of_fin ht hi h3 hs hf),
      fun hs hi hm h4 hd => run_eq_next_put (f := kaDone port msg) (kaDone_of_done ht hs hi hm h4 hd),
      fun hs hf => run_eq_next_put (f := kaAbortIn port msg) (kaAbortIn_of_abort ht hs hf)⟩
  case retransmit =>
    intro i p s hp hs hw hu
    have h := kaRetransmit_of_due (o := s.otp) hp hs hw hu
    exact ⟨fun hn => run_eq_next_put (f := kaRetransmit i) (h.trans (if_pos hn)),
      fun hn => run_eq_next_put (f := kaRetransmit i) (h.trans (if_neg (Nat.not_lt.mpr hn)))⟩

end Sys2Proof.Machine
end

section
/-! The Granary and the Winnower (R344 to R346, R355 to R373). -/
namespace Sys2Proof.Machine

/-! Quotas, and the windows of region 5 after them. -/

theorem setQuotas_quota_five (r : NcsReq) (d : Dev) : (regionOf (setQuotas r d) 5).quota = (rw r 3).toNat := by
  change (regionOf (setRegion 5 _ _) 5).quota = _
  rw [regionOf_setRegion_same]

theorem regionOf_of_grn {d e : Dev} (h : e.grn = d.grn) (g : Nat) : regionOf e g = regionOf d g := by
  unfold regionOf
  rw [h]

theorem execGrnRegionSet_of_passes {r : NcsReq} {s : State} (h : Passes cmdGrnRegionSet r s) :
    execGrnRegionSet r s = .next { served 0x0712 r stOk (fun _ => []) (setQuotas r) s with
      ram := if (rw r 3).toNat = (regionOf s.dev 5).quota then s.ram else [] } := by
  have hc : command cmdGrnRegionSet r s.otp s.dev = respond r.page r.tag stOk [] (setQuotas r (submitted 0x0712 r s.dev)) :=
    (command_passes h).trans (perform_direct rfl (by decide))
  have hq : (regionOf (command cmdGrnRegionSet r s.otp s.dev) 5).quota = (rw r 3).toNat := by
    rw [hc, regionOf_of_grn (respond_grn ..), setQuotas_quota_five]
  unfold execGrnRegionSet
  rw [runAll_next]
  dsimp only
  rw [hq, hc]
  rfl

/-! Re-keying. -/

theorem granaryUp_of_works {d : Dev} (h : winnowerWorks d = true) : granaryUp d = true := by
  unfold winnowerWorks at h
  exact (Bool.and_eq_true_iff.mp h).1

theorem epochReached_of_limit {g : Nat} {o : Otp} {d : Dev} (hw : winnowerWorks d = true) (hg : g ≤ 4)
    (hl : fld d.grn.prm0 31 16 * 2 ^ 40 ≤ (regionOf d g).lines.toNat) (hn : d.grn.waiting.contains g = false)
    (hr : d.grn.rekeying = none) (ht : d.grn.retiring = none) : epochReached g o d = rekeyStart g 2 none d := by
  have hl' : epochLimit d ≤ (regionOf d g).lines.toNat := hl
  unfold epochReached granaryBusy
  dsimp only
  rw [if_neg (by rw [hn, hr]; simp [granaryUp_of_works hw, hg, hl']), if_neg (by simp [hr, ht, hw])]

theorem rekeyDone_of_commanded {x : Rekeying} {page tag : Nat} {o : Otp} {d : Dev} (hx : d.grn.rekeying = some x)
    (hc : x.cmd = some (page, tag)) (hw : winnowerWorks d = true) : rekeyDone o d = granaryNext 1
      (let d := walkOld x.region d
       let d := setRoot (setRegion x.region { regionOf d x.region with oldKey := [] } d)
       let d := rekeyEvent true x.cause x.region { d with grn := { d.grn with rekeying := none } }
       finish page tag 0x0710 stOk (wd (regionOf d x.region).epoch) d) := by
  unfold rekeyDone
  rw [hx]
  dsimp only
  rw [if_neg (by simp [hw]), hc]

/-! Retirement: the drain, the new places, the migration, the burned bits. -/

/-- What an accepted GRN_RETIRE does. -/
def retireTaken (r : NcsReq) (d : Dev) : Dev :=
  let e := setRegion 4 { regionOf d 4 with quota := (regionOf d 4).quota - 458752 } d
  retireEvent 1 (rf r 0 5 0) 0 (maintStart 2 { e with grn := { e.grn with
    retiring := some ⟨rf r 0 5 0, 1, 0, 0, r.page, r.tag⟩ } })

theorem grnRetire_of_spent {r : NcsReq} {o : Otp} (h : stackSpent o (rf r 0 5 0) = true) (d : Dev) :
    cmdGrnRetire.act o d r = (d, 0x8700, []) := if_pos h

theorem grnRetire_of_fresh {r : NcsReq} {o : Otp} (h : stackSpent o (rf r 0 5 0) = false) (d : Dev) :
    cmdGrnRetire.act o d r = (retireTaken r d, stAccepted, []) := if_neg (by simp [h])

theorem drainEnd_of_drained {x : Retiring} {o : Otp} {d : Dev} (hx : d.grn.retiring = some x) (hw : winnowerWorks d = true)
    (hp : x.phase = 1) (ht : fld d.grn.prm1 15 0 ≤ x.ticks) : drainEnd o d = retireEvent 2 x.ch 0
      { d with grn := { d.grn with retiring := some { x with phase := 2 } } } := by
  unfold drainEnd
  rw [hx]
  exact if_pos (by simp [hw, hp, ht])

theorem seek_some {p : Nat → Bool} {m : Nat} : ∀ {fuel n : Nat}, seek p fuel n = some m → p m = true
  | 0, n, h => by cases h
  | fuel + 1, n, h => by
    rw [seek] at h
    split at h
    · next hp => cases h; exact hp
    · exact seek_some h

/-- A frame of a channel that no page has. -/
def FrameFree (d : Dev) (c f : Nat) : Prop := f < framesPerChannel ∧ f ∉ framesUsed d c

/-- freeFrame names a free frame of its channel. -/
theorem freeFrame_some {d : Dev} {k c pfn : Nat} (h : freeFrame d k c = some pfn) : ∃ f, pfn = pfnOf c f ∧ FrameFree d c f := by
  unfold freeFrame at h
  dsimp only at h
  rw [Option.map_eq_some_iff] at h
  obtain ⟨f, hf, rfl⟩ := h
  refine ⟨f, rfl, ?_⟩
  have hfree : (decide (startMapped d c ≤ f) && decide (f < framesPerChannel) && !(framesUsed d c).contains f) = true := by
    rw [Option.or_eq_some_iff, Option.or_eq_some_iff] at hf
    obtain (ho | ⟨-, hg⟩) | ⟨-, hs⟩ := hf
    · rw [Option.bind_eq_some_iff] at ho
      obtain ⟨l, -, hl⟩ := ho
      split at hl
      · next hc => cases hl; exact (Bool.and_eq_true_iff.mp hc).2
      · cases hl
    · rw [Option.map_eq_some_iff] at hg
      obtain ⟨g, hg, rfl⟩ := hg
      exact List.all_eq_true.mp (seek_some hg) 0 (by simp)
    · exact seek_some hs
  simp only [Bool.and_eq_true, decide_eq_true_eq, Bool.not_eq_true', List.contains_eq_mem, decide_eq_false_iff_not] at hfree
  exact ⟨hfree.1.2, hfree.2⟩

theorem pfnOf_div {c f : Nat} (h : f < framesPerChannel) : pfnOf c f / 2 ^ 19 = c := by
  unfold pfnOf framesPerChannel at *
  omega

theorem pfnOf_mod {c f : Nat} (h : f < framesPerChannel) : pfnOf c f % 2 ^ 19 = f := by
  unfold pfnOf framesPerChannel at *
  omega

theorem newPlace_some {o : Otp} {d : Dev} {k n pfn : Nat} (h : newPlace o d k n = some pfn) :
    channelOpen o d (pfn / 2 ^ 19) = true ∧ FrameFree d (pfn / 2 ^ 19) (pfn % 2 ^ 19) := by
  unfold newPlace at h
  dsimp only at h
  obtain ⟨c, hc, hf⟩ := List.exists_of_findSome?_eq_some h
  obtain ⟨f, rfl, hfree⟩ := freeFrame_some hf
  rw [pfnOf_div hfree.1, pfnOf_mod hfree.1]
  refine ⟨?_, hfree⟩
  rw [List.mem_map] at hc
  obtain ⟨i, hi, rfl⟩ := hc
  rw [List.mem_range] at hi
  have hmem : ∀ {stay : List Nat}, i < stay.length → stay.getD ((n + i) % max 1 stay.length) 0 ∈ stay := by
    intro stay hi
    have hlt : (n + i) % max 1 stay.length < stay.length := by
      rw [Nat.max_eq_right (by omega)]
      exact Nat.mod_lt _ (by omega)
    rw [List.getD_eq_getElem?_getD, List.getElem?_eq_getElem hlt, Option.getD_some]
    exact List.getElem_mem hlt
  exact (List.mem_filter.mp (hmem hi)).2

theorem movePage_of_place {o : Otp} {d : Dev} {k n pfn : Nat} {p : PageFrame} (h : newPlace o d k n = some pfn) :
    (movePage o k n p d).1 = p.renewAt (k / 2 ^ 20) (regionOf d (k / 2 ^ 20)) pfn := by
  unfold movePage
  rw [h]

/-- Nothing but the Granary differs. -/
def OnlyGrn (d e : Dev) : Prop := e = { d with grn := e.grn }

theorem OnlyGrn.refl (d : Dev) : OnlyGrn d d := rfl

theorem OnlyGrn.trans {d e f : Dev} (h : OnlyGrn d e) (k : OnlyGrn e f) : OnlyGrn d f := by
  unfold OnlyGrn at *
  rw [k, h]

theorem OnlyGrn.of_exists {d e : Dev} (h : ∃ x, e = { d with grn := x }) : OnlyGrn d e := by
  obtain ⟨x, rfl⟩ := h
  rfl

theorem OnlyGrn.with {d e : Dev} (h : OnlyGrn d e) (x : Grn) : OnlyGrn d { e with grn := x } := h.trans rfl

theorem setRegion_onlyGrn (g : Nat) (x : Region) (d : Dev) : OnlyGrn d (setRegion g x d) := rfl

theorem countLines_onlyGrn (g n : Nat) (d : Dev) : OnlyGrn d (countLines g n d) := setRegion_onlyGrn ..

theorem movePage_onlyGrn (o : Otp) (k n : Nat) (p : PageFrame) (d : Dev) : OnlyGrn d (movePage o k n p d).2 := by
  unfold movePage
  split
  · exact OnlyGrn.of_exists ((metaUse_only true _ _).imp fun _ h => h)
  · rfl

theorem moveMapped_onlyGrn (o : Otp) (n : Nat) (d : Dev) (e : Nat × Nat) : OnlyGrn d (moveMapped o n d e) := by
  unfold moveMapped
  dsimp only
  have h := movePage_onlyGrn o (bufKey e.1 e.2) n (mappedFrame d e.1 e.2) d
  exact iteInduction (fun _ => h.with _) (fun _ => (h.with _).trans (countLines_onlyGrn ..))

theorem moveBufferPage_onlyGrn (o : Otp) (ch k : Nat) (d : Dev) (i : Nat) : OnlyGrn d (moveBufferPage o ch k d i) := by
  unfold moveBufferPage
  split
  · next p _ =>
    refine iteInduction (fun _ => rfl) (fun _ => ?_)
    exact ((movePage_onlyGrn o k i p d).with _).trans (countLines_onlyGrn ..)
  · rfl

/-- A walk whose steps change the Granary alone changes the Granary alone. -/
theorem onlyGrn_foldl {α : Type} {f : Dev → α → Dev} (h : ∀ d x, OnlyGrn d (f d x)) (l : List α) (d : Dev) :
    OnlyGrn d (l.foldl f d) :=
  List.foldlRecOn (motive := OnlyGrn d) l f (OnlyGrn.refl d) fun _ hb x _ => hb.trans (h _ x)

theorem migrateDone_of_migrating {x : Retiring} {o : Otp} {d : Dev} (hx : d.grn.retiring = some x)
    (hw : winnowerWorks d = true) (hp : x.phase = 2) :
    OnlyGrn d (migrateDone o d)
    ∧ (migrateDone o d).grn.retiring = some { x with phase := 3, moved := pagesOn d x.ch } := by
  unfold migrateDone
  rw [hx]
  dsimp only
  rw [if_pos (by simp [hw, hp])]
  refine ⟨OnlyGrn.trans ?_ (rfl : OnlyGrn _ (setRoot _)), rfl⟩
  refine OnlyGrn.trans ?_ rfl
  exact (onlyGrn_foldl (fun _ _ => moveMapped_onlyGrn ..) _ d).trans
    (onlyGrn_foldl (fun _ _ => onlyGrn_foldl (fun _ _ => moveBufferPage_onlyGrn ..) _ _) _ _)

theorem granaryNext_of_none {n : Nat} {d : Dev} (h : d.grn.waiting = []) : granaryNext n d = maintEnd n d := by
  unfold granaryNext
  rw [h]

theorem retireDone_of_migrated {x : Retiring} {o : Otp} {d : Dev} (hx : d.grn.retiring = some x) (hp : x.phase = 3)
    (hg : granaryUp d = true) (hu : d.sb.up = true) (hw : d.grn.waiting = []) : retireDone o d =
      ({ o with retired := o.retired ++ [x.ch] },
        maintEnd 2 (finish x.page x.tag 0x0711 stOk (wd x.moved) (retireEvent 3 x.ch x.moved
          { d with grn := { d.grn with retiring := none } }))) := by
  unfold retireDone
  rw [hx]
  dsimp only
  rw [if_pos (by simp [hg, hu, hp]), granaryNext_of_none]
  rw [finish_grn, retireEvent, emit_grn]
  exact hw

/-! What a scrub pass meets. -/

section
variable {o : Otp} {d : Dev} {ch row : Nat}

theorem scrub_of_up (f : ScrubFind) (h : granaryUp d = true) : scrub f o d =
    match f with
    | .passEnd => { d with grn := { d.grn with rowErrors := [] } }
    | .correctable ch row => if channelLive o ch then correctable ch row d else d
    | .node level index copyB otherOk =>
      if !nodeInMemory d level index then d
      else if otherOk then nodeRepair (nodeChannel (copiesAway o d) d.grn.width index copyB) index d
      else granaryHalt 4 (nodeChannel (copiesAway o d) d.grn.width index copyB) (nodeFirst level index * 4096) o d
    | .nodeMac level index copyB =>
      if nodeInMemory d level index then
        granaryHalt 5 (nodeChannel (copiesAway o d) d.grn.width index copyB) (nodeFirst level index * 4096) o d
      else d
    | .data pfn line bad =>
      if frameOk o pfn && decide (line < 64) && (bad || frameHeld d pfn) then
        granaryHalt (if bad then 2 else 1) (pfn / 2 ^ 19) (pfn * 4096 + 64 * line) o d
      else d
    | .counter pfn => if frameOk o pfn then granaryHalt 3 (pfn / 2 ^ 19) (pfn * 4096) o d else d
    | .partialRead pfn line =>
      if frameOk o pfn && decide (line < 64) && frameHeld d pfn then granaryHalt 6 (pfn / 2 ^ 19) (pfn * 4096 + 64 * line) o d
      else d
    | .onDie => granaryHalt 7 0x3F 0 o d := by
  unfold scrub
  refine (if_neg (by simp [h])).trans ?_
  cases f <;> rfl

/-- A correctable error of a row, counted. -/
def rowCounted (ch row : Nat) (d : Dev) : Dev :=
  let d' := setChannel ch { channelOf d ch with errors := satInc 32 (channelOf d ch).errors } d
  { d' with grn := { d'.grn with
    errors := d'.grn.errors + 1
    rowErrors := tset d.grn.rowErrors (ch * 2 ^ 24 + row) (tgetD d.grn.rowErrors (ch * 2 ^ 24 + row) 0 + 1) } }



theorem correctable_below (h : tgetD d.grn.rowErrors (ch * 2 ^ 24 + row) 0 + 1 ≠ fld d.grn.prm0 7 0) :
    correctable ch row d = rowCounted ch row d := by
  unfold correctable
  exact if_pos h

theorem correctable_replaced (h : tgetD d.grn.rowErrors (ch * 2 ^ 24 + row) 0 + 1 = fld d.grn.prm0 7 0)
    (hr : (channelOf d ch).rows < 12288) : correctable ch row d =
      (let f := setChannel ch { channelOf (rowCounted ch row d) ch with rows := (channelOf d ch).rows + 1 } (rowCounted ch row d)
       repairEvent 2 ch row { f with grn := { f.grn with rowErrors := tdel f.grn.rowErrors (ch * 2 ^ 24 + row) } }) := by
  unfold correctable
  exact (if_neg (not_not_intro h)).trans (if_pos hr)

theorem correctable_exhausted (h : tgetD d.grn.rowErrors (ch * 2 ^ 24 + row) 0 + 1 = fld d.grn.prm0 7 0)
    (hr : 12288 ≤ (channelOf d ch).rows) : correctable ch row d = repairEvent 3 ch row (rowCounted ch row d) := by
  unfold correctable
  exact (if_neg (not_not_intro h)).trans (if_neg (Nat.not_lt.mpr hr))

end

/-- Settles O33: the commands row by row, and each thing the Winnower does on its condition. That a re-key has walked its
pages when its end comes is log entry 21, and that the longest-waiting region follows it log entry 22. -/
theorem granaryAndWinnowerAct : Obligations.GranaryAndWinnowerAct := by
  unfold Obligations.GranaryAndWinnowerAct
  refine ⟨⟨?rekey, fun r s h => ⟨?spent, ?fresh⟩, ?status, ?region, ?channel, ?faults, ?halt, ?quotas, ?prmWrite, ?prmRead⟩,
    ?limit, ?rekeyed, fun x s hx hw => ⟨?drained, ?migrated⟩, ?moved, ?burned, fun s hs => ⟨?passEnd, ?rows, ?nodes, ?halts⟩⟩
  case rekey => exact starts_intro (fun _ _ => rfl) (fun _ _ _ => rfl) (fun _ _ _ => rfl)
  case spent =>
    intro hc
    exact served_at (e := id) rfl h rfl (grnRetire_of_spent hc _) (by decide) (fun _ => rfl)
  case fresh =>
    intro hc
    exact taken_at (e := retireTaken r) rfl h rfl (grnRetire_of_fresh hc _) rfl (fun _ => rfl)
  case status | region | channel | halt => exact answers_intro (fun _ _ => rfl) (fun _ _ _ => rfl) (fun _ _ _ => rfl)
  case faults =>
    intro r s h
    exact served_by rfl h rfl (fun _ => rfl) (by decide) (fun _ => rfl)
  case quotas => exact fun r s h => execGrnRegionSet_of_passes h
  case prmWrite => exact sets_intro (fun _ _ => rfl) (fun _ _ _ => rfl) (fun _ _ _ => rfl)
  case prmRead =>
    refine answers_intro (fun _ _ => rfl) (fun _ d _ => ?_) (fun _ _ _ => rfl)
    change (d, stOk, [(d.grn.prmNext.getD (d.grn.prm0, d.grn.prm1)).1, (d.grn.prmNext.getD (d.grn.prm0, d.grn.prm1)).2]) = _
    cases d.grn.prmNext <;> rfl
  case limit =>
    intro g s hw hg hl hn hr ht
    exact run_eq_next_put (f := epochReached g) (epochReached_of_limit hw hg hl hn hr ht)
  case rekeyed =>
    intro x page tag s hx hc hw
    exact run_eq_next_put (f := rekeyDone) (rekeyDone_of_commanded hx hc hw)
  case drained =>
    intro hp ht
    exact run_eq_next_put (f := drainEnd) (drainEnd_of_drained hx hw hp ht)
  case migrated =>
    intro hp
    obtain ⟨hd, hr⟩ := migrateDone_of_migrating (o := s.otp) hx hw hp
    exact ⟨_, run_next migrateDone s, hr, rfl, rfl, rfl, hd⟩
  case moved =>
    intro o k n pfn p d h
    obtain ⟨ho, hlt, hu⟩ := newPlace_some h
    exact ⟨movePage_of_place h, ho, hlt, hu⟩
  case burned =>
    intro x s hx hp hg hu hw
    change runOtp retireDone s = _
    rw [runOtp_next, retireDone_of_migrated hx hp hg hu hw]
  case passEnd => exact run_eq_next_put (f := scrub .passEnd) (scrub_of_up _ hs)
  case rows =>
    intro ch row hl
    have hrow : scrub (.correctable ch row) s.otp s.dev = correctable ch row s.dev := (scrub_of_up _ hs).trans (if_pos hl)
    exact ⟨fun hn => run_eq_next_put (f := scrub (.correctable ch row)) (hrow.trans (correctable_below hn)),
      fun hn hr => run_eq_next_put (f := scrub (.correctable ch row)) (hrow.trans (correctable_replaced hn hr)),
      fun hn hr => run_eq_next_put (f := scrub (.correctable ch row)) (hrow.trans (correctable_exhausted hn hr))⟩
  case nodes =>
    intro level i copyB hm
    exact run_eq_next_put (f := scrub (.node level i copyB true))
      ((scrub_of_up _ hs).trans ((if_neg (by simp [hm])).trans (if_pos rfl)))
  case halts =>
    refine ⟨fun level i copyB hm => ⟨?_, ?_⟩, fun pfn line hf hl => ⟨?_, ?_, fun hh => ⟨?_, ?_⟩⟩, ?_⟩
    · exact run_eq_next_put (f := scrub (.node level i copyB false))
        ((scrub_of_up _ hs).trans ((if_neg (by simp [hm])).trans (if_neg (by decide))))
    · exact run_eq_next_put (f := scrub (.nodeMac level i copyB)) ((scrub_of_up _ hs).trans (if_pos hm))
    · exact run_eq_next_put (f := scrub (.data pfn line true)) ((scrub_of_up _ hs).trans (if_pos (by simp [hf, hl])))
    · exact run_eq_next_put (f := scrub (.counter pfn)) ((scrub_of_up _ hs).trans (if_pos hf))
    · exact run_eq_next_put (f := scrub (.data pfn line false)) ((scrub_of_up _ hs).trans (if_pos (by simp [hf, hl, hh])))
    · exact run_eq_next_put (f := scrub (.partialRead pfn line)) ((scrub_of_up _ hs).trans (if_pos (by simp [hf, hl, hh])))
    · exact run_eq_next_put (f := scrub .onDie) (scrub_of_up _ hs)

end Sys2Proof.Machine
end

section
/-! Path commands (R376, R388, R391, R397 to R404). -/
namespace Sys2Proof.Machine

section
variable {r : NcsReq} {o : Otp} {d : Dev} {p : PathPair}

theorem pathStatus_of_pair (hp : tget d.pth.pairs (rf r 0 4 0) = some p) :
    cmdPathStatus.act o d r = (d, stOk, pathWords (rf r 0 4 0) p) := by
  change (match tget d.pth.pairs (rf r 0 4 0) with
    | some p => (d, stOk, pathWords (rf r 0 4 0) p)
    | none => (d, stOk, [])) = _
  rw [hp]

/-- What PATH_PRIORITY_SET does with a pair. -/
def prioritySet (r : NcsReq) (p : PathPair) (d : Dev) : Dev :=
  setPair (rf r 0 4 0) (p.withEnd (bit (rw r 0) 8) { p.pathEnd (bit (rw r 0) 8) with txPrio := rf r 0 19 16 }) d

theorem pathPrioritySet_of_pair (hp : tget d.pth.pairs (rf r 0 4 0) = some p) :
    cmdPathPrioritySet.act o d r = (prioritySet r p d, stOk, []) := by
  change (match tget d.pth.pairs (rf r 0 4 0) with
    | some p => (prioritySet r p d, stOk, [])
    | none => (d, stOk, [])) = _
  rw [hp]

/-- PATH_REQUEST answers what pathRequest gives for its kind. -/
theorem pathRequest_act {k : Nat} (hk : rf r 0 31 28 = k) :
    cmdPathRequest.act o d r
      = ((pathRequest k (rf r 0 8 8) (rf r 0 4 0) d).1, (pathRequest k (rf r 0 8 8) (rf r 0 4 0) d).2, []) := by
  subst hk
  rfl

end

section
variable {i path : Nat} {d : Dev} {p : PathPair} (hp : tget d.pth.pairs i = some p)
include hp

theorem pathRequest_clear : pathRequest 0 path i d = (pathsRefresh (setPair i
    { p with a := { p.a with lockout := false }, b := { p.b with lockout := false }, force := none } d), stOk) := by
  unfold pathRequest
  rw [hp]
  rfl

theorem pathRequest_lockout : pathRequest 1 path i d = (pathsRefresh (setPair i
    (p.withEnd (path == 1) { p.pathEnd (path == 1) with lockout := true }) d), stOk) := by
  unfold pathRequest
  rw [hp]
  rfl

theorem pathRequest_force : pathRequest 2 path i d = if (p.pathEnd (path == 1)).lockout then (d, 0x8800)
    else (pathsRefresh (setPair i { p with force := some path } d), stOk) := by
  unfold pathRequest
  rw [hp]
  rfl

/-- A manual switch goes to a READY path of no lower HEALTH, not locked out and not selected, that no force bars. -/
theorem pathRequest_switch : pathRequest 3 path i d =
    if (p.pathEnd (path == 1)).lockout = false ∧ p.selected ≠ path ∧ (p.pathEnd (path == 1)).state = 2
        ∧ (p.pathEnd (path == 0)).health ≤ (p.pathEnd (path == 1)).health ∧ p.force ≠ some p.selected then
      (pathsRefresh (withDefects (switchPath i path 4) d), stOk)
    else (d, 0x8800) := by
  unfold pathRequest
  rw [hp]
  change (if ((p.pathEnd (path == 1)).lockout || p.selected == path || (p.pathEnd (path == 1)).state != 2
      || decide ((p.pathEnd (path == 1)).health < (p.pathEnd (path == 0)).health) || p.force == some p.selected) = true then
    (d, stPathRefused) else (pathsRefresh (withDefects (switchPath i path 4) d), stOk)) = _
  split
  · next h =>
    rw [if_neg]
    · rfl
    · rintro ⟨h1, h2, h3, h4, h5⟩
      simp [h1, h2, h3, h5, Nat.not_lt.mpr h4] at h
  · next h =>
    simp only [Bool.or_eq_true, not_or, beq_iff_eq, bne_iff_ne, ne_eq, Classical.not_not, decide_eq_true_eq, Nat.not_lt,
      Bool.not_eq_true] at h
    obtain ⟨⟨⟨⟨h1, h2⟩, h3⟩, h4⟩, h5⟩ := h
    rw [if_pos ⟨h1, h2, h3, h4, h5⟩]

end

/-- PATH_REQUEST of a kind that does e. -/
theorem pathRequest_served {r : NcsReq} {s : State} {k : Nat} {e : Dev → Dev} (h : Passes cmdPathRequest r s)
    (hk : rf r 0 31 28 = k) {st : Nat} (hst : st ≠ stAccepted)
    (he : pathRequest k (rf r 0 8 8) (rf r 0 4 0) (submitted 0x0803 r s.dev) = (e (submitted 0x0803 r s.dev), st)) :
    exec (.pathRequest r) s = .next (served 0x0803 r st (fun _ => []) e s) := by
  refine served_at rfl h rfl ((pathRequest_act hk).trans ?_) hst (fun _ => rfl)
  change ((pathRequest k (rf r 0 8 8) (rf r 0 4 0) (submitted 0x0803 r s.dev)).1,
    (pathRequest k (rf r 0 8 8) (rf r 0 4 0) (submitted 0x0803 r s.dev)).2, _) = _
  rw [he]
  rfl

/-- Settles O35: row by row; those that name a pair, on the pair they name. That a manual switch is refused against a
force is log entry 38. -/
theorem pathCommandsAct : Obligations.PathCommandsAct := by
  unfold Obligations.PathCommandsAct
  refine ⟨?create, ?delete, fun r p s hp => ⟨fun h => ?status, fun h => ?priority, fun h => ?request⟩, ?prfWrite, ?prfRead⟩
  case create | delete | prfWrite =>
    exact sets_intro (fun _ _ => rfl) (fun _ _ _ => rfl) (fun _ _ _ => rfl)
  case prfRead =>
    refine answers_intro (fun _ _ => rfl) (fun _ d r => ?_) (fun _ _ _ => rfl)
    change (d, stOk, [((tget d.pth.profilesNext (rf r 0 1 0)).getD (pointsProfile d (rf r 0 1 0))).1,
      ((tget d.pth.profilesNext (rf r 0 1 0)).getD (pointsProfile d (rf r 0 1 0))).2]) = _
    cases tget d.pth.profilesNext (rf r 0 1 0) <;> rfl
  case status =>
    exact served_at (e := id) rfl h rfl (pathStatus_of_pair (by rw [submitted_pth]; exact hp)) (by decide) (fun _ => rfl)
  case priority =>
    exact served_at (e := prioritySet r p) rfl h rfl (pathPrioritySet_of_pair (by rw [submitted_pth]; exact hp)) (by decide)
      (fun _ => rfl)
  case request =>
    have hp' : tget (submitted 0x0803 r s.dev).pth.pairs (rf r 0 4 0) = some p := by
      rw [submitted_pth]
      exact hp
    refine ⟨fun hk => ?_, fun hk => ?_, fun hk => ?_, fun hk => ?_⟩
    · exact pathRequest_served (e := fun d => pathsRefresh (setPair (rf r 0 4 0)
        { p with a := { p.a with lockout := false }, b := { p.b with lockout := false }, force := none } d)) h hk (by decide)
        (pathRequest_clear hp')
    · exact pathRequest_served (e := fun d => pathsRefresh (setPair (rf r 0 4 0)
        (p.withEnd (rf r 0 8 8 == 1) { p.pathEnd (rf r 0 8 8 == 1) with lockout := true }) d)) h hk (by decide)
        (pathRequest_lockout hp')
    · split
      · next hl => exact pathRequest_served (e := id) h hk (by decide) ((pathRequest_force hp').trans (if_pos hl))
      · next hl =>
        exact pathRequest_served (e := fun d => pathsRefresh (setPair (rf r 0 4 0) { p with force := some (rf r 0 8 8) } d))
          h hk (by decide) ((pathRequest_force hp').trans (if_neg hl))
    · split
      · next hl =>
        exact pathRequest_served (e := fun d => pathsRefresh (withDefects (switchPath (rf r 0 4 0) (rf r 0 8 8) 4) d))
          h hk (by decide) ((pathRequest_switch hp').trans (if_pos hl))
      · next hl => exact pathRequest_served (e := id) h hk (by decide) ((pathRequest_switch hp').trans (if_neg hl))

end Sys2Proof.Machine
end

section
/-! Claim frames, guard, holdoff, hold and yard (R383 to R389, R393 to R395). -/
namespace Sys2Proof.Machine

/-! Claim frames. -/

section
variable {o : Otp} {i dt : Nat} {d : Dev} {p : PathPair}

theorem claimPeriod_of_due (hp : tget (passTime dt d).pth.pairs i = some p) (hl : p.line = false)
    (ht : trafficOn (passTime dt d) = true)
    (hd : ∀ t, p.claimAt = some t → t + usCycles (pfPeriod (passTime dt d) p) ≤ rawNow (passTime dt d)) :
    claimPeriod i dt o d = claimSend i true (claimSend i false
      (setPair i { p with claimAt := some (rawNow (passTime dt d)) } (passTime dt d))) := by
  unfold claimPeriod
  dsimp only
  rw [hp]
  dsimp only
  cases hc : p.claimAt with
  | none => exact if_neg (by simp [hl, ht])
  | some t => exact if_neg (by simp [hl, ht, hd t hc])

/-- The device after its claim SA has sent one PN. -/
def claimNumbered (y : Nat) (j : Nat) (x : SaRec) (d : Dev) : Dev :=
  match tget d.fm.secys y with
  | some y => afterPn y j x.pn (setSa j { x with pn := x.pn + 1 } d)
  | none => setSa j { x with pn := x.pn + 1 } d

theorem claimSend_of_sa {b : Bool} {j : Nat} {sc : Sc} {x : SaRec} (hp : tget d.pth.pairs i = some p)
    (hs : tget d.fm.scs p.claimSc = some sc) (he : encodingSa d (objKey 0 p.claimSc) = some j) (hx : saOf d j = some x)
    (hn : x.exhausted = false) : claimSend i b d =
      (let h := claimHead d.fm.etype i (b1 b) x.an (sentClaim (p.pathEnd b)) sc.sci x.pn
       let f := h ++ gcmTag x.key (fmIv x sc.sci x.pn) h []
       out (.frame 1 (p.pathEnd b).carrier f (fcsOf true f)) (occupy (lk 0 (p.pathEnd b).carrier) (wireBytes f)
         (claimNumbered sc.secy j x d))) := by
  have hj : (encodingSa d (objKey 0 p.claimSc)).bind (fun j => (saOf d j).map (fun x => (j, x))) = some (j, x) := by
    rw [he, Option.bind_some, hx, Option.map_some]
  unfold claimSend
  rw [hp]
  dsimp only
  rw [hs, hj]
  dsimp only
  rw [if_neg (by simp [hn])]
  rfl

theorem claimReceive_of_pair {l : Nat} {f : Bytes} {q : PathPair} {b : Bool} (ht : trafficOn (passTime dt d) = true)
    (hf : 60 ≤ f.length) (he : beAt f 12 2 = (passTime dt d).fm.etype) (h2 : beAt f 14 1 = 2)
    (hq : tget (passTime dt d).pth.pairs (beAt f 16 1 % 32) = some q) (hl : q.line = false)
    (hp : pairOfLine (passTime dt d) l = some (i, p, b)) : claimReceive l f dt o d =
      if claimValid (passTime dt d) i p b f then claimTake i p b f (passTime dt d)
      else setPair i { p with invalid := p.invalid + 1 } (passTime dt d) := by
  unfold claimReceive
  dsimp only
  rw [if_neg (by simp [ht, hf, he, h2]), hq]
  dsimp only
  rw [if_neg (by simp [hl]), hp]

theorem claimMiss_of_late {path : Nat} (hp : tget (passTime dt d).pth.pairs i = some p) (hl : p.line = false) (h2 : path < 2)
    (hh : (p.pathEnd (path == 1)).heard + usCycles (pfMiss (passTime dt d) p * pfPeriod (passTime dt d) p)
      ≤ rawNow (passTime dt d)) : claimMiss i path dt o d = pathsRefresh (setPair i (p.withEnd (path == 1)
        { p.pathEnd (path == 1) with missed := true, candRun := 0 }) (passTime dt d)) := by
  unfold claimMiss
  dsimp only
  rw [hp]
  dsimp only
  exact if_neg (by simp [hl, h2, hh])

/-! Guard, holdoff and hold. -/

theorem guardExpiry_of_fit {path : Nat} (hp : tget d.pth.pairs i = some p) (h2 : path < 2)
    (hs : (p.pathEnd (path == 1)).state = 1) (hf : endFit d p (p.pathEnd (path == 1)) = true)
    (hg : (p.pathEnd (path == 1)).since + pfGuard d p ≤ d.sys.ticks) : guardExpiry i path o d =
      (let q := p.withEnd (path == 1) { p.pathEnd (path == 1) with state := 2 }
       pathsRefresh (pathStateEvent i q (path == 1) 1 (setPair i q d))) := by
  unfold guardExpiry
  rw [hp]
  dsimp only
  exact if_neg (by simp [h2, hs, hf, hg])

theorem holdoffExpiry_of_lasting {h t : Nat} (hp : tget (passTime dt d).pth.pairs i = some p) (hh : p.holdoff = some (h, t))
    (ht : t + usCycles (10 * pfHoldoff (passTime dt d) p) ≤ rawNow (passTime dt d)) :
    holdoffExpiry i dt o d = pathsRefresh (setPair i { p with holdoff := none } (passTime dt d)) := by
  unfold holdoffExpiry
  dsimp only
  rw [hp]
  dsimp only
  rw [hh]
  exact if_neg (Nat.not_lt.mpr ht)

theorem holdExpiry_of_held {t : Nat} (hp : tget (passTime dt d).pth.pairs i = some p) (hh : p.hold = some (t, false))
    (ht : t + 14000 ≤ rawNow (passTime dt d)) :
    holdExpiry i dt o d = setPair i { p with hold := some (t, true) } (passTime dt d) := by
  unfold holdExpiry
  dsimp only
  rw [hp]
  dsimp only
  rw [hh]
  exact if_pos ht

end

/-! The Marshalling yard. -/

section
variable {o : Otp} {n sc num dt : Nat} {d : Dev} {p : PathPair}

/-- A unit of a pair, and the pair's other units. -/
def yardUnit (sc num : Nat) (p : PathPair) : Option YardUnit := p.units.find? (fun u => u.sc == sc && u.num == num)
def yardRest (sc num : Nat) (p : PathPair) : List YardUnit := p.units.filter (fun u => !(u.sc == sc && u.num == num))

/-- The device once the unit has left the yard's pages. -/
def yardFreed (n sc num : Nat) (p : PathPair) (d : Dev) : Dev :=
  match yardUnit sc num p with | some u => yardRead d n p u d | none => d

variable (hp : tget (passTime dt d).pth.pairs n = some p) (hh : p.hitless = true) (ht : trafficOn (passTime dt d) = true)
  (hd : unitDue (passTime dt d) p num (yardUnit sc num p) ≤ rawNow (passTime dt d))
include hp hh ht hd

theorem yardRelease_of_line (hl : p.line = true) : yardRelease n sc num dt o d =
    (let e := setPair n { p with units := yardRest sc num p, delivered := tset p.delivered 0 num }
       (yardFreed n sc num p (passTime dt d))
     pathsRefresh (withDefects (fun d => (demapAll p.a.carrier num
       (match yardUnit sc num p with | some u => unitFrames e p u | none => []) false d).2) e)) := by
  unfold yardRelease
  dsimp only
  rw [hp]
  dsimp only
  rw [if_neg (by simp [hh, ht])]
  exact (if_neg (Nat.not_lt.mpr hd)).trans (if_pos hl)

theorem yardRelease_of_frame (hl : p.line = false) : yardRelease n sc num dt o d =
    (let e := setPair n { p with units := yardRest sc num p, delivered := tset p.delivered sc (max num (tgetD p.delivered sc 0)) }
       (yardFreed n sc num p (passTime dt d))
     match (yardUnit sc num p).bind (·.flight) with | some f => unitToQueue o f e | none => e) := by
  unfold yardRelease
  dsimp only
  rw [hp]
  dsimp only
  rw [if_neg (by simp [hh, ht])]
  exact (if_neg (Nat.not_lt.mpr hd)).trans (if_neg (by simp [hl]))

end

/-- Settles O36: each happening on its condition. That a claim frame is in no SA count is log entry 40; when a unit is
due and how its copies merge is log entry 39. -/
theorem claimsAndPathTimersAct : Obligations.ClaimsAndPathTimersAct := by
  unfold Obligations.ClaimsAndPathTimersAct
  refine ⟨⟨?period, ?sent, ?received, ?missed⟩, ?guard, ?holdoff, ?hold, ?yard⟩
  case period =>
    intro i dt p s d hp hl ht hd
    exact run_eq_next_put (f := claimPeriod i dt) (claimPeriod_of_due hp hl ht hd)
  case sent =>
    intro i j b p sc x d hp hs he hx hn
    exact claimSend_of_sa hp hs he hx hn
  case received =>
    intro l i dt f p q b s d ht hf he h2 h1 hq hl hp
    exact run_eq_next_put (f := claimReceive l f dt) (claimReceive_of_pair ht hf he h2 hq hl hp)
  case missed =>
    intro i path dt p s d hp hl h2 hh
    exact run_eq_next_put (f := claimMiss i path dt) (claimMiss_of_late hp hl h2 hh)
  case guard =>
    intro i path p s hp h2 hs hf hg
    exact run_eq_next_put (f := guardExpiry i path) (guardExpiry_of_fit hp h2 hs hf hg)
  case holdoff =>
    intro i h t dt p s d hp hh ht
    exact run_eq_next_put (f := holdoffExpiry i dt) (holdoffExpiry_of_lasting hp hh ht)
  case hold =>
    intro i t dt p s d hp hh ht
    exact run_eq_next_put (f := holdExpiry i dt) (holdExpiry_of_held hp hh ht)
  case yard =>
    intro n sc num dt p s d rest unit free hp hh ht hd
    exact ⟨fun hl => run_eq_next_put (f := yardRelease n sc num dt) (yardRelease_of_line hp hh ht hd hl),
      fun hl => run_eq_next_put (f := yardRelease n sc num dt) (yardRelease_of_frame hp hh ht hd hl)⟩

end Sys2Proof.Machine
end

section
/-! Egress commands, Timetables and samples (R415, R418, R420, R422, R424 to R430). -/
namespace Sys2Proof.Machine

section
variable {o : Otp} {r : NcsReq} {d : Dev}

/-- What SCH_CLASS_SET does: the PCP map of a port, or the queue of a SecY. -/
def classSet (r : NcsReq) (d : Dev) : Dev :=
  if bit (rw r 0) 31 then { d with sch := { d.sch with pcp := tset d.sch.pcp (rf r 0 21 16) (rw r 1) } }
  else { d with sch := { d.sch with secyQueue := tset d.sch.secyQueue (rf r 0 13 0) (rf r 1 2 0) } }

theorem schClassSet_act : cmdSchClassSet.act o d r = (classSet r d, stOk, []) := by
  change ({ d with sch := if bit (rw r 0) 31 then { d.sch with pcp := tset d.sch.pcp (rf r 0 21 16) (rw r 1) }
    else { d.sch with secyQueue := tset d.sch.secyQueue (rf r 0 13 0) (rf r 1 2 0) } }, stOk, []) = _
  unfold classSet
  cases bit (rw r 0) 31 <;> rfl

theorem submitted_tt (code p : Nat) : ttOf (submitted code r d) p = ttOf d p := by
  unfold ttOf
  rw [submitted_sch]

/-- What SCH_TT_COMMIT leaves on the port of its request, whose Timetable is t. -/
def ttArmed (r : NcsReq) (t : Timetable) : Dev → Dev :=
  setTt (rf r 0 21 16) { t with armed := some (rf r 0 10 0, ttBase r, swapInstant t (ttBase r)) }

theorem schTtCommit_act {t : Timetable} (h : ttOf d (rf r 0 21 16) = t) : cmdSchTtCommit.act o d r =
    (ttArmed r t d, stOk, [wd (secOf (swapInstant t (ttBase r))), wd (nsOf (swapInstant t (ttBase r)))]) := by
  subst h
  rfl

end

section
variable {o : Otp} {p dt : Nat} {d : Dev}

theorem ttShow_of_running (h : (ttOf d p).active ≠ []) : ttShow p d = setTt p { ttOf d p with
    entry := (entryAt (ttOf d p).active (cycleOff (ttOf d p).active (ttOf d p).base (timeNow d))).1 } d := by
  unfold ttShow
  exact if_neg (by simp [h])

theorem ttSwapNow_of_reached {n b i : Nat} (h : (ttOf d p).armed = some (n, b, i)) (hr : reachedAt (timeNow d) i = true) :
    ttSwapNow p d = emit 0 0x0980 (wd (p * 2 ^ 16 + n)) (wd (nsOf i)) (setTt p
      ⟨shadowList (ttOf d p) n, i, 0, (List.range n).zip (shadowList (ttOf d p) n), none⟩ d) := by
  unfold ttSwapNow
  dsimp only
  rw [h]
  exact if_pos hr

theorem ttSwap_of_reached {n b i : Nat} (h : (ttOf (passTime dt d) p).armed = some (n, b, i))
    (hr : reachedAt (timeNow (passTime dt d)) i = true) : ttSwap p dt o d = ttShow p
      (emit 0 0x0980 (wd (p * 2 ^ 16 + n)) (wd (nsOf i)) (setTt p
        ⟨shadowList (ttOf (passTime dt d) p) n, i, 0, (List.range n).zip (shadowList (ttOf (passTime dt d) p) n), none⟩
        (passTime dt d))) := by
  unfold ttSwap
  rw [ttSwapNow_of_reached h hr]

theorem queueSample_of_sampled (h : rawNow (passTime dt d) / 1024 = (passTime dt d).sch.sampled) :
    queueSample dt o d = passTime dt d := by
  unfold queueSample
  exact if_pos h

theorem queueSample_of_due (h : rawNow (passTime dt d) / 1024 ≠ (passTime dt d).sch.sampled) : queueSample dt o d =
    (let e := { passTime dt d with sch := { (passTime dt d).sch with sampled := rawNow (passTime dt d) / 1024 } }
     (allQueues e).foldl (fun d k => setQueue k (sampleQueue d (queueOf d k)) d) e) := by
  unfold queueSample
  exact if_neg h

end

/-- Settles O38: the commands row by row, then the Timetable's instants and the samples. -/
theorem egressCommandsAct : Obligations.EgressCommandsAct := by
  unfold Obligations.EgressCommandsAct
  refine ⟨⟨?shape, ?class', ?stats, ?sample, ?status, ?queueWrite, ?queueRead, ?ttWrite, ?ttRead, ?commit⟩,
    ?boundary, ?swap, fun dt s => ⟨?sampled, ?due⟩⟩
  case shape | queueWrite | ttWrite => exact sets_intro (fun _ _ => rfl) (fun _ _ _ => rfl) (fun _ _ _ => rfl)
  case class' =>
    exact sets_intro (e := fun _ r d => classSet r d) (fun _ _ => rfl) (fun _ _ _ => schClassSet_act) (fun _ _ _ => rfl)
  case stats | status | queueRead | ttRead => exact answers_intro (fun _ _ => rfl) (fun _ _ _ => rfl) (fun _ _ _ => rfl)
  case sample =>
    intro r s h
    exact served_by rfl h rfl (fun _ => rfl) (by decide) (fun _ => rfl)
  case commit =>
    intro r s h
    exact served_at (e := ttArmed r (ttOf s.dev (rf r 0 21 16))) rfl h rfl (schTtCommit_act (submitted_tt _ _)) (by decide)
      (fun _ => rfl)
  case boundary =>
    intro p dt s d t ha
    exact run_eq_next_put (f := ttBoundary p dt) (ttShow_of_running ha)
  case swap =>
    intro p dt n b i s d t ha hr
    exact run_eq_next_put (f := ttSwap p dt) (ttSwap_of_reached ha hr)
  case sampled => exact fun h => run_eq_next_put (f := queueSample dt) (queueSample_of_sampled h)
  case due => exact fun h => run_eq_next_put (f := queueSample dt) (queueSample_of_due h)

end Sys2Proof.Machine
end

section
/-! Time commands and the TU_ registers (R434, R435, R436, R439, R443, R451, R453 to R463). -/
namespace Sys2Proof.Machine

/-- A directly answered command whose effect and payload are known on the device that picked the request up. -/
theorem served_where {i : Instr} {c : Cmd} {r : NcsReq} {s : State} {code : Nat} {e : Dev → Dev} {st : Nat}
    {pl : Dev → List Word} (hx : exec i s = run (command c r) s) (h : Passes c r s) (hc : c.code = code)
    (ha : c.act s.otp (submitted c.code r s.dev) r
      = (e (submitted c.code r s.dev), st, pl (submitted c.code r s.dev))) (hst : st ≠ stAccepted)
    (hf : ∀ d, c.after s.otp r st d = d) : exec i s = .next (served code r st pl e s) := by
  subst hc
  exact served_at hx h rfl ha hst hf

section
variable {o : Otp} {r : NcsReq} {d : Dev}

/-- The step or re-arm that a request leaves pending. -/
def pendRequest (rearm : Bool) (r : NcsReq) (d : Dev) : Dev :=
  pendTime ⟨rearm, rf r 0 1 0, rw r 1, rw r 2, rw r 3, (alignDelta d).getD 0, d.sys.ticks⟩ d

/-- The step of the epoch has been used, or one is pending. -/
def stepSpent (d : Dev) : Bool := d.tu.stepUsed || d.tu.pend.any (fun p => !p.rearm)

theorem timeStep_of_spent (h : stepSpent d = true) : cmdTimeStep.act o d r = (d, 0x8A00, []) := if_pos h

theorem timeStep_of_free (h : ¬ stepSpent d = true) : cmdTimeStep.act o d r = (pendRequest false r d, stOk, []) := if_neg h

theorem submitted_stepSpent (code : Nat) : stepSpent (submitted code r d) = stepSpent d := by
  unfold stepSpent
  rw [submitted_tu]

/-- What TIME_PTP_RECV leaves once its oldest entry is taken. -/
def ptpTaken (rest : List Captured) (d : Dev) : Dev := { d with tu := { d.tu with ring := rest, ringDropped := false } }

/-- The response that carries a received frame. -/
def ptpWords (x : Captured) (rest : List Captured) (d : Dev) : List Word :=
  wd (2 ^ 31 + flag d.tu.ringDropped 30 + x.side * 2 ^ 23 + x.port * 2 ^ 16 + rest.length)
    :: (stampWords x.epoch x.t ++ [wd (x.frame.length * 2 ^ 16 + fracOf x.t)] ++ beWords x.frame)

theorem timePtpRecv_of_empty (h : d.tu.ring = []) : cmdTimePtpRecv.act o d r =
    ({ d with tu := { d.tu with ringDropped := false } }, stOk, [wd (flag d.tu.ringDropped 30)]) := by
  change ((ptpRecv d).1, stOk, (ptpRecv d).2) = _
  unfold ptpRecv
  rw [h]

theorem timePtpRecv_of_entry {x : Captured} {rest : List Captured} (h : d.tu.ring = x :: rest) :
    cmdTimePtpRecv.act o d r = (ptpTaken rest d, stOk, ptpWords x rest d) := by
  change ((ptpRecv d).1, stOk, (ptpRecv d).2) = _
  unfold ptpRecv
  rw [h]
  rfl

end

/-! The TU_ registers. -/

section
variable {o : Otp} {d : Dev} (hb : bar2Ready d = true)
include hb

theorem tuCtlWrite_of_ready (v : Word) : tuCtlWrite v o d =
    (let d := alarms { d with tu := { d.tu with arm := bit v 30, arm32 := bit v 29 } }
     if bit v 31 then { d with tu := { d.tu with snap := snapWords d } } else d) := by
  unfold tuCtlWrite
  exact if_neg (by simp [hb])

theorem alarmValueWrite_of_ready (off : Nat) (v : Word) : alarmValueWrite off v o d = match off with
    | 0x030 => alarms { d with tu := { d.tu with almHi := wd (fld v 15 0) } }
    | 0x034 => alarms { d with tu := { d.tu with almLo := v } }
    | 0x038 => alarms { d with tu := { d.tu with almNs := v } }
    | 0x03C => alarms { d with tu := { d.tu with alm32 := v } }
    | _ => d := by
  unfold alarmValueWrite
  exact (if_neg (by simp [hb])).trans rfl

theorem txqOvfClear_of_set {v : Word} (hv : bit v 31 = true) :
    txqOvfClear v o d = { d with tu := { d.tu with ovfFlag := false, ovfCount := 0 } } := by
  unfold txqOvfClear
  exact if_pos (by simp [hb, hv])

theorem txqRead_of_empty (h : d.tu.txq = []) : txqRead o d = out (.readValue 0) d := by
  unfold txqRead
  rw [if_neg (by simp [hb]), h]

theorem txqRead_of_stamp {x : TxStamp} {rest : List TxStamp} (h : d.tu.txq = x :: rest) : txqRead o d =
    out (.readValue (wd (2 ^ 31 + x.side * 2 ^ 23 + x.port * 2 ^ 16 + x.id)))
      { d with tu := { d.tu with txq := rest, txqRegs := stampWords x.epoch x.t ++ [wd (fracOf x.t)] } } := by
  unfold txqRead
  rw [if_neg (by simp [hb]), h]

end

/-- Settles O41: the commands row by row, then the registers. The difference that an align to PPS takes is log entry 43. -/
theorem timeCommandsAndRegistersAct : Obligations.TimeCommandsAndRegistersAct := by
  unfold Obligations.TimeCommandsAndRegistersAct
  refine ⟨⟨?get, ?step, ?rate, ?send, fun r s h => ⟨fun hr => ?empty, fun x rest hr => ?entry⟩, ?capture, ?pps, ?tod, ?model,
    ?rearm, ?delaySet, ?delayGet, ?ref⟩, fun v s hb => ⟨?ctl, ?hi, ?lo, ?ns, ?alm32, ?ovf⟩, fun s hb => ⟨?none, ?stamp⟩⟩
  case get | delayGet => exact answers_intro (fun _ _ => rfl) (fun _ _ _ => rfl) (fun _ _ _ => rfl)
  case tod =>
    refine answers_intro (fun _ _ => rfl) (fun _ d _ => ?_) (fun _ _ _ => rfl)
    change (d, stOk, match d.tu.tod with
      | some (locked, sec, e, t) => [wd (2 ^ 31 + flag locked 30 + sec / 2 ^ 32 % 65536), lo32 sec] ++ stampWords e t
      | none => [0, 0, 0, 0, 0]) = _
    cases d.tu.tod <;> rfl
  case rate | send | capture | pps | model | rearm | delaySet | ref =>
    exact sets_intro (fun _ _ => rfl) (fun _ _ _ => rfl) (fun _ _ _ => rfl)
  case step =>
    intro r s h
    change exec (.timeStep r) s = .next (if stepSpent s.dev = true then _ else _)
    rw [← submitted_stepSpent (r := r) cmdTimeStep.code]
    split
    · next hc => exact served_at (e := id) rfl h rfl (timeStep_of_spent hc) (by decide) (fun _ => rfl)
    · next hc => exact served_at (e := pendRequest false r) rfl h rfl (timeStep_of_free hc) (by decide) (fun _ => rfl)
  case empty =>
    exact served_where (e := fun d => { d with tu := { d.tu with ringDropped := false } }) rfl h rfl
      (timePtpRecv_of_empty (by rw [submitted_tu]; exact hr)) (by decide) (fun _ => rfl)
  case entry =>
    exact served_where (e := ptpTaken rest) (pl := ptpWords x rest) rfl h rfl
      (timePtpRecv_of_entry (by rw [submitted_tu]; exact hr)) (by decide) (fun _ => rfl)
  case ctl =>
    have hctl := run_eq_next_put (f := tuCtlWrite v) (tuCtlWrite_of_ready (o := s.otp) hb v)
    exact ⟨hctl, hctl, hctl⟩
  case hi => exact run_eq_next_put (f := alarmValueWrite 0x030 v) (alarmValueWrite_of_ready hb 0x030 v)
  case lo => exact run_eq_next_put (f := alarmValueWrite 0x034 v) (alarmValueWrite_of_ready hb 0x034 v)
  case ns => exact run_eq_next_put (f := alarmValueWrite 0x038 v) (alarmValueWrite_of_ready hb 0x038 v)
  case alm32 => exact run_eq_next_put (f := alarmValueWrite 0x03C v) (alarmValueWrite_of_ready hb 0x03C v)
  case ovf => exact fun hv => run_eq_next_put (f := txqOvfClear v) (txqOvfClear_of_set hb hv)
  case none => exact fun h => run_eq_next_put (f := txqRead) (txqRead_of_empty hb h)
  case stamp => exact fun x rest h => run_eq_next_put (f := txqRead) (txqRead_of_stamp hb h)

end Sys2Proof.Machine
end

section
/-! Edges, messages, references, calibration and host PTP frames (R439, R442, R443, R446 to R449). -/
namespace Sys2Proof.Machine

section
variable {o : Otp} {d : Dev} {dt : Nat}

theorem ppsInEdge_of_selected {falling : Bool} (ht : tuRuns (passTime dt d) = true)
    (hf : falling = bit (passTime dt d).tu.pps 28) : ppsInEdge falling dt o d =
      withHw (fun d => { d with tu := { d.tu with ppsStamp := some (d.tu.epoch, timeNow d), ppsRaw := rawNow d, ppsIn := true } })
        (passTime dt d) := by
  unfold ppsInEdge
  exact if_pos (by rw [hf, ht]; simp)

theorem ppsOutEnd_of_width {t : Nat} (hu : (passTime dt d).tu.ppsUntil = some t) (ht : t ≤ rawNow (passTime dt d)) :
    ppsOutEnd dt o d = out (.pin 0 false) { passTime dt d with tu := { (passTime dt d).tu with ppsUntil := none } } := by
  unfold ppsOutEnd
  dsimp only
  rw [hu]
  exact if_pos ht

theorem todReceive_of_message {m : Bytes} {e t : Nat} (hr : tuRuns (passTime dt d) = true)
    (hp : bit (passTime dt d).tu.pps 29 = true) (hm : todOk (passTime dt d) m = true)
    (hs : (passTime dt d).tu.ppsStamp = some (e, t)) : todReceive m dt o d =
      withHw (fun d => { d with tu := { d.tu with
        todIn := true, tod := some ((m.getD 3 0).getLsbD 1, beAt m 4 6, e, t) } }) (passTime dt d) := by
  unfold todReceive
  dsimp only
  rw [if_pos (by simp [hr, hp, hm]), hs]

theorem todSend_of_due {sec raw : Nat} (hd : (passTime dt d).tu.todDue = some (sec, raw))
    (hr : raw + 17500000 ≤ rawNow (passTime dt d)) (hp : bit (passTime dt d).tu.pps 30 = true) : todSend dt o d =
      (let v := draw 1 (passTime dt d)
       out (.tod (todMessage v.2 (v.1 == 1#1) sec)) { v.2 with tu := { v.2.tu with todDue := none } }) := by
  unfold todSend
  dsimp only
  rw [hd]
  exact (if_pos hr).trans (if_pos hp)

theorem turefRestored_of_source {n : Nat} (hn : n = 1 ∨ n = 2) : turefRestored n o d =
    if d.tu.ref = n ∧ d.tu.refUse ≠ n then
      emit 0 0x0A83 (wd n) 0 { d with tu := { d.tu with turef := n, refUse := n } }
    else { d with tu := { d.tu with turef := n } } := by
  unfold turefRestored
  dsimp only
  rw [if_neg (by obtain rfl | rfl := hn <;> decide)]
  simp only [Bool.and_eq_true, decide_eq_true_eq]

theorem dliveUpdate_of_block {side dir lane : Nat} {mean : Int} (hs : side ≤ 1) (hd : dir ≤ 1) (hl : lane < lanes o)
    (hb : 64 ≤ tgetD d.tu.dBlock (dk side dir lane) 0) : dliveUpdate side dir lane mean o d =
      (let k := dk side dir lane
       let cur := tgetD d.tu.dLive k 0
       { d with tu := { d.tu with
        dLive := if 250 < mean - cur ∨ 250 < cur - mean then tset d.tu.dLive k mean else d.tu.dLive
        dBlock := tset d.tu.dBlock k (tgetD d.tu.dBlock k 0 - 64)
        dCal := tset d.tu.dCal k true } }) := by
  unfold dliveUpdate
  dsimp only
  rw [if_pos (by simp [hs, hd, hl, hb])]
  simp only [Bool.or_eq_true, decide_eq_true_eq]

/-! A host PTP frame departs. -/

section
variable {side port : Nat} {x : PtpOut}

/-- A port sends host frames: its mode forwards and it is bound. -/
def HostSends (side port : Nat) (d : Dev) : Prop :=
  (d.sys.mode = .secure ∨ d.sys.mode = .service) ∧ (if side = 1 then clientBound d port else lineBound d port) = true

theorem hostSends_iff (side port : Nat) (d : Dev) : HostSends side port d ↔
    ((d.sys.mode == .secure || d.sys.mode == .service)
      && (if side = 1 then clientBound d port else lineBound d port)) = true := by
  simp [HostSends]

/-- The device once a host frame has left its port. -/
def hostSent (side port : Nat) (x : PtpOut) (d : Dev) : Dev :=
  out (.frame (if side = 1 then 0 else 1) port x.frame (crc32 x.frame))
    (occupy (lk side port) (wireBytes x.frame) (measurePath side 1 port x.frame
      { d with tu := { d.tu with ptpOut := d.tu.ptpOut.erase x } }))

variable (hx : hostFrame (passTime dt d) (lk side port) = some x)
include hx

theorem ptpDepart_of_unbound (hs : ¬ HostSends side port (passTime dt d)) : ptpDepart side port dt o d =
    { passTime dt d with tu := { (passTime dt d).tu with ptpOut := (passTime dt d).tu.ptpOut.erase x } } := by
  rw [hostSends_iff] at hs
  unfold ptpDepart
  dsimp only
  rw [hx]
  exact if_pos (by rw [Bool.not_eq_true'] ; exact Bool.eq_false_iff.mpr hs)

theorem ptpDepart_of_free (hs : HostSends side port (passTime dt d)) (hf : portFree (passTime dt d) (lk side port) = true) :
    ptpDepart side port dt o d = if !x.stamp then hostSent side port x (passTime dt d)
    else withHw (fun d =>
      if d.tu.txq.length < 256 then
        { d with tu := { d.tu with txq := d.tu.txq ++ [⟨side, port, x.id, d.tu.epoch, stampNow d side 1 port⟩] } }
      else { d with tu := { d.tu with ovfFlag := true, ovfCount := satInc 16 d.tu.ovfCount } })
        (hostSent side port x (passTime dt d)) := by
  rw [hostSends_iff] at hs
  unfold ptpDepart
  dsimp only
  rw [hx]
  exact (if_neg (by rw [Bool.not_eq_true', hs]; decide)).trans (if_neg (by rw [hf]; decide))

end

end

/-- Settles O42: each happening on its condition. That the ToD message of a second says freely whether time is valid is
log entry 44; the discard of a host PTP frame whose port was unbound is log entry 77. -/
theorem timeHappeningsAct : Obligations.TimeHappeningsAct := by
  unfold Obligations.TimeHappeningsAct
  refine ⟨fun dt s => ⟨rfl, rfl⟩, ?edge, ?pulse, ?tod, ?todSend, fun s => rfl, ?restored, ?live, ?measure, ?depart⟩
  case edge =>
    intro falling dt s d ht hf
    exact run_eq_next_put (f := ppsInEdge falling dt) (ppsInEdge_of_selected ht hf)
  case pulse =>
    intro dt t s d hu ht
    exact run_eq_next_put (f := ppsOutEnd dt) (ppsOutEnd_of_width hu ht)
  case tod =>
    intro m dt e t s d hr hp hm hs
    exact run_eq_next_put (f := todReceive m dt) (todReceive_of_message hr hp hm hs)
  case todSend =>
    intro dt sec raw s d hd hr hp
    exact run_eq_next_put (f := todSend dt) (todSend_of_due hd hr hp)
  case restored =>
    intro n s hn
    exact run_eq_next_put (f := turefRestored n) (turefRestored_of_source hn)
  case live =>
    intro side dir lane mean s hs hd hl hb
    exact run_eq_next_put (f := dliveUpdate side dir lane mean) (dliveUpdate_of_block hs hd hl hb)
  case measure => exact fun side dir port f d h => if_pos h
  case depart =>
    intro side port dt x s d e sends hx
    refine ⟨fun hs => run_eq_next_put (f := ptpDepart side port dt) (ptpDepart_of_unbound hx hs),
      fun hs hf => ⟨fun hst => ?_, fun hst => ?_⟩⟩
    · exact run_eq_next_put (f := ptpDepart side port dt) ((ptpDepart_of_free hx hs hf).trans (if_pos (by simp [hst])))
    · exact run_eq_next_put (f := ptpDepart side port dt) ((ptpDepart_of_free hx hs hf).trans (if_neg (by simp [hst])))

end Sys2Proof.Machine
end

section
/-! Lanes and ports (R465, R469 to R474, R477 to R491). -/
namespace Sys2Proof.Machine

/-! Commands on the port or lane that a request names. -/

section
variable {o : Otp} {r : NcsReq} {d : Dev}

theorem portOf_submitted (code k : Nat) : portOf (submitted code r d) k = portOf d k := by
  unfold portOf
  rw [submitted_ln]

/-- What PORT_DELETE does with a port. -/
def portGone (k : Nat) (p : Port) (d : Dev) : Dev :=
  let e := (portLanes k p).foldl (fun d l => laneOff l d) { d with ln := { d.ln with ports := tdel d.ln.ports k } }
  if p.up then tickEvent ⟨0, 0x0280, k, wd (k / 64 * 2 ^ 31 + k % 64 * 2 ^ 16), wd (k % 64)⟩ e else e

theorem portDelete_of_port {k : Nat} {p : Port} (h : portOf d k = some p) : portDelete k d = portGone k p d := by
  unfold portDelete
  rw [h]
  rfl

/-- What PORT_FALLOW does with the lanes of a port. -/
def fallowLanes (k : Nat) (enter : Bool) (p : Port) (d : Dev) : Dev :=
  portRefresh k ((portLanes k p).foldl (fun d l =>
    if enter then
      setLane l { laneOf d l with state := 7, held := true, lock := false, retries := 0, waiting := false, trial := none } d
    else if (laneOf d l).state = 7 then enterStage l 3 0 d else d) d)

theorem portFallow_of_port {k : Nat} {enter : Bool} {p : Port} (h : portOf d k = some p) :
    portFallow k enter d = fallowLanes k enter p d := by
  unfold portFallow
  rw [h]
  rfl

/-- A lane's test record once LANE_TEST_GET has read it. -/
def testRead (clear : Bool) (l : Lane) : Lane :=
  { l with
    lockLost := false
    bitErrors := if clear then 0 else l.bitErrors
    bitsChecked := if clear then 0 else l.bitsChecked }

theorem laneTestGet_act : cmdLaneTestGet.act o d r =
    (setLane (lwKey (rw r 0)) (testRead (bit (rw r 0) 30) (laneOf d (lwKey (rw r 0)))) d, stOk,
      laneTestWords (laneOf d (lwKey (rw r 0)))) := by
  change (setLane (lwKey (rw r 0)) (if bit (rw r 0) 30 then
      { { laneOf d (lwKey (rw r 0)) with lockLost := false } with bitErrors := 0, bitsChecked := 0 }
    else { laneOf d (lwKey (rw r 0)) with lockLost := false }) d, stOk, _) = _
  cases bit (rw r 0) 30 <;> rfl

end

/-! The sequencer. -/

section
variable {o : Otp} {d : Dev} {side lane fom : Nat} {m : LockMeas} (hk : laneKeyOk o side lane = true)
include hk

section
variable (hm : stageMay d (lk side lane) fom = true)
  (ht : rawNow d - (laneOf d (lk side lane)).stageAt < 1750 * (10 * fld (laneOf d (lk side lane)).word 19 0))
include hm ht

theorem stageSuccess_runs : ¬ (!(laneKeyOk o side lane && stageMay d (lk side lane) fom) || stageOver d (lk side lane)) = true := by
  have hs : stageOver d (lk side lane) = false := decide_eq_false (Nat.not_le.mpr ht)
  simp [hk, hm, hs]

theorem stageSuccess_plain (h : (laneOf d (lk side lane)).state = 1 ∨ (laneOf d (lk side lane)).state = 3) :
    stageSuccess side lane fom m o d = restart (lk side lane) ((laneOf d (lk side lane)).state + 1) 0
      (setLane (lk side lane) { laneOf d (lk side lane) with
        signal := (laneOf d (lk side lane)).signal || decide (2 ≤ (laneOf d (lk side lane)).state) } d) := by
  have h2 : (laneOf d (lk side lane)).state ≠ 2 := by omega
  have h4 : (laneOf d (lk side lane)).state ≠ 4 := by omega
  have h5 : (laneOf d (lk side lane)).state ≠ 5 := by omega
  unfold stageSuccess
  dsimp only
  rw [if_neg (stageSuccess_runs hk hm ht)]
  simp only [if_neg h2, if_neg h4, if_neg h5, decide_eq_false h4, Bool.or_false]

theorem stageSuccess_trained (h : (laneOf d (lk side lane)).state = 2) : stageSuccess side lane fom m o d =
    (let c := draw 64 d
     restart (lk side lane) 3 0
      (setLane (lk side lane) { laneOf d (lk side lane) with fom := fom, coeffs := c.1, signal := true } c.2)) := by
  unfold stageSuccess
  dsimp only
  rw [if_neg (stageSuccess_runs hk hm ht)]
  simp [h]

theorem stageSuccess_locked (h : (laneOf d (lk side lane)).state = 4) : stageSuccess side lane fom m o d =
    restart (lk side lane) 5 0 (lockDelays side lane m
      (setLane (lk side lane) { laneOf d (lk side lane) with signal := true, lock := true } d)) := by
  unfold stageSuccess
  dsimp only
  rw [if_neg (stageSuccess_runs hk hm ht)]
  simp [h]

theorem stageSuccess_aligned {p : Nat} {q : Port} (h : (laneOf d (lk side lane)).state = 5)
    (hp : portOfLane d (lk side lane) = some p) (hq : portOf d p = some q) : stageSuccess side lane fom m o d =
      portRefresh p ((portLanes p q).foldl (fun d x => if (laneOf d x).state = 5 then enterStage x 6 0 d else d)
        (setLane (lk side lane) { laneOf d (lk side lane) with signal := true } d)) := by
  have hp' : ∀ x, portOfLane (setLane (lk side lane) x d) (lk side lane) = some p := fun _ => hp
  have hq' : ∀ x, portOf (setLane (lk side lane) x d) p = some q := fun _ => hq
  unfold stageSuccess
  dsimp only
  rw [if_neg (stageSuccess_runs hk hm ht)]
  simp [h, hp', hq']

end

section
variable {dt : Nat} (h1 : 1 ≤ (laneOf (passTime dt d) (lk side lane)).state)
  (h5 : (laneOf (passTime dt d) (lk side lane)).state ≤ 5) (hw : (laneOf (passTime dt d) (lk side lane)).waiting = false)
  (ht : 1750 * (10 * fld (laneOf (passTime dt d) (lk side lane)).word 19 0)
    ≤ rawNow (passTime dt d) - (laneOf (passTime dt d) (lk side lane)).stageAt)
include h1 h5 hw ht

theorem stageTimeout_fails : stageTimeout side lane dt o d =
    (let d := passTime dt d
     let k := lk side lane
     let l := laneOf d k
     if fld l.word 27 24 = 0 || decide (l.retries < fld l.word 27 24) then restart k l.state (satInc 8 l.retries) d
     else if fld l.word 30 28 ≠ 0 then restart k (fld l.word 30 28) 0 d
     else emit 0 0x0281 (wd (side * 2 ^ 31 + l.state * 2 ^ 8 + lane)) (wd l.fom)
        (lanePortRefresh k (setLane k { l with state := 9, retries := 0, held := false, fom := 0 } d))) := by
  have hs : stageOver (passTime dt d) (lk side lane) = true := decide_eq_true ht
  unfold stageTimeout
  exact if_neg (by simp [hk, hw, hs, Nat.not_lt.mpr h5, Nat.ne_of_gt h1])

theorem stageTimeout_retry (hr : fld (laneOf (passTime dt d) (lk side lane)).word 27 24 = 0
      ∨ (laneOf (passTime dt d) (lk side lane)).retries < fld (laneOf (passTime dt d) (lk side lane)).word 27 24) :
    stageTimeout side lane dt o d = restart (lk side lane) (laneOf (passTime dt d) (lk side lane)).state
      (satInc 8 (laneOf (passTime dt d) (lk side lane)).retries) (passTime dt d) :=
  (stageTimeout_fails hk h1 h5 hw ht).trans (if_pos (by simpa using hr))

section
variable (h0 : fld (laneOf (passTime dt d) (lk side lane)).word 27 24 ≠ 0)
  (hr : fld (laneOf (passTime dt d) (lk side lane)).word 27 24 ≤ (laneOf (passTime dt d) (lk side lane)).retries)
include h0 hr

theorem stageTimeout_fallBack (hn : fld (laneOf (passTime dt d) (lk side lane)).word 30 28 ≠ 0) :
    stageTimeout side lane dt o d =
      restart (lk side lane) (fld (laneOf (passTime dt d) (lk side lane)).word 30 28) 0 (passTime dt d) :=
  (stageTimeout_fails hk h1 h5 hw ht).trans ((if_neg (by simp [h0, hr])).trans (if_pos hn))

theorem stageTimeout_failed (hn : fld (laneOf (passTime dt d) (lk side lane)).word 30 28 = 0) :
    stageTimeout side lane dt o d =
      (let d := passTime dt d
       let k := lk side lane
       let l := laneOf d k
       emit 0 0x0281 (wd (side * 2 ^ 31 + l.state * 2 ^ 8 + lane)) (wd l.fom)
        (lanePortRefresh k (setLane k { l with state := 9, retries := 0, held := false, fom := 0 } d))) :=
  (stageTimeout_fails hk h1 h5 hw ht).trans ((if_neg (by simp [h0, hr])).trans (if_neg (not_not_intro hn)))

end

end

theorem signalLost_of_lane : signalLost side lane o d =
    (let k := lk side lane
     let d := lineLockGone k (setLane k { laneOf d k with signal := false, chkLocked := false } d)
     let l := laneOf d k
     if l.state = 6 then
       lanePortRefresh k (setLane k { l with state := 3, waiting := true, held := true, retries := 0, trial := none } d)
     else if 2 ≤ l.state ∧ l.state ≤ 5 ∧ l.waiting = false then restart k 1 0 d
     else d) := by
  unfold signalLost
  dsimp only
  rw [if_neg (by simp [hk])]
  simp only [Bool.and_eq_true, decide_eq_true_eq, Bool.not_eq_true', and_assoc]

theorem signalReturn_of_lane : signalReturn side lane o d =
    (let k := lk side lane
     let e := setLane k { laneOf d k with signal := true } d
     if (laneOf d k).waiting then restart k 3 0 e else e) := by
  unfold signalReturn
  dsimp only
  rw [if_neg (by simp [hk]), laneOf_setLane]

theorem lockLost_of_lane : lockLost side lane o d =
    (let k := lk side lane
     declareLol k (lineLockGone k (
      if 4 ≤ (laneOf d k).state ∧ (laneOf d k).state ≤ 6 then
        restart k 3 0 (setLane k { laneOf d k with held := true } d)
      else d))) := by
  unfold lockLost
  dsimp only
  rw [if_neg (by simp [hk])]
  simp only [Bool.and_eq_true, decide_eq_true_eq]

section
variable (h6 : (laneOf d (lk side lane)).state = 6) (hf : (laneOf d (lk side lane)).frozen = false)
include h6 hf

theorem adaptStep_tries (ht : (laneOf d (lk side lane)).trial = none) : adaptStep side lane fom o d =
    (let c := draw 64 d
     setLane (lk side lane) { laneOf d (lk side lane) with
      fom := fom, trial := some ⟨fom, d.sys.ticks, (laneOf d (lk side lane)).coeffs⟩, coeffs := c.1 } c.2) := by
  unfold adaptStep
  dsimp only
  rw [if_neg (by simp [hk, h6, hf]), ht]

theorem adaptStep_judges {b : Trial} (ht : (laneOf d (lk side lane)).trial = some b) (hb : b.tick < d.sys.ticks) :
    adaptStep side lane fom o d =
      if fom + 1 < b.fom then
        setLane (lk side lane) { laneOf d (lk side lane) with
          fom := fom, trial := none, coeffs := b.coeffs, reverts := satInc 16 (laneOf d (lk side lane)).reverts } d
      else setLane (lk side lane) { laneOf d (lk side lane) with fom := fom, trial := none } d := by
  unfold adaptStep
  dsimp only
  rw [if_neg (by simp [hk, h6, hf]), ht]
  exact if_neg (Nat.not_le.mpr hb)

end

end

/-! JTAG. -/

theorem jtagLoad_eq (code : Nat) (o : Otp) (d : Dev) : jtagLoad code o d =
    (let d := { d with pwr := { d.pwr with jtag := code % 256 } }
     if code % 256 = 0 ∨ code % 256 = 12 ∨ code % 256 = 13 then allLanesTest o d else d) := by
  unfold jtagLoad jtagDrives
  simp only [Bool.or_eq_true, beq_iff_eq, or_assoc]

/-- Settles O44: the commands row by row, then the sequencer's happenings on a lane of the variant, and JTAG. That a TAP
reset loads IDCODE is log entry 45, that an adaptation step is judged at the next boundary log entry 70. -/
theorem lanesAct : Obligations.LanesAct := by
  unfold Obligations.LanesAct
  refine ⟨⟨?config, fun r p s h hp => ?delete, ?status, ?retrain, fun r p s h hp => ?fallow, ?testSet, ?testGet, ?seqWrite,
      ?seqRead, ?txeq, ?adapt⟩,
    fun side lane fom m s hk hm ht => ⟨?plain, ?trained, ?locked, ?aligned⟩,
    fun side lane dt s hk h1 h5 hw ht => ⟨?retry, ?fallBack, ?failed⟩,
    fun side lane s hk => ⟨?lost, ?back, ?lockLost⟩,
    fun side lane fom s hk h6 hf => ⟨?tries, fun b hb ht => ⟨?reverts, ?keeps⟩⟩, ?jtag, ?idle, ?reset⟩
  case config =>
    intro r s h
    exact served_by rfl h rfl (fun _ => rfl) (by decide) (fun _ => rfl)
  case delete =>
    exact served_at (e := portGone (pwKey (rw r 0)) p) rfl h rfl
      (congrArg (fun e => (e, stOk, ([] : List Word))) (portDelete_of_port ((portOf_submitted _ _).trans hp))) (by decide)
      (fun _ => rfl)
  case fallow =>
    exact served_at (e := fallowLanes (pwKey (rw r 0)) (bit (rw r 0) 0) p) rfl h rfl
      (congrArg (fun e => (e, stOk, ([] : List Word))) (portFallow_of_port ((portOf_submitted _ _).trans hp))) (by decide)
      (fun _ => rfl)
  case status | seqRead => exact answers_intro (fun _ _ => rfl) (fun _ _ _ => rfl) (fun _ _ _ => rfl)
  case retrain | testSet | seqWrite | txeq | adapt =>
    exact sets_intro (fun _ _ => rfl) (fun _ _ _ => rfl) (fun _ _ _ => rfl)
  case testGet =>
    intro r s h
    exact served_by (e := fun d => setLane (lwKey (rw r 0)) (testRead (bit (rw r 0) 30) (laneOf d (lwKey (rw r 0)))) d)
      rfl h rfl (fun _ => laneTestGet_act) (by decide) (fun _ => rfl)
  case plain =>
    intro h
    exact run_eq_next_put (f := fun o d => pathsRefresh (stageSuccess side lane fom m o d))
      (congrArg pathsRefresh (stageSuccess_plain hk hm ht h))
  case trained =>
    intro h
    exact run_eq_next_put (f := fun o d => pathsRefresh (stageSuccess side lane fom m o d))
      (congrArg pathsRefresh (stageSuccess_trained hk hm ht h))
  case locked =>
    intro h
    exact run_eq_next_put (f := fun o d => pathsRefresh (stageSuccess side lane fom m o d))
      (congrArg pathsRefresh (stageSuccess_locked hk hm ht h))
  case aligned =>
    intro p q h hp hq
    exact run_eq_next_put (f := fun o d => pathsRefresh (stageSuccess side lane fom m o d))
      (congrArg pathsRefresh (stageSuccess_aligned hk hm ht h hp hq))
  case retry =>
    intro hr
    exact run_eq_next_put (f := fun o d => pathsRefresh (stageTimeout side lane dt o d))
      (congrArg pathsRefresh (stageTimeout_retry hk h1 h5 hw ht hr))
  case fallBack =>
    intro h0 hr hn
    exact run_eq_next_put (f := fun o d => pathsRefresh (stageTimeout side lane dt o d))
      (congrArg pathsRefresh (stageTimeout_fallBack hk h1 h5 hw ht h0 hr hn))
  case failed =>
    intro h0 hr hn
    exact run_eq_next_put (f := fun o d => pathsRefresh (stageTimeout side lane dt o d))
      (congrArg pathsRefresh (stageTimeout_failed hk h1 h5 hw ht h0 hr hn))
  case lost =>
    exact run_eq_next_put (f := fun o d => pathsRefresh (signalLost side lane o d))
      (congrArg pathsRefresh (signalLost_of_lane hk))
  case back =>
    exact run_eq_next_put (f := fun o d => pathsRefresh (signalReturn side lane o d))
      (congrArg pathsRefresh (signalReturn_of_lane hk))
  case lockLost =>
    exact run_eq_next_put (f := fun o d => pathsRefresh (lockLost side lane o d))
      (congrArg pathsRefresh (lockLost_of_lane hk))
  case tries =>
    intro ht
    exact run_eq_next_put (f := adaptStep side lane fom) (adaptStep_tries hk h6 hf ht)
  case reverts =>
    intro hlt
    exact run_eq_next_put (f := adaptStep side lane fom) ((adaptStep_judges hk h6 hf hb ht).trans (if_pos hlt))
  case keeps =>
    intro hle
    exact run_eq_next_put (f := adaptStep side lane fom)
      ((adaptStep_judges hk h6 hf hb ht).trans (if_neg (Nat.not_lt.mpr hle)))
  case jtag => exact fun code s => run_eq_next_put (f := jtagLoad code) (jtagLoad_eq code s.otp s.dev)
  case idle =>
    intro s h
    exact run_eq_next_put (f := fun o d => tapReset o { d with pwr := { d.pwr with jtag := 0x01 } })
      (if_pos (show (!s.dev.ln.jtagDrive) = true by rw [h]; rfl))
  case reset =>
    intro s h
    exact run_eq_next_put (f := fun o d => tapReset o { d with pwr := { d.pwr with jtag := 0x01 } })
      (if_neg (show ¬ (!s.dev.ln.jtagDrive) = true by rw [h]; decide))

end Sys2Proof.Machine
end

section
/-! Key store commands, sealed messages, provisioning (R501 to R504, R506, R509 to R513, R515 to R521). -/
namespace Sys2Proof.Machine

/-! Provisioning: the message is taken. -/

theorem deviceJob_ks (d : Dev) : (deviceJob d).ks = d.ks := by
  unfold deviceJob
  split <;> rfl

/-- What KS_PROVISION leaves of a message that is judged. -/
def provTaken (r : NcsReq) (d : Dev) : Dev :=
  match provJudge (r.buf.take (bufLen r 0)) with
  | .inl st => finish r.page r.tag 0x0B10 st 0 (deviceJob d)
  | .inr _ => { deviceJob d with ks := { (deviceJob d).ks with
      provision := some ⟨r.page, r.tag, r.buf.take (bufLen r 0)⟩ } }

theorem command_ksProvision {r : NcsReq} {s : State} (h : Passes cmdKsProvision r s) :
    command cmdKsProvision r s.otp s.dev = provTaken r (taken r 0x0B10 id s).dev :=
  (command_passes h).trans ((perform_accepted rfl).trans rfl)

theorem ksProvision_of_failed {r : NcsReq} {s : State} {st : Nat} (h : Passes cmdKsProvision r s)
    (hn : s.dev.ks.provision = none) (hj : provJudge (r.buf.take (bufLen r 0)) = .inl st) :
    execKsProvision r s = .next (s.put (finish r.page r.tag 0x0B10 st 0 (deviceJob (taken r 0x0B10 id s).dev))) := by
  have hc : command cmdKsProvision r s.otp s.dev
      = finish r.page r.tag 0x0B10 st 0 (deviceJob (taken r 0x0B10 id s).dev) := by
    rw [command_ksProvision h, provTaken, hj]
  have hp : (command cmdKsProvision r s.otp s.dev).ks.provision = none := by
    rw [hc, finish_ks, deviceJob_ks]
    change (respond r.page r.tag stAccepted [] (accept r.page r.tag 0x0B10 (submitted 0x0B10 r s.dev))).ks.provision = none
    rw [respond_ks, accept_ks, submitted_ks]
    exact hn
  have ho : provOtp s.otp s.dev (command cmdKsProvision r s.otp s.dev) = s.otp := by
    unfold provOtp
    rw [hn, hp]
  unfold execKsProvision
  rw [runOtp_next]
  dsimp only
  rw [ho, hc]
  rfl

theorem ksProvision_of_message {r : NcsReq} {s : State} {a : Bytes} (h : Passes cmdKsProvision r s)
    (hn : s.dev.ks.provision = none) (hj : provJudge (r.buf.take (bufLen r 0)) = .inr a) :
    execKsProvision r s = .next (
      let d := deviceJob (taken r 0x0B10 id s).dev
      { s.put { d with ks := { d.ks with provision := some ⟨r.page, r.tag, r.buf.take (bufLen r 0)⟩ } } with
        otp := { s.otp with
          identity := slice (r.buf.take (bufLen r 0)) 8 32
          attest := a
          provBegun := sha384 (r.buf.take (bufLen r 0)) } }) := by
  have hc : command cmdKsProvision r s.otp s.dev = { deviceJob (taken r 0x0B10 id s).dev with
      ks := { (deviceJob (taken r 0x0B10 id s).dev).ks with
        provision := some ⟨r.page, r.tag, r.buf.take (bufLen r 0)⟩ } } := by
    rw [command_ksProvision h, provTaken, hj]
  have ho : provOtp s.otp s.dev (command cmdKsProvision r s.otp s.dev) = { s.otp with
      identity := slice (r.buf.take (bufLen r 0)) 8 32
      attest := a
      provBegun := sha384 (r.buf.take (bufLen r 0)) } := by
    unfold provOtp
    rw [hn, hc]
    dsimp only
    rw [hj]
  unfold execKsProvision
  rw [runOtp_next]
  dsimp only
  rw [ho, hc]
  rfl

/-! Sealed messages. -/

section
variable {o : Otp} {d : Dev} {job : SealJob}

theorem sealProcess_of_queued {rest : List SealJob} (hp : d.ks.prepared = none) (hq : d.ks.queue = job :: rest) :
    sealProcess false o d = (o, match sealJudge o (deviceJob d) job.msg with
      | .inr key => sealPrepare job key (deviceJob d)
      | .inl st => finish job.page job.tag 0x0B01 st (wd (smSlot job.msg % 8192))
        { deviceJob d with ks := { (deviceJob d).ks with queue := rest } }) := by
  unfold sealProcess
  rw [if_neg (by simp [hp]), if_neg (by decide)]
  unfold sealTake
  rw [hq] <;> rfl

/-- The page whose slot a journal record changes. -/
def journalOwner (j : Journal) (d : Dev) : Nat :=
  match j.put with
  | some x => x.owner
  | none => match slotRec d j.slot with | some x => x.owner | none => j.page

theorem sealProcess_of_prepared {whole : Bool} {j : Journal} (hp : d.ks.prepared = some job) (hj : d.ks.journal = some j) :
    sealProcess whole o d = (burnTo j.ctr o, finish job.page job.tag 0x0B01 stOk (wd j.slot)
      (slotEvent (if j.put.isSome then 1 else 2) (journalOwner j d) j.slot j.ctr (journalCommit (burnTo j.ctr o) j d))) := by
  unfold sealProcess
  rw [if_pos (by simp [hp])]
  unfold sealCommit
  rw [hp, hj]
  rfl

end

/-! Provisioning: its OTP writes are done. -/

theorem putSlot_flash {n : Nat} (hn : n < 256) (x : Slot) (d : Dev) : (putSlot n x d).ks.flash = tset d.ks.flash n x := by
  unfold putSlot
  rw [if_pos hn]

theorem putSlot_both (x y : Slot) (d : Dev) : tget (putSlot 1 x (putSlot 0 y d)).ks.flash 0 = some y
    ∧ tget (putSlot 1 x (putSlot 0 y d)).ks.flash 1 = some x := by
  rw [putSlot_flash (by decide), putSlot_flash (by decide)]
  exact ⟨(tget_tset_other _ (by decide) _).trans (tget_tset_same _ _ _), tget_tset_same _ _ _⟩

/-- The key store that provisioning leaves behind its events. -/
theorem provDone_of_message {o : Otp} {d : Dev} {job : SealJob} (hp : d.ks.provision = some job) (hl : o.life = .blank) :
    (provDone o d).1 = { o with
      life := .provisioned
      ownerHash := sha384 (slice job.msg 40 2592 ++ slice job.msg 2632 97) }
    ∧ (∃ a b, tget (provDone o d).2.ks.flash 0 = some a ∧ a.typ = 0x19 ∧ a.owner = 0
      ∧ tget (provDone o d).2.ks.flash 1 = some b ∧ b.typ = 0x18 ∧ b.owner = 0)
    ∧ (provDone o d).2.ks.provision = none ∧ (provDone o d).2.ks.slotCtr = [] ∧ (provDone o d).2.ks.pageCtr = [] := by
  unfold provDone
  rw [hp]
  dsimp only
  rw [if_neg (by simp [hl])]
  dsimp only
  rw [finish_ks, lifeEvent, emitAll_ks]
  have hf := putSlot_both (newSlot 0x18 0 0xF30B 4 (slice job.msg 2632 97) (newSlot 0x19 0 0xF30B 4 (slice job.msg 40 2592) d).2).1
    (newSlot 0x19 0 0xF30B 4 (slice job.msg 40 2592) d).1
    (keyBytes 32 (newSlot 0x18 0 0xF30B 4 (slice job.msg 2632 97) (newSlot 0x19 0 0xF30B 4 (slice job.msg 40 2592) d).2).2).2
  exact ⟨rfl, ⟨_, _, hf.1, rfl, rfl, hf.2, rfl, rfl⟩, rfl, rfl, rfl⟩

/-- Settles O46: the commands row by row, KS_PROVISION by the verdict on its message, then what happens to a sealed message
and to the OTP writes of provisioning. -/
theorem keyStoreActs : Obligations.KeyStoreActs := by
  unfold Obligations.KeyStoreActs
  refine ⟨⟨?identity, ?submit, ?info, ?counter, ?derive, ?free, ?attest, ?provision, ?credential⟩, ?taken, ?committed, ?written⟩
  case identity | attest =>
    intro r s h
    exact served_by rfl h rfl (fun _ => rfl) (by decide) (fun _ => rfl)
  case submit => exact starts_intro (fun _ _ => rfl) (fun _ _ _ => rfl) (fun _ _ _ => rfl)
  case info | counter => exact answers_intro (fun _ _ => rfl) (fun _ _ _ => rfl) (fun _ _ _ => rfl)
  case derive | free | credential => exact sets_intro (fun _ _ => rfl) (fun _ _ _ => rfl) (fun _ _ _ => rfl)
  case provision =>
    intro r s h hn
    change execKsProvision r s = _
    cases hj : provJudge (r.buf.take (bufLen r 0)) with
    | inl st => exact ksProvision_of_failed h hn hj
    | inr a => exact ksProvision_of_message h hn hj
  case taken =>
    intro job rest s hp hq
    change runOtp (sealProcess false) s = _
    rw [runOtp_next, sealProcess_of_queued hp hq]
    rfl
  case committed =>
    intro whole job j s hp hj
    change runOtp (sealProcess whole) s = _
    rw [runOtp_next, sealProcess_of_prepared hp hj]
    rfl
  case written =>
    intro job s hp hl
    obtain ⟨ho, hf, hn, hs, hg⟩ := provDone_of_message hp hl
    exact ⟨_, runOtp_next provDone s, ho, hf, hn, hs, hg, rfl, rfl⟩

end Sys2Proof.Machine
end

section
/-! The public-key engine (R526, R530, R531, R534 to R538). -/
namespace Sys2Proof.Machine

section
variable {o : Otp} {d : Dev} {j : PkeJob}

theorem pkeNext_of_waiting {rest : List PkeJob} (hw : d.pke.waiting = j :: rest) (hp : d.pke.powered = true)
    (hr : d.pke.running = none) : pkeNext o d = jobStart j o d := by
  unfold pkeNext
  rw [hw]
  exact if_pos (by simp [hp, hr])

theorem pkePowerDown_of_idle (hp : d.pke.powered = true) (hr : d.pke.running = none) (hw : d.pke.waiting = [])
    (hi : 100 ≤ d.pke.idle) :
    pkePowerDown o d = { d with pke := { d.pke with powered := false, regs := [], idle := 0 } } := by
  unfold pkePowerDown
  exact if_pos (by simp [hp, hr, hw, hi])

/-! PKE_ABORT names the running job, or a waiting one. -/

section
variable {r : NcsReq}

theorem pkeAbort_of_running (hr : d.pke.running = some j) (hp : j.page = r.page) (ht : j.tag = rf r 0 7 0) :
    pkeAbort r d = jobEnd j 0x8C00 0xF (pkeScrub d) := by
  unfold pkeAbort
  dsimp only
  rw [hr]
  exact if_pos (by simp [isJob, hp, ht])

/-- What PKE_ABORT does with a waiting job. -/
def abortWaiting (r : NcsReq) (d : Dev) : Dev :=
  finish r.page (rf r 0 7 0) 0x0C00 0x8C00 0xF { d with pke := { d.pke with
    waiting := d.pke.waiting.filter (fun j => !(j.page == r.page && j.tag == rf r 0 7 0)) } }

theorem pkeAbort_of_waiting (h : ∀ j, d.pke.running = some j → j.page ≠ r.page ∨ j.tag ≠ rf r 0 7 0) :
    pkeAbort r d = abortWaiting r d := by
  unfold pkeAbort
  dsimp only
  split
  · next j hj =>
    refine if_neg ?_
    obtain hp | ht := h j hj
    · simp [isJob, hp]
    · simp [isJob, ht]
  · rfl

end

/-! A running job ends. -/

/-- Attempts that a job reports: ML-DSA signing has at least one. -/
def jobTries (n : Nat) (j : PkeJob) : Nat := if jobOp j = 0x39 then max 1 (n % 2 ^ 16) else 0

theorem jobTries_of_other {n : Nat} (h : jobOp j ≠ 0x39) : jobTries n j = 0 := if_neg h

section
variable {good : Bool} {n dt : Nat} (hj : (passTime dt d).pke.running = some j)
include hj

theorem jobDone_of_busError : jobDone false good n dt o d = jobEnd j 0x8C01 0xF (pkeScrub (passTime dt d)) := by
  unfold jobDone
  dsimp only
  rw [hj]
  exact if_pos rfl

theorem jobDone_early (ht : rawNow (passTime dt d) < j.startAt + jobTime j (jobTries n j)) :
    jobDone true good n dt o d = passTime dt d := by
  unfold jobDone
  dsimp only
  rw [hj]
  exact (if_neg (by decide)).trans (if_pos ht)

variable (ht : j.startAt + jobTime j (jobTries n j) ≤ rawNow (passTime dt d))
include ht

theorem jobDone_of_failed {st i : Nat} (hf : j.fail = some (st, i)) : jobDone true good n dt o d =
    jobEnd j st (wd i) { passTime dt d with pke := { (passTime dt d).pke with
      rejects := satInc 32 (passTime dt d).pke.rejects } } := by
  unfold jobDone
  dsimp only
  rw [hj]
  refine (if_neg (by decide)).trans ((if_neg (Nat.not_lt.mpr ht)).trans ?_)
  rw [hf]

/-- A job whose inputs passed: its end by the kind of its operation. -/
theorem jobDone_of_passed (hf : j.fail = none) : jobDone true good n dt o d =
    (let d := passTime dt d
     let w3 := wd (jobTries n j * 2 ^ 16 + 0xF)
     let x := keyBytes 64 d
     let count := fun (d : Dev) => { d with pke := { d.pke with completed := satInc 32 d.pke.completed } }
     if pkeVerifies (jobOp j) then
       jobEnd j (if Config.pkeVerdict (jobOp j) (jobSet j) j.ins then stOk else stAuthFail) w3 (count d)
     else if pkeSigns (jobOp j) && !good then
       emit 0 0x0C80 (wd (jobOp j * 2 ^ 24 + jobSet j * 2 ^ 16 + j.page)) 0
         (jobEnd j stAuthFail w3 { x.2 with pke := { x.2.pke with faults := satInc 32 x.2.pke.faults } })
     else if (jobOp j = 0x20 || jobOp j = 0x21) && (jobResult j x.1).2.all (· == 0#8) then
       jobEnd j stPointInvalid w3 (count x.2)
     else jobDeliver j w3 (jobResult j x.1) x.2) := by
  unfold jobDone
  dsimp only
  rw [hj]
  refine (if_neg (by decide)).trans ((if_neg (Nat.not_lt.mpr ht)).trans ?_)
  rw [hf]
  rfl

theorem jobDone_of_verdict (hf : j.fail = none) (hv : jobOp j = 0x10 ∨ jobOp j = 0x22 ∨ jobOp j = 0x38) :
    jobDone true good n dt o d =
      jobEnd j (if Config.pkeVerdict (jobOp j) (jobSet j) j.ins then stOk else stAuthFail) 0xF
        { passTime dt d with pke := { (passTime dt d).pke with completed := satInc 32 (passTime dt d).pke.completed } } := by
  have h39 : jobOp j ≠ 0x39 := by omega
  have hver : pkeVerifies (jobOp j) = true := by
    unfold pkeVerifies
    obtain h | h | h := hv <;> rw [h] <;> decide
  refine (jobDone_of_passed hj ht hf).trans ?_
  dsimp only
  rw [if_pos hver, jobTries_of_other h39]
  rfl

theorem jobDone_of_badRelease (hg : good = false) (hf : j.fail = none) (hs : pkeSigns (jobOp j) = true) :
    jobDone true good n dt o d =
      (let x := keyBytes 64 (passTime dt d)
       emit 0 0x0C80 (wd (jobOp j * 2 ^ 24 + jobSet j * 2 ^ 16 + j.page)) 0
        (jobEnd j stAuthFail (wd (jobTries n j * 2 ^ 16 + 0xF))
          { x.2 with pke := { x.2.pke with faults := satInc 32 x.2.pke.faults } })) := by
  have hver : ¬ pkeVerifies (jobOp j) = true := by
    simp only [pkeSigns, pkeVerifies, Bool.or_eq_true, beq_iff_eq] at hs ⊢
    omega
  refine (jobDone_of_passed hj ht hf).trans ?_
  dsimp only
  rw [if_neg hver, if_pos (by simp [hs, hg])]

theorem jobDone_of_result (hf : j.fail = none) (hv : pkeVerifies (jobOp j) = false)
    (hs : pkeSigns (jobOp j) = false ∨ good = true) : jobDone true good n dt o d =
      (let x := keyBytes 64 (passTime dt d)
       let w3 := wd (jobTries n j * 2 ^ 16 + 0xF)
       if (jobOp j = 0x20 ∨ jobOp j = 0x21) ∧ (jobResult j x.1).2.all (· == 0#8) = true then
         jobEnd j stPointInvalid w3 { x.2 with pke := { x.2.pke with completed := satInc 32 x.2.pke.completed } }
       else jobDeliver j w3 (jobResult j x.1) x.2) := by
  refine (jobDone_of_passed hj ht hf).trans ?_
  dsimp only
  rw [if_neg (by simp [hv]), if_neg (by obtain h | h := hs <;> simp [h])]
  simp only [Bool.and_eq_true, Bool.or_eq_true, decide_eq_true_eq]

theorem jobDone_of_product (hf : j.fail = none) (h1 : jobOp j = 0x01) : jobDone true good n dt o d =
    jobDeliver j 0xF
      (beBytes (8 * jobN j) (beNat (j.ins.getD 1 []) * beNat (j.ins.getD 2 []) % beNat (j.ins.getD 0 [])), [])
      (keyBytes 64 (passTime dt d)).2 := by
  have hres : ∀ x, jobResult j x =
      (beBytes (8 * jobN j) (beNat (j.ins.getD 1 []) * beNat (j.ins.getD 2 []) % beNat (j.ins.getD 0 [])), []) := by
    intro x
    unfold jobResult
    rw [h1]
    rfl
  have h39 : jobOp j ≠ 0x39 := by omega
  refine (jobDone_of_result hj ht hf (by rw [h1]; decide) (Or.inl (by rw [h1]; decide))).trans ?_
  dsimp only
  rw [if_neg (by omega), hres, jobTries_of_other h39]
  rfl

end

end

/-- Settles O47: the commands, and the running job by what its inputs and its operation are. The owner field of
PKE_STATUS while nobody owns the memory is log entry 48. -/
theorem publicKeyEngineActs : Obligations.PublicKeyEngineActs := by
  unfold Obligations.PublicKeyEngineActs
  refine ⟨?run, ?start, ?done, ?abort, ?abortWaiting, ?status, ?wipe, ?down⟩
  case run => exact starts_intro (fun _ _ => rfl) (fun _ _ _ => rfl) (fun _ _ _ => rfl)
  case start =>
    intro j rest s hw hp hr
    exact run_eq_next_put (f := pkeNext) (pkeNext_of_waiting hw hp hr)
  case done =>
    intro good n dt j s d hj tries w3 done x
    refine ⟨run_eq_next_put (f := jobDone false good n dt) (jobDone_of_busError hj),
      fun ht => run_eq_next_put (f := jobDone true good n dt) (jobDone_early hj ht),
      fun ht => ⟨fun st i hf => ?_, fun hf hv => ?_, fun hf hs => ?_, fun hf hv hs => ?_, fun hf h1 => ?_⟩⟩
    · exact run_eq_next_put (f := jobDone true good n dt) (jobDone_of_failed hj ht hf)
    · exact run_eq_next_put (f := jobDone true good n dt) (jobDone_of_verdict hj ht hf hv)
    · exact run_eq_next_put (f := jobDone true false n dt) (jobDone_of_badRelease hj ht rfl hf hs)
    · exact run_eq_next_put (f := jobDone true good n dt) (jobDone_of_result hj ht hf hv hs)
    · exact run_eq_next_put (f := jobDone true good n dt) (jobDone_of_product hj ht hf h1)
  case abort =>
    intro r j s h hr hp ht
    exact served_at (e := fun d => jobEnd j 0x8C00 0xF (pkeScrub d)) rfl h rfl
      (congrArg (fun e => (e, stOk, ([] : List Word))) (pkeAbort_of_running (by rw [submitted_pke]; exact hr) hp ht))
      (by decide) (fun _ => rfl)
  case abortWaiting =>
    intro r s h hn
    exact served_at (e := abortWaiting r) rfl h rfl
      (congrArg (fun e => (e, stOk, ([] : List Word))) (pkeAbort_of_waiting (by rw [submitted_pke]; exact hn)))
      (by decide) (fun _ => rfl)
  case status => exact answers_intro (fun _ _ => rfl) (fun _ _ _ => rfl) (fun _ _ _ => rfl)
  case wipe => exact sets_intro (fun _ _ => rfl) (fun _ _ _ => rfl) (fun _ _ _ => rfl)
  case down =>
    intro s hp hr hw hi
    exact run_eq_next_put (f := pkePowerDown) (pkePowerDown_of_idle hp hr hw hi)

end Sys2Proof.Machine
end

section
/-! Tamper sources, their second decisions, and the verdict of an unlock (R542, R545 to R553). -/
namespace Sys2Proof.Machine

theorem logEntry_sys (kind resp sources detectors : Nat) (d : Dev) : (logEntry kind resp sources detectors d).sys = d.sys := by
  unfold logEntry
  dsimp only
  split
  · exact emit_sys ..
  · rfl

/-! Firing. -/

section
variable {o : Otp} {d : Dev} {i n : Nat}

theorem fire_of_deaf {selfTest : Bool} (h : canFire o d i = false) : fire i n selfTest o d = d := by
  unfold fire
  exact if_pos (by simp [h])

/-- The device when a condition has come true: the nonce is withdrawn, a pending unlock will fail. -/
def firing (i : Nat) (d : Dev) : Dev :=
  let withdraw := fun (u : Unlock) => { u with fired := true }
  { d with tamp := { d.tamp with
    active := d.tamp.active ||| BitVec.ofNat 12 (2 ^ i), nonce := none, unlock := d.tamp.unlock.map withdraw } }

section
variable (h : canFire o d i = true)
include h

theorem fire_logged (hr : responseOf o d i = 1) : fire i n false o d = logEntry 1 1 (2 ^ i) n
    (withHw (fun d => { d with tamp := { d.tamp with
      sticky := d.tamp.sticky ||| BitVec.ofNat 12 (2 ^ i), fired := d.tamp.fired ||| BitVec.ofNat 12 (2 ^ i) } })
      (firing i d)) := by
  unfold fire
  exact (if_neg (by simp [h])).trans (if_pos hr)

theorem fire_pending (hr : responseOf o d i ≠ 1) : fire i n false o d =
    (let asleep := (firing i d).sys.phase == .dormant || (firing i d).sys.phase == .sleeping
     let x := secondDelay asleep (firing i d)
     { x.2 with tamp := { x.2.tamp with
       decisions := x.2.tamp.decisions ++ [⟨i, n, responseOf o d i, false, asleep, rawNow (firing i d) + x.1⟩] } }) := by
  unfold fire
  exact (if_neg (by simp [h])).trans (if_neg hr)

end

end

/-! The second decision on a source. -/

section
variable {o : Otp} {ram : List Host.Cell} {d : Dev} {i second : Nat}

/-- The device once the second decision on a source has set the source's flag. -/
def flagged (i second : Nat) (x : Decision) (d : Dev) : Dev :=
  withHw (fun d => { d with tamp := { d.tamp with
    decisions := d.tamp.decisions.erase x
    sticky := d.tamp.sticky ||| BitVec.ofNat 12 (2 ^ i)
    fired := d.tamp.fired ||| BitVec.ofNat 12 (2 ^ i)
    disagree := d.tamp.disagree || decide (second ≠ x.response) } }) d

theorem flagged_sys (i second : Nat) (x : Decision) (d : Dev) : (flagged i second x d).sys = d.sys :=
  withHw_keeps (g := Dev.sys) d rfl (fun e => raise_sys ..)

theorem canLock_of_sys {e : Dev} (h : e.sys = d.sys) : canLock e = canLock d := by
  unfold canLock
  rw [h]

/-- What a locking response leaves on a device that LOCKED can follow. -/
theorem lockAct_of_canLock (resp cause : Nat) (data : Word) (sources : Nat) (asleep : Bool) (h : canLock d = true) :
    lockAct resp cause data sources asleep o d =
      ((lockEntry cause data o (setLock true d)).1, eraseIf resp (lockEntry cause data o (setLock true d)).2) := by
  unfold lockAct
  exact if_pos h

section
variable {x : Decision} (hx : d.tamp.decisions.find? (fun x => x.source == i && decide (x.due ≤ rawNow d)) = some x)
  (hl : canLock d = true)
include hx hl

theorem secondOnSource_agreed (h : second = x.response) : secondOnSource i second o d =
    (let t := lockEntry 0x20 (wd (2 ^ i)) o
       (setLock true (logEntry (if x.selfTest then 4 else 1) x.response (2 ^ i) x.detectors (flagged i second x d)))
     (t.1, eraseIf x.response t.2)) := by
  have hb : (second == x.response) = true := by simp [h]
  have hn : (!(second == x.response)) = decide (second ≠ x.response) := by simp [h]
  unfold secondOnSource
  rw [hx]
  dsimp only
  rw [hn]
  simp only [hb, if_true]
  exact lockAct_of_canLock _ _ _ _ _ ((canLock_of_sys ((logEntry_sys ..).trans (flagged_sys ..))).trans hl)

theorem secondOnSource_differs (h : second ≠ x.response) : secondOnSource i second o d =
    (let resp := if x.response = 3 ∨ second = 3 then 3 else 2
     let t := lockEntry 0x21 (wd i) o (setLock true (logEntry 2 resp (2 ^ i) x.detectors (flagged i second x d)))
     (t.1, eraseIf resp t.2)) := by
  have hb : (second == x.response) = false := by simp [h]
  have hn : (!(second == x.response)) = decide (second ≠ x.response) := by simp [h]
  unfold secondOnSource
  rw [hx]
  dsimp only
  rw [hn]
  simp only [hb, Bool.false_eq_true, if_false, Bool.or_eq_true, decide_eq_true_eq]
  exact lockAct_of_canLock _ _ _ _ _ ((canLock_of_sys ((logEntry_sys ..).trans (flagged_sys ..))).trans hl)

end

theorem secondOnSource_early (h : ∀ x ∈ d.tamp.decisions, x.source = i → rawNow d < x.due) :
    secondOnSource i second o d = (o, d) := by
  have hn : d.tamp.decisions.find? (fun x => x.source == i && decide (x.due ≤ rawNow d)) = none := by
    rw [List.find?_eq_none]
    intro x hx
    by_cases hs : x.source = i
    · simp [hs, Nat.not_le.mpr (h x hx hs)]
    · simp [hs]
  unfold secondOnSource
  rw [hn]

variable {a b : Bool} {dt : Nat}

/-- The second decision on a source of a device that is not in DORMANT leaves the windows alone. -/
theorem secondDecision_of_source (hi : i < 12) (ram : List Host.Cell) (h : ((passTime dt d).sys.phase == .dormant) = false) :
    secondDecision i second a b dt o ram d =
      ((secondOnSource i second o (passTime dt d)).1, ram, (secondOnSource i second o (passTime dt d)).2) := by
  unfold secondDecision
  dsimp only
  rw [if_neg (by omega), h]
  simp only [Bool.false_and, Bool.false_eq_true, if_false]

theorem not_dormant_of_canLock (h : canLock d = true) : (d.sys.phase == .dormant) = false := by
  simp only [canLock, Bool.and_eq_true, beq_iff_eq] at h
  rw [h.1]
  rfl

theorem secondDecision_early (hi : i < 12) (ram : List Host.Cell)
    (h : ∀ x ∈ (passTime dt d).tamp.decisions, x.source = i → rawNow (passTime dt d) < x.due) :
    secondDecision i second a b dt o ram d = (o, ram, passTime dt d) := by
  unfold secondDecision
  dsimp only
  rw [if_neg (by omega), secondOnSource_early h]
  have hd : ((passTime dt d).sys.phase == .dormant && (passTime dt d).sys.phase == .starting) = false := by
    cases (passTime dt d).sys.phase <;> rfl
  rw [hd]
  rfl

/-! The verdict of an unlock. -/

section
variable {u : Unlock} (hu : d.tamp.unlock = some u) (hs : d.sb.up = true) (hm : d.sys.mode = .locked)
include hu hs hm

theorem secondOnUnlock_early (h : rawNow d < u.due) : secondOnUnlock second a b o ram d = (o, ram, d) := by
  unfold secondOnUnlock
  rw [hu]
  exact if_pos (by simp [h])

variable (ht : u.due ≤ rawNow d)
include ht

theorem secondOnUnlock_due : secondOnUnlock second a b o ram d =
    if u.fired then (o, ram, unlockFinish u stFlagsChanged 0 d)
    else if u.verdict ≠ stOk then (o, ram, unlockFinish u u.verdict 0 d)
    else if second = 1 then unlockPass u a b o ram d
    else (o, ram, unlockDisagree u d) := by
  unfold secondOnUnlock
  rw [hu]
  exact if_neg (by simp [hs, hm, ht])

theorem secondOnUnlock_fired (hf : u.fired = true) :
    secondOnUnlock second a b o ram d = (o, ram, unlockFinish u 0x8D01 0 d) :=
  (secondOnUnlock_due hu hs hm ht).trans (if_pos hf)

variable (hf : u.fired = false)
include hf

theorem secondOnUnlock_unsigned (hv : u.verdict ≠ stOk) :
    secondOnUnlock second a b o ram d = (o, ram, unlockFinish u u.verdict 0 d) :=
  (secondOnUnlock_due hu hs hm ht).trans ((if_neg (by simp [hf])).trans (if_pos hv))

variable (hv : u.verdict = stOk)
include hv

theorem secondOnUnlock_differs (h : second ≠ 1) :
    secondOnUnlock second a b o ram d = (o, ram, unlockDisagree u d) :=
  (secondOnUnlock_due hu hs hm ht).trans
    ((if_neg (by simp [hf])).trans ((if_neg (not_not_intro hv)).trans (if_neg h)))

theorem secondOnUnlock_passes (h : second = 1) :
    secondOnUnlock second a b o ram d = unlockPass u a b o ram d :=
  (secondOnUnlock_due hu hs hm ht).trans
    ((if_neg (by simp [hf])).trans ((if_neg (not_not_intro hv)).trans (if_pos h)))

end

theorem unlockPass_of_halt {u : Unlock} (h : d.sys.haltCause ≠ 0) : unlockPass u a b o ram d =
    (o, ram, goHalted d.sys.haltCause { unlockClear d with tamp := { (unlockClear d).tamp with unlock := none } }) := by
  have hc : (unlockClear d).sys = d.sys := logEntry_sys ..
  unfold unlockPass
  rw [if_pos h]
  dsimp only
  rw [hc]

theorem unlockPass_of_sound {u : Unlock} (h : d.sys.haltCause = 0) : unlockPass u a b o ram d =
    (let k := ksRecover a b o (unlockClear d)
     let e := if d.tamp.erased then granaryInit k.1 k.2 else k.2
     let e := recoveryEvents k.1 (changeMode .staging 0x22 0 0 e)
     (k.1, if d.tamp.erased then [] else ram, finish u.page u.tag 0x0D03 stOk (wd d.tamp.sticky.toNat)
       { e with tamp := { e.tamp with unlock := none } })) := by
  unfold unlockPass
  rw [if_neg (not_not_intro h)]
  unfold unlockLeave unlockFinish
  rfl

/-- The second decision on an unlock, once the cycles before it have passed. -/
theorem secondDecision_of_unlock : secondDecision 0x21 second a b dt o ram d = secondOnUnlock second a b o ram (passTime dt d) := by
  unfold secondDecision
  exact if_pos rfl

end

/-- A TAMPER_SECOND_DECISION whose effect is known. -/
theorem tamperSecondDecision_next {what second dt : Nat} {a b : Bool} {s : State} {o : Otp} {ram : List Host.Cell} {d : Dev}
    (h : secondDecision what second a b dt s.otp s.ram s.dev = (o, ram, d)) :
    exec (.tamperSecondDecision what ⟨second, dt⟩ a b) s = .next { s with otp := o, ram := ram, dev := d } := by
  change runAll (secondDecision what second a b dt) s = _
  rw [runAll_next, h]

/-- Settles O50: a source that fires by its response, its second decision by whether it agrees, and the second decision on an
unlock by its verdict. The flag and the entry under disagreement, and the unlock whose decisions differ, are log entry 49. -/
theorem tamperHappeningsAct : Obligations.TamperHappeningsAct := by
  unfold Obligations.TamperHappeningsAct
  refine ⟨⟨?deaf, ?fires, fun failed s => rfl, ?second, ?early, fun i s => rfl, ?copy, fun s => rfl⟩, ?unlock⟩
  case deaf =>
    intro i a b s h
    refine run_eq_next_put (f := fun o d => if a || b then fire i (detectorBits i a b) false o d else d) (d := s.dev) ?_
    obtain h | ⟨rfl, rfl⟩ := h
    · rw [fire_of_deaf h, ite_self]
    · rfl
  case fires =>
    intro i a b s h hab m n f d
    have hab' : (a || b) = true := by simpa using hab
    exact ⟨fun hr => run_eq_next_put (f := fun o d => if a || b then fire i (detectorBits i a b) false o d else d)
        ((if_pos hab').trans (fire_logged h hr)),
      fun hr => run_eq_next_put (f := fun o d => if a || b then fire i (detectorBits i a b) false o d else d)
        ((if_pos hab').trans (fire_pending h hr))⟩
  case second =>
    intro i second dt a b x s hi hl d0 hx m d
    have hsrc := secondDecision_of_source (second := second) (a := a) (b := b) (o := s.otp) hi s.ram
      (not_dormant_of_canLock hl)
    refine ⟨fun h => ?_, fun h => ?_⟩
    · rw [secondOnSource_agreed hx hl h, show flagged i second x (passTime dt s.dev) = d from rfl] at hsrc
      generalize lockEntry 0x20 (wd (2 ^ i)) s.otp
        (setLock true (logEntry (if x.selfTest then 4 else 1) x.response (2 ^ i) x.detectors d)) = t at hsrc ⊢
      exact tamperSecondDecision_next hsrc
    · rw [secondOnSource_differs hx hl h, show flagged i second x (passTime dt s.dev) = d from rfl] at hsrc
      dsimp only at hsrc ⊢
      generalize lockEntry 0x21 (wd i) s.otp
        (setLock true (logEntry 2 (if x.response = 3 ∨ second = 3 then 3 else 2) (2 ^ i) x.detectors d)) = t at hsrc ⊢
      exact tamperSecondDecision_next hsrc
  case early =>
    intro i second dt a b s hi h
    exact tamperSecondDecision_next (secondDecision_early hi s.ram h)
  case copy =>
    intro s hp hu ha hn
    exact run_eq_next_put (f := logCopy) (if_pos (by simp [hp, hu, ha, hn]))
  case unlock =>
    intro second dt a b u s d hu hs hm stop clear
    refine ⟨fun ht => ?_, fun ht hf => ?_, fun ht hf hv => ?_, fun ht hf hv h => ?_, fun ht hf hv h hc => ?_,
      fun ht hf hv h hc => ?_⟩
    · exact tamperSecondDecision_next (secondDecision_of_unlock.trans (secondOnUnlock_early hu hs hm ht))
    · exact tamperSecondDecision_next (secondDecision_of_unlock.trans (secondOnUnlock_fired hu hs hm ht hf))
    · exact tamperSecondDecision_next (secondDecision_of_unlock.trans (secondOnUnlock_unsigned hu hs hm ht hf hv))
    · exact tamperSecondDecision_next (secondDecision_of_unlock.trans (secondOnUnlock_differs hu hs hm ht hf hv h))
    · exact tamperSecondDecision_next
        (secondDecision_of_unlock.trans ((secondOnUnlock_passes hu hs hm ht hf hv h).trans (unlockPass_of_halt hc)))
    · have hpass := secondDecision_of_unlock.trans ((secondOnUnlock_passes hu hs hm ht hf hv h).trans
        (unlockPass_of_sound (a := a) (b := b) (o := s.otp) (ram := s.ram) (u := u) hc))
      rw [show unlockClear d = clear from rfl] at hpass
      dsimp only at hpass ⊢
      generalize ksRecover a b s.otp clear = k at hpass ⊢
      generalize recoveryEvents k.1 (changeMode .staging 0x22 0 0 (if d.tamp.erased then granaryInit k.1 k.2 else k.2)) = e
        at hpass ⊢
      exact tamperSecondDecision_next hpass

end Sys2Proof.Machine
end

section
/-! Firmware commands and the states of an update (R569 to R576, R579). -/
namespace Sys2Proof.Machine

/-! Commands. -/

/-- The checks of R570 in their order. -/
theorem imageJudge_eq (o : Otp) (m : Bytes) : imageJudge o m =
    if manifestOk o m = false then 0x8E02
    else if signerAccepted o (imageOf m).signer = false then 0x8E00
    else if imageSigned m = false then stAuthFail
    else if blocksOk m = false then 0x8E02
    else if (imageOf m).sec < o.floor then 0x8E01
    else stOk := by
  unfold imageJudge
  simp only [Bool.not_eq_true']
  rfl

/-- What an accepted FW_UPDATE does. -/
def updateTaken (o : Otp) (r : NcsReq) (d : Dev) : Dev :=
  let m := r.buf.take (bufLen r 0)
  let d := deviceJob (countLines 1 ((m.length + 63) / 64) d)
  maintStart 0 { d with fw := { d.fw with update := some ⟨r.page, r.tag, imageOf m,
    if manifestOk o m = false then 0x8E02
    else if signerAccepted o (imageOf m).signer = false then 0x8E00
    else if imageSigned m = false then stAuthFail
    else if blocksOk m = false then 0x8E02
    else if (imageOf m).sec < o.floor then 0x8E01
    else stOk, bit (rw r 3) 31, if rf r 3 9 0 = 0 then 120 else rf r 3 9 0⟩ } }

theorem fwUpdate_eq (o : Otp) (r : NcsReq) (d : Dev) : fwUpdate o r d = updateTaken o r d := by
  unfold fwUpdate updateTaken
  dsimp only
  rw [imageJudge_eq]
  rfl

theorem fwConfirm_of_healthy {o : Otp} {d : Dev} {r : NcsReq} (h : healthy o d = true) :
    cmdFwConfirm.act o d r = (fwState 5 1 d, stOk, []) := if_pos h

theorem fwConfirm_of_unhealthy {o : Otp} {d : Dev} {r : NcsReq} (h : ¬ healthy o d = true) :
    cmdFwConfirm.act o d r = (d, 0x8E04, []) := if_neg h

/-! The states of an update. -/

section
variable {o : Otp} {d : Dev} {u : Update}

theorem fwFinish_of_update (st : Nat) (w3 : Word) (h : d.fw.update = some u) :
    fwFinish st w3 d = finish u.page u.tag 0x0E01 st w3 { d with fw := { d.fw with update := none } } := by
  unfold fwFinish
  rw [h]

theorem fwStaged_of_checking (hu : d.fw.update = some u) (hw : fwWorks d = true) (hs : d.sb.up = true) (h0 : d.fw.state = 0) :
    fwStaged o d = if u.verdict = stOk then fwState 2 0 (fwState 1 0 d)
      else maintEnd 0 (finish u.page u.tag 0x0E01 u.verdict 0 { d with fw := { d.fw with update := none } }) := by
  unfold fwStaged
  rw [hu]
  dsimp only
  rw [if_neg (by simp [hw, hs, h0]), fwFinish_of_update _ _ hu]

theorem dropStaleRecall_image (i : Image) (d : Dev) : (dropStaleRecall i d).fw.image = d.fw.image := by
  unfold dropStaleRecall
  split <;> rfl

theorem flashDone_iff (d : Dev) (n : Nat) : flashDone d n = true ↔ n ≤ (d.sys.ticks - d.fw.stateAt) * 2000 := decide_eq_true_iff

section
variable (hw : fwWorks d = true)
include hw

theorem recallWritten_of_failed (h2 : d.fw.state = 2) : recallWritten false o d = fwAbandon 0x8E03 d := by
  unfold recallWritten
  rw [if_neg (by simp [hw, h2])]
  rfl

theorem recallWritten_of_written (h2 : d.fw.state = 2) : recallWritten true o d =
    if d.fw.image.len ≤ (d.sys.ticks - d.fw.stateAt) * 2000 then
      fwState 3 0 { d with fw := { d.fw with recallImg := d.fw.image, recallValid := true, whole := false } }
    else d := by
  unfold recallWritten
  split
  · next h =>
    rw [if_neg]
    rw [← flashDone_iff]
    simpa [hw, h2] using h
  · next h =>
    rw [if_pos rfl, if_pos]
    rw [← flashDone_iff]
    simpa [hw, h2] using h

section
variable (hu : d.fw.update = some u) (h3 : d.fw.state = 3) {starts : Bool}
include hu h3

theorem imageWritten_of_failed : imageWritten false starts o d = fwFinish 0x8E03 0 (fwState 6 5 d) := by
  unfold imageWritten
  rw [hu]
  dsimp only
  rw [if_neg (by simp [hw, h3])]
  rfl

theorem imageWritten_early (ht : (d.sys.ticks - d.fw.stateAt) * 2000 < u.image.len) : imageWritten true starts o d = d := by
  unfold imageWritten
  rw [hu]
  dsimp only
  rw [if_pos]
  simp [hw, h3, flashDone, ht]

/-- The device once the new image is in its slot and the Signal box has stopped. -/
def imageInSlot (u : Update) (d : Dev) : Dev :=
  sbStop 3 (fwState 4 0 { d with fw := { d.fw with
    image := u.image, whole := true, left := u.secs * 1000, auto := u.auto, ran := 0 } })

theorem imageWritten_of_written (ht : u.image.len ≤ (d.sys.ticks - d.fw.stateAt) * 2000) : imageWritten true starts o d =
    if starts = true ∧ imageAccepted o u.image = true then
      fwFinish stOk u.image.version (runImage u.image (imageInSlot u d))
    else
      let x := draw 16 (fallBack 2 o (imageInSlot u d))
      fwFinish x.1.toNat 0 x.2 := by
  have hf : flashDone d u.image.len = true := decide_eq_true ht
  unfold imageWritten
  rw [hu]
  dsimp only
  rw [if_neg (by simp [hw, h3, hf]), if_neg (by decide)]
  simp only [Bool.and_eq_true]
  rfl

end

theorem probationExpiry_of_over (h4 : d.fw.state = 4) (hl : d.fw.left = 0) : probationExpiry o d = fallBack 2 o d := by
  unfold probationExpiry
  exact if_pos (by simp [hw, h4, hl])

section
variable (hs : d.sb.up = true)
include hs

theorem confirmDone_of_burned (h5 : d.fw.state = 5) : confirmDone o d =
    ({ o with
        floor := max o.floor (min 512 d.fw.image.floor)
        revoked := o.revoked ||| BitVec.ofNat 4 d.fw.image.revoke },
      maintEnd 0 (fwState 0 0 (dropStaleRecall d.fw.image
        { d with fw := { d.fw with confirmed := satInc 32 d.fw.confirmed, left := 0 } }))) := by
  unfold confirmDone
  rw [if_pos (by simp [hw, hs, h5])]
  dsimp only
  rw [dropStaleRecall_image]
  rfl

theorem restoreDone_of_restoring (h6 : d.fw.state = 6) : restoreDone o d =
    if d.fw.recallImg.len ≤ (d.sys.ticks - d.fw.stateAt) * 2000 then
      maintEnd 0 (fwState 0 6 { d with fw := { d.fw with image := d.fw.recallImg, whole := true, left := 0 } })
    else d := by
  unfold restoreDone
  simp only [hw, hs, h6, beq_self_eq_true, Bool.true_and, flashDone_iff]

end

end

theorem autoConfirm_eq (o : Otp) (d : Dev) : autoConfirm o d =
    if fwWorks d = true ∧ d.sb.up = true ∧ d.fw.state = 4 ∧ d.fw.auto = true ∧ 30000 ≤ d.fw.ran ∧ d.sys.mode ≠ .locked
      ∧ healthy o d = true then fwState 5 1 d else d := by
  unfold autoConfirm
  simp only [Bool.and_eq_true, beq_iff_eq, decide_eq_true_eq, Bool.not_eq_true', beq_eq_false_iff_ne, and_assoc]

end

/-- A happening that acts on a condition, else changes nothing. -/
theorem run_eq_next_ite {f : Otp → Dev → Dev} {s : State} {c : Prop} [Decidable c] {d : Dev}
    (h : f s.otp s.dev = if c then d else s.dev) : run f s = .next (if c then s.put d else s) := by
  rw [run_eq_next_put h]
  split <;> rfl

/-- Settles O52: the commands, and each state of an update with what ends it. The free status after a failed activation and
the bound of the health check are log entry 19; outcome 5 on a failed image write is log entry 17. -/
theorem firmwareActs : Obligations.FirmwareActs := by
  unfold Obligations.FirmwareActs
  refine ⟨⟨?status, ?update, ?confirm, ?revert⟩, ?staged, fun s hw h2 => ⟨?recallSlot, ?recallFails⟩,
    fun starts u s hu hw h3 => ⟨?imageFails, ?image, ?imageEarly⟩, ?auto, ?burned, ?probation, ?restored⟩
  case status => exact answers_intro (fun _ _ => rfl) (fun _ _ _ => rfl) (fun _ _ _ => rfl)
  case update =>
    exact starts_intro (e := fun o r d => updateTaken o r d) (fun _ _ => rfl)
      (fun o d r => congrArg (fun e => (e, stAccepted, ([] : List Word))) (fwUpdate_eq o r d)) (fun _ _ _ => rfl)
  case confirm =>
    intro r s h
    split
    · next hh => exact served_at (e := fwState 5 1) rfl h rfl (fwConfirm_of_healthy hh) (by decide) (fun _ => rfl)
    · next hh => exact served_at (e := id) rfl h rfl (fwConfirm_of_unhealthy hh) (by decide) (fun _ => rfl)
  case revert =>
    intro r s h
    exact (show exec (.fwRevert r) s = run (command cmdFwRevert r) s from rfl).trans (passes_answered h rfl (by decide))
  case staged =>
    intro u s hu hw hs h0
    exact run_eq_next_put (f := fwStaged) (fwStaged_of_checking hu hw hs h0)
  case recallSlot => exact run_eq_next_ite (f := recallWritten true) (recallWritten_of_written hw h2)
  case recallFails => exact run_eq_next_put (f := recallWritten false) (recallWritten_of_failed hw h2)
  case imageFails => exact run_eq_next_put (f := imageWritten false starts) (imageWritten_of_failed hw hu h3)
  case image =>
    intro ht
    exact run_eq_next_put (f := imageWritten true starts) (imageWritten_of_written hw hu h3 ht)
  case imageEarly =>
    intro ht
    exact run_eq_next_put (f := imageWritten true starts) (imageWritten_early hw hu h3 ht)
  case auto => exact fun s => run_eq_next_ite (f := autoConfirm) (autoConfirm_eq s.otp s.dev)
  case burned =>
    intro s hw hs h5
    change runOtp confirmDone s = _
    rw [runOtp_next, confirmDone_of_burned hw hs h5]
  case probation =>
    intro s hw h4 hl
    exact run_eq_next_put (f := probationExpiry) (probationExpiry_of_over hw h4 hl)
  case restored =>
    intro s hw hs h6
    exact run_eq_next_ite (f := restoreDone) (restoreDone_of_restoring hw hs h6)

end Sys2Proof.Machine
end

section
/-! Telemetry: commands, control writes, snapshots (R606, R610 to R613, R619, R621). -/
namespace Sys2Proof.Machine

/-! Writes that set a bit of a control word leave its other fields. -/

theorem bit_or (v w : Word) (i : Nat) : bit (v ||| w) i = (bit v i || bit w i) := BitVec.getLsbD_or

theorem fld_or_of_high {v w : Word} {hi lo : Nat} (h : ∀ i ≤ hi, w.getLsbD i = false) : fld (v ||| w) hi lo = fld v hi lo := by
  unfold fld
  rw [BitVec.toNat_or]
  apply Nat.eq_of_testBit_eq
  intro i
  rw [Nat.testBit_mod_two_pow, Nat.testBit_mod_two_pow, Nat.testBit_div_two_pow, Nat.testBit_div_two_pow, Nat.testBit_or]
  by_cases hi' : i < hi + 1 - lo
  · have hw : w.toNat.testBit (i + lo) = false := h (i + lo) (by omega)
    rw [hw, Bool.or_false]
  · simp [hi']

section
variable {o : Otp} {d : Dev} {v : Word} (hb : bar2Up d = true)
include hb

theorem pcfCtlWrite_of_up : pcfCtlWrite v o d =
    (let n := max 1 (fld v 15 0)
     { d with tel := { d.tel with
      snapEn := bit v 31, snapNow := d.tel.snapNow || bit v 30, gleanEn := bit v 29, gleanK := min 24 (max 8 (fld v 28 24))
      snapN := n, ticks := if (bit v 31 = true ∧ d.tel.snapEn = false) ∨ n ≠ d.tel.snapN then 0 else d.tel.ticks } }) := by
  unfold pcfCtlWrite
  rw [if_neg (by simp [hb])]
  simp only [Bool.or_eq_true, Bool.and_eq_true, Bool.not_eq_true', bne_iff_ne]

theorem pcfCtlWrite_snapNow : pcfCtlWrite (v ||| 0x40000000#32) o d =
    (let n := max 1 (fld v 15 0)
     { d with tel := { d.tel with
      snapEn := bit v 31, snapNow := true, gleanEn := bit v 29, gleanK := min 24 (max 8 (fld v 28 24)), snapN := n
      ticks := if (bit v 31 = true ∧ d.tel.snapEn = false) ∨ n ≠ d.tel.snapN then 0 else d.tel.ticks } }) := by
  rw [pcfCtlWrite_of_up hb, fld_or_of_high (by decide), fld_or_of_high (by decide), bit_or, bit_or, bit_or,
    show bit 0x40000000#32 31 = false by decide, show bit 0x40000000#32 30 = true by decide,
    show bit 0x40000000#32 29 = false by decide]
  simp only [Bool.or_false, Bool.or_true]

theorem pcfCtlWrite_snapEn : pcfCtlWrite (v ||| 0x80000000#32) o d =
    (let n := max 1 (fld v 15 0)
     { d with tel := { d.tel with
      snapEn := true, snapNow := d.tel.snapNow || bit v 30, gleanEn := bit v 29, gleanK := min 24 (max 8 (fld v 28 24))
      snapN := n, ticks := if d.tel.snapEn = false ∨ n ≠ d.tel.snapN then 0 else d.tel.ticks } }) := by
  rw [pcfCtlWrite_of_up hb, fld_or_of_high (by decide), fld_or_of_high (by decide), bit_or, bit_or, bit_or,
    show bit 0x80000000#32 31 = true by decide, show bit 0x80000000#32 30 = false by decide,
    show bit 0x80000000#32 29 = false by decide]
  simp only [Bool.or_false, Bool.or_true, true_and]

theorem pcfRdWrite_of_up : pcfRdWrite v o d =
    if (d.tel.ringWr - v).toNat ≤ d.tel.ringSize.toNat then { d with tel := { d.tel with ringRd := v } } else d := by
  unfold pcfRdWrite
  simp only [hb, Bool.true_and, decide_eq_true_eq]

end

/-! A due snapshot. -/

/-- Telemetry once a due snapshot has its number. -/
def snapTaken (t : Tel) : Tel := { t with due := false, snapNow := false, seq := t.seq + 1 }

section
variable {o : Otp} {d : Dev} {b : Bytes} (hd : d.tel.due = true) (hm : d.sys.mode ≠ .halted)
include hd hm

theorem snapLatch_of_due (hb : snapshotBytes o { d with tel := snapTaken d.tel } = b) : snapLatch o d =
    if (snapTaken d.tel).writing.isSome then
      withHw (fun d' => { d' with tel := { snapLost 2 (snapTaken d.tel) with records := [] } }) d
    else if (snapTaken d.tel).ringSize.toNat < telUsed (snapTaken d.tel) + telSkip (snapTaken d.tel) b.length + b.length then
      withHw (fun d' => { d' with tel := { snapLost 1 (snapTaken d.tel) with records := [] } }) d
    else
      let e := if telSkip (snapTaken d.tel) b.length = 0 then d
        else out (.hostWrite (telBase (snapTaken d.tel) + telOffset (snapTaken d.tel)) (wordBytes [0x5A575250#32])) d
      { e with tel := { snapTaken d.tel with
        records := [], writing := some b
        ringWr := (snapTaken d.tel).ringWr + wd (telSkip (snapTaken d.tel) b.length) } } := by
  subst hb
  unfold snapLatch
  exact if_neg (by simp [hd, hm])

theorem snapLatch_of_writing (hw : (snapTaken d.tel).writing.isSome = true) : snapLatch o d =
    withHw (fun d' => { d' with tel := { snapLost 2 (snapTaken d.tel) with records := [] } }) d :=
  (snapLatch_of_due hd hm rfl).trans (if_pos hw)

section
variable (hb : snapshotBytes o { d with tel := snapTaken d.tel } = b) (hw : (snapTaken d.tel).writing = none)
include hb hw

theorem snapLatch_of_full (hf : (snapTaken d.tel).ringSize.toNat
      < telUsed (snapTaken d.tel) + telSkip (snapTaken d.tel) b.length + b.length) :
    snapLatch o d = withHw (fun d' => { d' with tel := { snapLost 1 (snapTaken d.tel) with records := [] } }) d :=
  (snapLatch_of_due hd hm hb).trans ((if_neg (by simp [hw])).trans (if_pos hf))

theorem snapLatch_of_room (hf : ¬ (snapTaken d.tel).ringSize.toNat
      < telUsed (snapTaken d.tel) + telSkip (snapTaken d.tel) b.length + b.length) :
    snapLatch o d =
      (let e := if telSkip (snapTaken d.tel) b.length = 0 then d
        else out (.hostWrite (telBase (snapTaken d.tel) + telOffset (snapTaken d.tel)) (wordBytes [0x5A575250#32])) d
       { e with tel := { snapTaken d.tel with
        records := [], writing := some b
        ringWr := (snapTaken d.tel).ringWr + wd (telSkip (snapTaken d.tel) b.length) } }) :=
  (snapLatch_of_due hd hm hb).trans ((if_neg (by simp [hw])).trans (if_neg hf))

end

end

section
variable {o : Otp} {d : Dev} {b : Bytes} (hw : d.tel.writing = some b)
include hw

theorem snapWritten_of_written : snapWritten true o d =
    (let t := { d.tel with writing := none }
     withHw (fun d => { d with tel := { t with
        ringWr := t.ringWr + wd b.length, event := t.event ||| 1
        lostR7 := t.lostR7 - leAt b 30 2, lostS7 := t.lostS7 - leAt b 28 2 } })
      (out (.hostWrite (telBase t + telOffset t) b) d)) := by
  unfold snapWritten
  rw [hw]
  exact if_pos rfl

theorem snapWritten_of_failed : snapWritten false o d =
    (let t := { d.tel with writing := none }
     withHw (fun d => { d with tel := { snapLost 3 t with snapEn := false, event := t.event ||| 10 } }) d) := by
  unfold snapWritten
  rw [hw]
  exact if_neg (by decide)

end

/-- Settles O56: the commands and the control writes, then a due snapshot by the ring's state. That full counts the bytes
skipped, that a restart of the period counts from 0, that a lost snapshot clears its records, and the rate of records are log
entry 51. -/
theorem telemetryActs : Obligations.TelemetryActs := by
  unfold Obligations.TelemetryActs
  refine ⟨⟨?slot, ?info, fun v s hb => ⟨?snapNow, ?snapEn, ?ringRd⟩⟩, fun s hd hm => ⟨?writing, ?full, ?room⟩,
    fun b s hw => ⟨?written, ?failed⟩⟩
  case slot | info => exact answers_intro (fun _ _ => rfl) (fun _ _ _ => rfl) (fun _ _ _ => rfl)
  case snapNow => exact run_eq_next_put (f := pcfCtlWrite (v ||| 0x40000000#32)) (pcfCtlWrite_snapNow hb)
  case snapEn => exact run_eq_next_put (f := pcfCtlWrite (v ||| 0x80000000#32)) (pcfCtlWrite_snapEn hb)
  case ringRd => exact run_eq_next_ite (f := pcfRdWrite v) (pcfRdWrite_of_up hb)
  case writing => exact fun hw => run_eq_next_put (f := snapLatch) (snapLatch_of_writing hd hm hw)
  case full => exact fun hw hf => run_eq_next_put (f := snapLatch) (snapLatch_of_full hd hm rfl hw hf)
  case room => exact fun hw hf => run_eq_next_put (f := snapLatch) (snapLatch_of_room hd hm rfl hw hf)
  case written => exact run_eq_next_put (f := snapWritten true) (snapWritten_of_written hw)
  case failed => exact run_eq_next_put (f := snapWritten false) (snapWritten_of_failed hw)

end Sys2Proof.Machine
end

section
/-! DMA channels (R614, R617, R618, R620). -/
namespace Sys2Proof.Machine

/-! Writes of DMA_CTL. -/

theorem ctl_masked {v w : Word} (h : w &&& 0x2CFF0000#32 = 0#32) (hl : ∀ i ≤ 10, w.getLsbD i = false) :
    ((v ||| w) &&& 0x2CFF0000#32) ||| wd (max 1 (fld (v ||| w) 10 0))
      = (v &&& 0x2CFF0000#32) ||| wd (max 1 (fld v 10 0)) := by
  rw [fld_or_of_high hl, BitVec.and_or_distrib_right, h, BitVec.or_zero]

section
variable {o : Otp} {d : Dev} {c : Nat} {v : Word} (hb : bar2Up d = true) (hc : c < 8)
include hb hc

theorem dmaCtlWrite_of_up : dmaCtlWrite c v o d =
    (let ctl := (v &&& 0x2CFF0000#32) ||| wd (max 1 (fld v 10 0))
     let e := setDma c { dmaOf d c with ctl := ctl } d
     if (dmaOf d c).state = 0 then (if bit v 31 then setDma c { dmaOf e c with state := 1 } e else e)
     else if bit v 30 then dmaEnd c 7 e
     else e) := by
  unfold dmaCtlWrite
  exact if_neg (by simp [hb, hc])

theorem dmaCtlWrite_start (h0 : (dmaOf d c).state = 0) : dmaCtlWrite c (v ||| 0x80000000#32) o d =
    (let ctl := (v &&& 0x2CFF0000#32) ||| wd (max 1 (fld v 10 0))
     setDma c { dmaOf d c with ctl := ctl, state := 1 } (setDma c { dmaOf d c with ctl := ctl } d)) := by
  have hs : bit (v ||| 0x80000000#32) 31 = true := by rw [bit_or, show bit 0x80000000#32 31 = true by decide, Bool.or_true]
  rw [dmaCtlWrite_of_up hb hc, ctl_masked (by decide) (by decide)]
  dsimp only
  rw [if_pos h0, if_pos hs, dmaOf_setDma_same]

theorem dmaCtlWrite_stop (h0 : (dmaOf d c).state ≠ 0) : dmaCtlWrite c (v ||| 0x40000000#32) o d =
    dmaEnd c 7 (setDma c { dmaOf d c with ctl := (v &&& 0x2CFF0000#32) ||| wd (max 1 (fld v 10 0)) } d) := by
  have hs : bit (v ||| 0x40000000#32) 30 = true := by rw [bit_or, show bit 0x40000000#32 30 = true by decide, Bool.or_true]
  rw [dmaCtlWrite_of_up hb hc, ctl_masked (by decide) (by decide)]
  exact (if_neg h0).trans (if_pos hs)

end

/-! A channel runs, and ends. -/

theorem dmaRun_of_next {host : HostMem} {cut : Option Nat} {o : Otp} {ram : List Host.Cell} {d : Dev} {c : Nat} {x : DmaRun}
    (hw : dmaWorks d = true) (hn : dmaNext d = some c)
    (hx : dmaGo ⟨host, ram, d, c, { dmaOf d c with state := 2, hops := 0, done := 0 }, cut, 0⟩ = x) :
    dmaRun host cut o ram d = (o, x.ram, setDma c { x.chan with outcome := x.err } x.dev) := by
  subst hx
  have h : (if dmaWorks d then dmaNext d else none) = some c := (if_pos hw).trans hn
  unfold dmaRun
  rw [h]

theorem dmaDone_of_running {o : Otp} {d : Dev} {c : Nat} (hc : c < 8) (h2 : (dmaOf d c).state = 2) :
    dmaDone c o d = dmaEnd c (dmaOf d c).outcome d := by
  unfold dmaDone
  exact if_pos (by simp [hc, h2])

/-- Settles O57: START and STOP by the channel's state, the run of the lowest pending channel, and a channel's end. That CTL is
stored while a channel runs, and that a run moves its bytes at once with its outcome held, are log entry 52. -/
theorem dmaChannelsAct : Obligations.DmaChannelsAct := by
  unfold Obligations.DmaChannelsAct
  refine ⟨fun c v s hb hc => ⟨?start, ?stop⟩, ?runs, ?done⟩
  case start => exact fun h0 => run_eq_next_put (f := dmaCtlWrite c (v ||| 0x80000000#32)) (dmaCtlWrite_start hb hc h0)
  case stop => exact fun h0 => run_eq_next_put (f := dmaCtlWrite c (v ||| 0x40000000#32)) (dmaCtlWrite_stop hb hc h0)
  case runs =>
    intro host cut c s hw hn
    change runAll (dmaRun host cut) s = _
    generalize hx : dmaGo ⟨host, s.ram, s.dev, c, { dmaOf s.dev c with state := 2, hops := 0, done := 0 }, cut, 0⟩ = x
    rw [runAll_next, dmaRun_of_next hw hn hx]
  case done =>
    intro c s hc h2
    exact run_eq_next_put (f := dmaDone c) (dmaDone_of_running hc h2)

end Sys2Proof.Machine
end

section
/-! The tick boundary (R648, R649). -/
namespace Sys2Proof.Machine

theorem rtcTick_only (d : Dev) : ∃ ms rtc, rtcTick d = { d with sys := { d.sys with rtcMs := ms, rtc := rtc } } := by
  unfold rtcTick
  split <;> exact ⟨_, _, rfl⟩

/-- A boundary brings time to its instant and counts the tick; the RTC and the sectors count with it. -/
theorem boundary_only (d : Dev) : ∃ ms rtc pwr, boundary d = { d with
    sys := { d.sys with
      ticks := d.sys.ticks + 1, sub := max 1750000 d.sys.sub - 1750000, rtcMs := ms, rtc := rtc }
    pwr := pwr } := by
  obtain ⟨ms, rtc, h⟩ := rtcTick_only (let e := passTime (1750000 - d.sys.sub) d
    { e with sys := { e.sys with ticks := e.sys.ticks + 1, sub := e.sys.sub - 1750000 } })
  have hsub : (passTime (1750000 - d.sys.sub) d).sys.sub - 1750000 = max 1750000 d.sys.sub - 1750000 := by
    change d.sys.sub + (1750000 - d.sys.sub) - 1750000 = _
    omega
  refine ⟨ms, rtc, (passTime (1750000 - d.sys.sub) d).pwr, h.trans ?_⟩
  dsimp only
  rw [hsub]
  rfl

/-- Settles O59: by whether the TU runs and the device is HALTED. The order of the work at a boundary is log entry 14, that
HALTED ticks count time only log entry 45. -/
theorem tickCarriesTheDevice : Obligations.TickCarriesTheDevice := by
  unfold Obligations.TickCarriesTheDevice
  intro xs s
  refine ⟨?asleep, ?halted, ?works⟩
  case asleep =>
    intro ht
    exact run_eq_next_put (f := tickBoundary xs) (if_pos (by simp [ht]))
  case halted =>
    intro ht hm
    have hb : tickBoundary xs s.otp s.dev = boundary s.dev := (if_neg (by simp [ht])).trans (if_pos hm)
    obtain ⟨ms, rtc, pwr, h⟩ := boundary_only s.dev
    rw [h] at hb
    exact ⟨_, run_eq_next_put (f := tickBoundary xs) hb, rfl, rfl, hm, rfl, rfl, rfl, rfl⟩
  case works =>
    intro ht hm
    exact run_eq_next_put (f := tickBoundary xs) ((if_neg (by simp [ht])).trans (if_neg hm))

end Sys2Proof.Machine
end

section
/-! The forms of frame mode complete (R145 to R157). -/
namespace Sys2Proof.Machine

/-! From what a row does to a completed request. -/

/-- A served request completes: its effect is seen on the frame-mode and the Dispatcher's part of the device. -/
theorem completes_of_served {i : NcsReq → Instr} {c : Cmd} {st : Nat} {pl : NcsReq → Dev → List Word}
    {q : NcsReq → Dev → Dev → Prop} {e : Otp → NcsReq → Dev → Dev}
    (hx : ∀ r s, Passes c r s → exec (i r) s = .next (served c.code r st (pl r) (e s.otp r) s))
    (hpl : ∀ r d sb outs, pl r { d with sb := sb, outs := outs } = pl r d)
    (hq : ∀ o r d sb outs (t : Dev), t.fm = (e o r { d with sb := sb, outs := outs }).fm →
      t.dsp = (e o r { d with sb := sb, outs := outs }).dsp → q r d t) : Completes i c st pl q := by
  intro r s h
  obtain ⟨sb, outs, hs⟩ := submitted_eq c.code r s.dev
  have hp : pl r (submitted c.code r s.dev) = pl r s.dev := by rw [hs, hpl]
  refine ⟨_, hx r s h, ⟨?_, rfl, rfl, rfl⟩, hq s.otp r s.dev sb outs _ ?_ ?_⟩
  · rw [← hp]
    exact answerOf_respond ..
  · rw [← hs]
    exact respond_fm ..
  · rw [← hs]
    exact respond_dsp ..

theorem completes_of_sets {i : NcsReq → Instr} {c : Cmd} {q : NcsReq → Dev → Dev → Prop} {e : Otp → NcsReq → Dev → Dev}
    (hx : Sets i c e) (hq : ∀ o r d sb outs (t : Dev), t.fm = (e o r { d with sb := sb, outs := outs }).fm →
      t.dsp = (e o r { d with sb := sb, outs := outs }).dsp → q r d t) : Completes i c stOk (fun _ _ => []) q :=
  completes_of_served hx (fun _ _ _ _ => rfl) hq

theorem completes_of_answers {i : NcsReq → Instr} {c : Cmd} {pl : NcsReq → Dev → List Word} {q : NcsReq → Dev → Dev → Prop}
    (hx : Answers i c (fun _ => pl)) (hpl : ∀ r d sb outs, pl r { d with sb := sb, outs := outs } = pl r d)
    (hq : ∀ r (d t : Dev), t.fm = d.fm → t.dsp = d.dsp → q r d t) : Completes i c stOk pl q :=
  completes_of_served (e := fun _ _ d => d) hx hpl fun _ r d _ _ t hf hd => hq r d t hf hd

theorem completes_of_starts {i : NcsReq → Instr} {c : Cmd} {q : NcsReq → Dev → Dev → Prop} {e : Otp → NcsReq → Dev → Dev}
    (hx : Starts i c e) (hq : ∀ o r d sb outs (t : Dev), t.fm = (e o r { d with sb := sb, outs := outs }).fm →
      t.dsp = (e o r { d with sb := sb, outs := outs }).dsp → q r d t) : Completes i c stAccepted (fun _ _ => []) q :=
  completes_of_served (e := fun o r d => accept r.page r.tag c.code (e o r d)) hx (fun _ _ _ _ => rfl)
    fun o r d sb outs t hf hd => hq o r d sb outs t (hf.trans (accept_fm ..)) (hd.trans (accept_dsp ..))

/-! What a request that passes its checks has passed (R56). -/

theorem ite_some_eq_none {α : Type} {p : Prop} [Decidable p] {a : α} {x : Option α}
    (h : (if p then some a else x) = none) : ¬p ∧ x = none := by
  by_cases hp : p
  · rw [if_pos hp] at h
    cases h
  · exact ⟨hp, by rwa [if_neg hp] at h⟩

theorem checks_none {c : Cmd} {o : Otp} {d : Dev} {r : NcsReq} (h : checks c o d r = none) :
    c.bad o d r = none ∧ c.full o d r = false := by
  unfold checks at h
  iterate 5 replace h := (ite_some_eq_none h).2
  cases hp : pageForbids c d r with
  | some n => rw [hp] at h; cases h
  | none =>
    rw [hp] at h
    dsimp only at h
    cases hf : (if lifeForbids c o r = true then some 4 else c.forbids o d r) with
    | some n => rw [hf] at h; cases h
    | none =>
      rw [hf] at h
      replace h := (ite_some_eq_none (ite_some_eq_none h).2).2
      cases hb : c.bad o d r with
      | some i => rw [hb] at h; cases h
      | none =>
        rw [hb] at h
        iterate 4 replace h := (ite_some_eq_none h).2
        exact ⟨rfl, by simpa using (ite_some_eq_none h).1⟩

theorem firstBad_cons_none {i : Nat} {ok : Bool} {t : List (Nat × Bool)} (h : firstBad ((i, ok) :: t) = none) :
    ok = true ∧ firstBad t = none := by
  unfold firstBad at h
  split at h
  · exact ⟨‹_›, h⟩
  · cases h

theorem clientOfLine_of_lineBound {d : Dev} {l : Nat} (h : lineBound d l = true) : ∃ c, clientOfLine d l = some c := by
  unfold lineBound at h
  unfold clientOfLine
  cases hf : d.fm.pairs.find? (fun p => p.2.line == l) with
  | some p => exact ⟨p.1, rfl⟩
  | none =>
    rw [List.find?_eq_none] at hf
    obtain ⟨p, hp, hl⟩ := List.any_eq_true.mp h
    exact absurd hl (hf p hp)

theorem freeSecy_is_free {d : Dev} {n y : Nat} (h : freeSecy d n = some y) : tget d.fm.secys y = none := by
  unfold freeSecy firstNat at h
  simpa using List.find?_some h

/-- A SecY that may be made finds a client port, a SecY, an SC and a place for its rule (R147). -/
theorem secyCreate_finds {r : NcsReq} {s : State} (h : Passes cmdFmSecyCreate r s) : ∃ c y sc i,
    clientOfLine s.dev (rf r 0 21 16) = some c ∧ freeSecy s.dev (sectorOf (rf r 0 21 16)) = some y
      ∧ freeSc s.dev (sectorOf (rf r 0 21 16)) = some sc
      ∧ ruleIndex s.dev (sectorOf c) (reqVlan r).isSome = some i := by
  obtain ⟨sb, outs, hs⟩ := submitted_eq cmdFmSecyCreate.code r s.dev
  obtain ⟨hb, hf⟩ := checks_none h.2
  rw [hs] at hb hf
  obtain ⟨hl, -⟩ := firstBad_cons_none hb
  simp only [Bool.and_eq_true] at hl
  obtain ⟨c, hc⟩ := clientOfLine_of_lineBound hl.1.2
  have hc' : clientOfLine s.dev (rf r 0 21 16) = some c := hc
  unfold cmdFmSecyCreate ruleSector at hf
  dsimp only at hf
  rw [hc, Bool.or_eq_false_iff, Bool.or_eq_false_iff, Bool.or_eq_false_iff] at hf
  obtain ⟨⟨⟨-, hy⟩, hsc⟩, hi⟩ := hf
  obtain ⟨y, hy⟩ := Option.ne_none_iff_exists'.mp (Option.isNone_eq_false_iff.mp hy |> Option.isSome_iff_ne_none.mp)
  obtain ⟨sc, hsc⟩ := Option.ne_none_iff_exists'.mp (Option.isNone_eq_false_iff.mp hsc |> Option.isSome_iff_ne_none.mp)
  obtain ⟨i, hi⟩ := Option.ne_none_iff_exists'.mp (Option.isNone_eq_false_iff.mp hi |> Option.isSome_iff_ne_none.mp)
  exact ⟨c, y, sc, i, hc', hy, hsc, hi⟩

/-- An SC that may be made finds a number (R150). -/
theorem scCreate_finds {r : NcsReq} {s : State} (h : Passes cmdFmScCreate r s) :
    ∃ c, freeSc s.dev (rf r 0 13 0 / 4096) = some c := by
  obtain ⟨sb, outs, hs⟩ := submitted_eq cmdFmScCreate.code r s.dev
  have hf := (checks_none h.2).2
  rw [hs] at hf
  exact Option.isSome_iff_exists.mp (Option.isNone_eq_false_iff.mp hf)

/-! What stands after each effect. -/

theorem tget_tdel {α : Type} (t : Table α) (k : Nat) : tget (tdel t k) k = none := by
  induction t with
  | nil => rfl
  | cons p t ih =>
    unfold tdel at *
    rw [List.filter_cons]
    split
    · rename_i h
      obtain ⟨i, a⟩ := p
      have hi : i ≠ k := by simpa using h
      unfold tget
      rw [if_neg hi, ih, ite_self]
    · exact ih

theorem hintCheck_cacheOnly (o : Otp) (gid : Nat) (ss : List Nat) (d : Dev) : CacheOnly d (hintCheck o gid ss d) := by
  have h1 : ∀ (b : Bool) (x y : Nat), CacheOnly d (if b then hintUnmet 4 gid x y d else d) := fun b x y =>
    iteInduction (fun _ => hintUnmet_cacheOnly ..) fun _ => .refl d
  unfold hintCheck
  dsimp only
  split
  · exact iteInduction (fun _ => h1 ..) fun _ => (h1 ..).trans (hintUnmet_cacheOnly ..)
  · exact h1 ..

theorem placeGroup_fm (gid : Nat) (o : Otp) (d : Dev) : (placeGroup gid o d).fm = d.fm := by
  have h : ∀ ss (e : Dev), (hintCheck o gid ss (setDirs gid ss e)).fm = e.fm := fun ss e =>
    (hintCheck_cacheOnly ..).fm.trans (setDirs_fm ..)
  unfold placeGroup
  dsimp only
  split
  · exact h _ _
  · exact (emit_fm ..).trans (h _ _)

theorem commitCheck_fm (d : Dev) : (commitCheck d).fm = d.fm := by
  unfold commitCheck
  split
  · split
    · rfl
    · exact finish_fm ..
  · rfl

theorem dropGroup_fm (gid : Nat) (d : Dev) : (dropGroup gid d).fm = d.fm := commitCheck_fm _

/-- A bound port stands in the table with its line port (R145). -/
theorem tget_bindPair (c l : Nat) (pass : Bool) (o : Otp) (d : Dev) :
    tget (bindPair c l pass o d).fm.pairs c = some (newPair l pass) := by
  unfold bindPair
  rw [placeGroup_fm, placeGroup_fm]
  exact tget_tset_same ..

theorem tget_unbindPair (c : Nat) (d : Dev) : tget (unbindPair c d).fm.pairs c = none := by
  unfold unbindPair
  split
  · assumption
  · dsimp only
    rw [dropGroup_fm, dropGroup_fm]
    dsimp only
    exact tget_tdel ..

theorem armSwap_secys (n : Nat) (d : Dev) : (armSwap n d).fm.secys = d.fm.secys := rfl

theorem secyDelete_secys (y : Nat) (d : Dev) : tget (secyDelete y d).2.fm.secys y = none := by
  unfold secyDelete
  split
  · assumption
  · dsimp only
    split
    · dsimp only
      exact tget_tdel ..
    · rw [armSwap_secys]
      dsimp only
      exact tget_tdel ..

/-- Where no PN has reached either threshold no SA is told of (R154). -/
theorem thresholdSet_secys {r : NcsReq} {d : Dev} {y : Secy}
    (hp : ∀ x ∈ d.kc.sas, x.2.pn < (rw r 1).toNat ∧ x.2.pn < (rw r 2).toNat) (hy : tget d.fm.secys (rf r 0 13 0) = some y) :
    tget (thresholdSet r d).fm.secys (rf r 0 13 0) = some { y with thr := (rw r 1).toNat, thrX := (rw r 2).toNat } := by
  have ht := tget_tmod_same (fun y : Secy => { y with thr := (rw r 1).toNat, thrX := (rw r 2).toNat }) hy
  have hnone : ∀ (e : Dev) (z : Secy), e.kc = d.kc → z.thr = (rw r 1).toNat → z.thrX = (rw r 2).toNat →
      pastThreshold e z = [] := by
    intro e z he h1 h2
    unfold pastThreshold sasOf pnThreshold
    rw [he, List.filter_eq_nil_iff]
    intro x hx
    obtain ⟨l1, l2⟩ := hp x (List.mem_filter.mp hx).1
    dsimp only
    rw [h1, h2]
    have hlt : ¬ (if isXpn x.2.suite = true then (rw r 2).toNat * 2 ^ 32 else (rw r 1).toNat) ≤ x.2.pn := by
      split <;> omega
    rw [decide_eq_false hlt, Bool.and_false]
    decide
  unfold thresholdSet
  dsimp only
  rw [ht]
  dsimp only
  rw [hnone]
  · exact ht
  all_goals rfl

theorem tget_ruleWrite {r : NcsReq} {i : Nat} (d : Dev) (hi : i < (rw r 1).toNat) :
    tget (rulesOf (ruleWrite r d) (rf r 0 17 16)).shadow (rf r 0 13 0 + i) = some (reqRule r i) := by
  rw [ruleWrite_eq, rulesOf_setRules_same]
  exact tget_shadowPuts_inside _ _ hi

theorem rulesOf_fm {d e : Dev} (h : e.fm = d.fm) (n : Nat) : rulesOf e n = rulesOf d n := by
  unfold rulesOf
  rw [h]

end Sys2Proof.Machine
end

section
/-! The forms of frame mode and of the Dispatcher complete (R145 to R157, R316, R324, R329, R332 to R339, R587). -/
namespace Sys2Proof.Machine

/-! What leaves the Dispatcher's part as it was. -/

theorem setState_dsp (n st : Nat) (d : Dev) : (setState n st d).dsp = d.dsp := rfl

theorem sidingRefresh_dsp (n : Nat) (d : Dev) : (sidingRefresh n d).dsp = d.dsp := by
  unfold sidingRefresh
  split
  · exact setState_dsp ..
  · rfl

theorem bulkAssign_dsp (o : Otp) (d : Dev) : (bulkAssign o d).dsp = d.dsp := by
  unfold bulkAssign
  refine List.foldlRecOn (motive := fun e : Dev => e.dsp = d.dsp) _ _ rfl fun e he j _ => ?_
  dsimp only
  split
  · exact he
  · split
    · exact (sidingRefresh_dsp ..).trans he
    · exact he

theorem reliefSiding_dsp (n : Nat) (d : Dev) : (reliefSiding n d).dsp = d.dsp := by
  unfold reliefSiding
  dsimp only
  split
  · exact setState_dsp ..
  · rfl

theorem clearKey_dsp (j : BulkJob) (d : Dev) : (clearKey j d).dsp = d.dsp := by
  unfold clearKey
  split <;> rfl

theorem clearSiding_dsp (o : Otp) (n : Nat) (d : Dev) : (clearSiding o n d).dsp = d.dsp := by
  unfold clearSiding
  refine (bulkAssign_dsp o _).trans ?_
  refine List.foldlRecOn (motive := fun e : Dev => e.dsp = d.dsp) _ _ ?_ fun e he x _ => (sidingRefresh_dsp ..).trans he
  refine List.foldlRecOn (motive := fun e : Dev => e.dsp = d.dsp) _ _ ?_ fun e he j _ => (clearKey_dsp ..).trans he
  exact List.foldlRecOn (motive := fun e : Dev => e.dsp = d.dsp) _ _ rfl fun e he x _ => he

theorem startLoad_dsp (n sa : Nat) (d : Dev) : (startLoad n sa d).dsp = d.dsp := by
  unfold startLoad
  split
  · rfl
  · split <;> rfl

theorem setDirs_dsp (gid : Nat) (ns : List Nat) (d : Dev) : (setDirs gid ns d).dsp = d.dsp := by
  unfold setDirs
  exact List.foldlRecOn (motive := fun e : Dev => e.dsp = d.dsp) _ _ rfl fun e he n _ => he

/-! Hints (R326, R336). -/

theorem hintedSas_le (d : Dev) : (hintedSas d).length ≤ d.kc.sas.length := List.length_filter_le ..

/-- Within the limits of R319 and R336 a hint of the four kinds is taken, and a pin stands as asked. -/
theorem hintSet_taken {r : NcsReq} {d : Dev} (o : Otp) (hk : 1 ≤ rf r 0 31 28 ∧ rf r 0 31 28 ≤ 4)
    (hs : d.kc.sas.length ≤ 16384) (ha : d.dsp.avoid.length < 32) : ∃ e, hintSet r o d = (e, stOk)
      ∧ (rf r 0 31 28 = 1 → e.dsp.pins.contains (ow (rw r 1)) = bit (rw r 0) 27) := by
  have hp := Nat.le_trans (hintedSas_le (pinned (ow (rw r 1)) d)) hs
  have hc := Nat.le_trans (hintedSas_le (classHinted r d)) hs
  obtain h1 | h2 | h3 | h4 : rf r 0 31 28 = 1 ∨ rf r 0 31 28 = 2 ∨ rf r 0 31 28 = 3 ∨ rf r 0 31 28 = 4 := by omega
  · cases hb : bit (rw r 0) 27 with
    | false => exact ⟨_, hintSet_of_unpin h1 hb, fun _ => by simp⟩
    | true =>
      have hpins : ∀ e : Dev, e.dsp.pins = addNat (ow (rw r 1)) d.dsp.pins →
          (pinFetch e).dsp.pins.contains (ow (rw r 1)) = true := fun e he => by
        rw [(pinFetch_cacheOnly e).pins, he]
        exact contains_addNat ..
      by_cases hw : groupW d ((objGroup d (ow (rw r 1))).getD 0) ≤ (spreadOf (pinned (ow (rw r 1)) d) (ow (rw r 1))).s
          ∨ 2 ≤ objKind (ow (rw r 1))
      · exact ⟨_, hintSet_of_pin_wide h1 hb rfl hp hw, fun _ => hpins _ rfl⟩
      · rw [not_or, Nat.not_le, Nat.not_le] at hw
        exact ⟨_, hintSet_of_pin_narrow h1 hb rfl hp hw.1 hw.2, fun _ => hpins _ rfl⟩
  · exact ⟨_, hintSet_of_prefer h2, fun h => by omega⟩
  · cases hb : bit (rw r 0) 27 with
    | false => exact ⟨_, hintSet_of_avoid_cleared h3 hb, fun h => by omega⟩
    | true => exact ⟨_, hintSet_of_avoid h3 hb (.inl ha), fun h => by omega⟩
  · exact ⟨_, hintSet_of_class_taken h4 (.inr (.inr hc)), fun h => by omega⟩

/-- A DSP_HINT_SET that passes its checks names one of the four kinds (R336). -/
theorem hintSet_kind {r : NcsReq} {s : State} (h : Passes cmdDspHintSet r s) :
    1 ≤ rf r 0 31 28 ∧ rf r 0 31 28 ≤ 4 := by
  obtain ⟨hv, -⟩ := firstBad_cons_none (checks_none h.2).1
  have hk := (Bool.and_eq_true_iff.mp hv).1
  unfold hintValueOk at hk
  split at hk
  · omega
  · omega
  · simp only [Bool.and_eq_true, Bool.or_eq_true, beq_iff_eq] at hk
    omega

/-! The placement table (R329). -/

theorem moveTo_active (gid cause : Nat) (cur aim : List Nat) (d : Dev) :
    (moveTo gid cause cur aim d).dsp.active = d.dsp.active := by
  unfold moveTo
  refine List.foldlRecOn (motive := fun e : Dev => e.dsp.active = d.dsp.active) _ _ rfl fun e he i _ => ?_
  split <;> exact he

theorem hintCheck_active (o : Otp) (gid : Nat) (ss : List Nat) (d : Dev) :
    (hintCheck o gid ss d).dsp.active = d.dsp.active := by
  have h := hintCheck_cacheOnly o gid ss d
  unfold CacheOnly at h
  rw [h]

theorem replan_active (gid cause : Nat) (o : Otp) (d : Dev) : (replan gid cause o d).2.dsp.active = d.dsp.active := by
  unfold replan
  split
  · rfl
  · exact iteInduction (motive := fun x : Nat × Dev => x.2.dsp.active = d.dsp.active) (fun _ => hintCheck_active ..)
      fun _ => (moveTo_active ..).trans (hintCheck_active ..)

theorem commitCheck_active (d : Dev) : (commitCheck d).dsp.active = d.dsp.active := by
  unfold commitCheck
  split
  · split
    · rfl
    · rw [finish_dsp]
  · rfl

/-- After the swap the shadow is active, whatever it moves. -/
theorem tableSwap_active {p tag x : Nat} (o : Otp) {d : Dev} (hc : d.dsp.commit = some (p, tag, false, x))
    (ht : d.dsp.commitAt < d.sys.ticks) : (tableSwap o d).dsp.active = d.dsp.shadow := by
  unfold tableSwap
  rw [hc]
  dsimp only
  rw [if_neg (by omega), commitCheck_active]
  exact List.foldlRecOn (motive := fun e : Nat × Dev => e.2.dsp.active = d.dsp.shadow) _ _ rfl fun e he g _ =>
    (replan_active ..).trans he

/-! Moves (R316, R317). -/

theorem moveOf_setMove (id : Nat) (m : Move) (d : Dev) : moveOf (setMove id m d) id = some m := tget_tset_same ..

theorem startLoads_dsp (ts : List Nat) (sas : Dev → List Nat) (d : Dev) :
    (ts.foldl (fun d t => (sas d).foldl (fun d sa => startLoad t sa d) d) d).dsp = d.dsp := by
  refine List.foldlRecOn (motive := fun e : Dev => e.dsp = d.dsp) _ _ rfl fun e he t _ => ?_
  exact List.foldlRecOn (motive := fun f : Dev => f.dsp = d.dsp) _ _ he fun f hf sa _ => (startLoad_dsp ..).trans hf

theorem setPosition_groups {gid : Nat} {g : Group} {d : Dev} (pos n : Nat) (hg : tget d.dsp.groups gid = some g) :
    tget (setPosition gid pos n d).dsp.groups gid = some { g with slices := g.slices.set pos n } := by
  unfold setPosition
  rw [hg]
  dsimp only
  rw [setDirs_dsp]
  exact tget_tmod_same _ hg

theorem spreadOf_of_put {t : Table Spread} {k : Nat} {x : Spread} {d : Dev} (h : d.dsp.spreads = tset t k x) :
    (spreadOf d k).s = x.s ∧ (spreadOf d k).b = x.b := by
  unfold spreadOf
  rw [h, tget_tset_same]
  exact ⟨rfl, rfl⟩

theorem commitCheck_moves (d : Dev) :
    (commitCheck d).dsp.moves = d.dsp.moves ∧ (commitCheck d).dsp.movesDone = d.dsp.movesDone := by
  unfold commitCheck
  split
  · split
    · exact ⟨rfl, rfl⟩
    · rw [finish_dsp]
      exact ⟨rfl, rfl⟩
  · exact ⟨rfl, rfl⟩

theorem moveDone_moves (id : Nat) (m : Move) (d : Dev) :
    (moveDone id m d).dsp.moves = tdel d.dsp.moves id ∧ (moveDone id m d).dsp.movesDone = d.dsp.movesDone + 1 :=
  ⟨rfl, rfl⟩

/-! Droop relief (R324). -/

/-- The relief of a sector runs and has not been calm. -/
def Relieving (n : Nat) (d : Dev) : Prop := (reliefOf d n).on = true ∧ (reliefOf d n).calm = 0

section
variable {n : Nat} {d : Dev}

theorem Relieving.of_relief {e : Dev} (h : Relieving n d) (he : e.dsp.relief = d.dsp.relief) : Relieving n e := by
  unfold Relieving reliefOf at *
  rwa [he]

theorem relieving_reliefOn (n : Nat) (d : Dev) : Relieving n (reliefOn n d) := by
  unfold Relieving reliefOf reliefOn setRelief
  dsimp only
  rw [tgetD_tset_same]
  exact ⟨rfl, rfl⟩

/-- Groups that leave the moved ones of every sector leave its relief running. -/
theorem Relieving.moved {f : List (Nat × List Nat) → List (Nat × List Nat)} {e : Dev} (h : Relieving n d)
    (he : e.dsp.relief = d.dsp.relief.map (fun r => (r.1, { r.2 with moved := f r.2.moved }))) : Relieving n e := by
  unfold Relieving reliefOf tgetD at *
  rw [he, tget_map (fun x : Relief => { x with moved := f x.moved })]
  cases hr : tget d.dsp.relief n with
  | none => rwa [hr] at h
  | some x => rwa [hr] at h

theorem setPosition_relief (gid pos m : Nat) (d : Dev) : (setPosition gid pos m d).dsp.relief = d.dsp.relief := by
  unfold setPosition
  split
  · rw [setDirs_dsp]
    rfl
  · rfl

theorem Relieving.reliefHome (o : Otp) (g : Nat × Group) (h : Relieving n d) : Relieving n (reliefHome o d g) := by
  unfold Machine.reliefHome
  split
  · exact h
  · refine List.foldlRecOn (motive := Relieving n) _ _ (h.moved rfl) fun e he i _ => ?_
    dsimp only
    generalize (if recordUp o e _ = true then _ else _) = next
    split
    · exact he
    · exact he.of_relief (by rw [reliefSiding_dsp]; exact setPosition_relief ..)

theorem Relieving.takeSiding (o : Otp) (m dir : Nat) (h : Relieving n d) : Relieving n (takeSiding o m dir d) := by
  have h1 : Relieving n ((d.dsp.groups.filter (fun g => g.2.relief && g.2.slices.contains m)).foldl
      (Machine.reliefHome o) d) :=
    List.foldlRecOn (motive := Relieving n) _ _ h fun e he g _ => he.reliefHome o g
  unfold Machine.takeSiding
  generalize (d.dsp.groups.filter (fun g => g.2.relief && g.2.slices.contains m)).foldl (Machine.reliefHome o) d = e at h1 ⊢
  refine h1.of_relief ?_
  show (clearSiding o m _).dsp.relief = _
  rw [clearSiding_dsp, setState_dsp]

/-- A group that leaves a sector leaves the relief of every sector running. -/
theorem Relieving.relieve {o : Otp} {s : Nat} {g : Nat × Group} {e : Dev} (h : Relieving n d)
    (he : relieve o s g d = some e) : Relieving n e := by
  unfold Machine.relieve at he
  dsimp only at he
  obtain ⟨x, hx, rfl⟩ := Option.map_eq_some_iff.mp he
  have hr : Relieving n x := by
    refine List.foldlRecOn (motive := fun y : Option Dev => ∀ x, y = some x → Relieving n x) _ _
      (fun x hx => by cases hx; exact h) (fun y hy i _ x hx => ?_) x hx
    obtain ⟨z, hz, hx⟩ := Option.bind_eq_some_iff.mp hx
    split at hx
    · cases hx
      exact hy _ hz
    · obtain ⟨m, -, rfl⟩ := Option.map_eq_some_iff.mp hx
      split
      · exact ((hy z hz).takeSiding o _ _).of_relief rfl
      · exact (hy z hz).of_relief rfl
  unfold Relieving reliefOf setRelief
  dsimp only
  by_cases hn : n = s
  · subst hn
    rw [tgetD_tset_same]
    exact hr
  · rw [tgetD_tset_other _ hn]
    exact hr

theorem Relieving.walk {o : Otp} {s : Nat} (gs : List (Nat × Group)) (h : Relieving n d) :
    Relieving n (reliefWalk o s gs d).2 := by
  unfold reliefWalk
  refine List.foldlRecOn (motive := fun p : Bool × Dev => Relieving n p.2) _ _ h fun p hp g _ => ?_
  split
  · exact hp
  · split
    · exact hp.relieve ‹_›
    · exact hp

theorem Relieving.emit (p evt : Nat) (w2 w3 : Word) (h : Relieving n d) : Relieving n (emit p evt w2 w3 d) :=
  h.of_relief (by rw [emit_dsp])

end

theorem reliefOf_reliefOver (n moved : Nat) (d : Dev) : reliefOf (reliefOver n moved d) n = Relief.init := by
  unfold reliefOf reliefOver
  rw [emit_dsp]
  exact tgetD_tset_same ..

/-! Idle power (R587). -/

theorem sliceOf_setSlice (n : Nat) (x : Slice) (d : Dev) : sliceOf (setSlice n x d) n = x := tgetD_tset_same ..

theorem state_setState (n st : Nat) (d : Dev) : (sliceOf (setState n st d) n).state = st := by
  rw [show sliceOf (setState n st d) n = { sliceOf d n with state := st } from tgetD_tset_same ..]

theorem wipe_ctxs (x : Slice) : x.wipe.ctxs = [] := by
  unfold Slice.wipe
  rw [keep_ctxs]
  exact List.filter_eq_nil_iff.mpr fun _ _ => Bool.false_ne_true

theorem wipe_state (x : Slice) : x.wipe.state = x.state := by
  unfold Slice.wipe Slice.keep
  dsimp only
  split <;> rfl

/-- Settles O60: each row is served with its effect, of which the named part stands; the Dispatcher's happenings take the
branch of their state, and what else they do keeps the named part. -/
theorem frameModeAndDispatcherFormsComplete : Obligations.FrameModeAndDispatcherFormsComplete := by
  obtain ⟨⟨xBind, xUnbind, xSecyCreate, xSecySet, xSecyDelete, xScCreate, xScDelete⟩,
    ⟨-, xPtp, xBypass, xThreshold, xRuleWrite, xRuleRead, xRuleCommit, -⟩, -⟩ := frameModeCommandsAct
  obtain ⟨⟨xGroup, xPlace, xStats, -, -, -, -, -, xHintGet, xTableWrite, xTableRead, xTableCommit, xParamWrite, xParamRead, -⟩, -⟩ :=
    dispatcherAndPlacementAct
  refine ⟨⟨?bind, ?unbind, ?secyCreate, ?secySet, ?secyDelete, ?scCreate, ?scDelete, ?stats, ?ptp, ?bypass, ?threshold,
    ?ruleWrite, ?ruleRead, ?ruleCommit, ?ruleSwap⟩, ?group, ?place, ?dspStats, ?hintGet, ?hintSet, ?tableWrite, ?tableRead,
    ?tableCommit, ?paramWrite, ?paramRead, ?tableSwap, ?start, ?switchover, ?drain, ?width, ?relief, ?reliefEnd, ?idle⟩
  case bind => exact completes_of_sets xBind fun o r d sb outs t hf _ => by rw [hf]; exact tget_bindPair ..
  case unbind => exact completes_of_sets xUnbind fun o r d sb outs t hf _ => by rw [hf]; exact tget_unbindPair ..
  case secyCreate =>
    intro r s h
    obtain ⟨c, y, sc, i, hc, hy, hsc, hi⟩ := secyCreate_finds h
    refine ⟨_, y, sc, _, xSecyCreate r c y sc i s h hc hy hsc hi, ⟨answerOf_respond .., rfl, rfl, rfl⟩, freeSecy_is_free hy,
      (congrArg (fun f : Fm => tget f.secys y) (respond_fm ..)).trans (tget_tset_same ..), rfl, rfl, rfl, rfl, rfl, rfl,
      (congrArg (fun f : Fm => tget f.scs sc) (respond_fm ..)).trans (tget_tset_same ..)⟩
  case secySet =>
    exact completes_of_sets xSecySet fun o r d sb outs t hf _ y hy => by rw [hf]; exact tget_tmod_same _ hy
  case secyDelete =>
    exact completes_of_starts xSecyDelete fun o r d sb outs t hf _ => by
      rw [hf]
      exact ⟨secyDelete_secys .., _, _, rfl⟩
  case scCreate =>
    intro r s h
    obtain ⟨c, hc⟩ := scCreate_finds h
    exact ⟨_, c, xScCreate r c s h hc, ⟨answerOf_respond .., rfl, rfl, rfl⟩,
      (congrArg (fun f : Fm => tget f.scs c) (respond_fm ..)).trans (tget_tset_same ..)⟩
  case scDelete =>
    exact completes_of_sets xScDelete fun o r d sb outs t hf _ => by rw [hf]; exact tget_tdel ..
  case stats =>
    exact completes_of_answers (answers_intro (fun _ _ => rfl) (fun _ _ _ => rfl) (fun _ _ _ => rfl))
      (fun _ _ _ _ => rfl) fun r d t hf _ => hf
  case ptp =>
    exact completes_of_sets xPtp fun o r d sb outs t hf _ c p hc hp => by
      have hc' : clientOfLine { d with sb := sb, outs := outs } (rf r 0 21 16) = some c := hc
      rw [hf]
      dsimp only
      rw [hc']
      exact tget_tmod_same _ hp
  case bypass => exact completes_of_sets xBypass fun o r d sb outs t hf _ => by rw [hf]
  case threshold =>
    exact completes_of_sets xThreshold fun o r d sb outs t hf _ hp y hy => by
      rw [hf]
      exact thresholdSet_secys (d := { d with sb := sb, outs := outs }) hp hy
  case ruleWrite =>
    exact completes_of_sets xRuleWrite fun o r d sb outs t hf _ i hi => by
      rw [rulesOf_fm hf]
      exact tget_ruleWrite _ hi
  case ruleRead => exact completes_of_answers xRuleRead (fun _ _ _ _ => rfl) fun r d t hf _ => hf
  case ruleCommit =>
    exact completes_of_served (e := fun _ r d => armSwap (rf r 0 1 0) d) (pl := fun r d => [(rulesOf d (rf r 0 1 0)).generation + 1])
      xRuleCommit (fun _ _ _ _ => rfl) fun o r d sb outs t hf _ => by
        rw [rulesOf_fm hf]
        unfold armSwap
        rw [rulesOf_setRules_same]
        exact ⟨rfl, rfl⟩
  case ruleSwap =>
    intro n s ha ht
    refine ⟨_, run_eq_next_put (ruleSwap_of_due s.otp ha ht), ?_⟩
    have h : rulesOf (State.put s (emit 0 0x0382 (wd n) ((rulesOf s.dev n).generation + 1) (setRules n { rulesOf s.dev n with
        active := (rulesOf s.dev n).shadow, dead := (rulesOf s.dev n).deadShadow, armed := false, uncommitted := false
        generation := (rulesOf s.dev n).generation + 1 } s.dev))).dev n = _ :=
      (rulesOf_fm (emit_fm ..) n).trans (rulesOf_setRules_same ..)
    rw [h]
    exact ⟨rfl, rfl, rfl, rfl, rfl, rfl⟩
  case group => exact completes_of_answers xGroup (fun _ _ _ _ => rfl) fun r d t _ hd => hd
  case place => exact completes_of_answers xPlace (fun _ _ _ _ => rfl) fun r d t _ hd => hd
  case dspStats => exact completes_of_answers xStats (fun _ _ _ _ => rfl) fun r d t _ hd => hd
  case hintGet => exact completes_of_answers xHintGet (fun _ _ _ _ => rfl) fun r d t _ hd => hd
  case hintSet =>
    intro r s h hs ha
    obtain ⟨sb, outs, hd⟩ := submitted_eq cmdDspHintSet.code r s.dev
    obtain ⟨e, he, hp⟩ := hintSet_taken (r := r) (d := submitted cmdDspHintSet.code r s.dev) s.otp (hintSet_kind h)
      (by rw [hd]; exact hs) (by rw [hd]; exact ha)
    refine ⟨_, served_at (i := .dspHintSet r) (c := cmdDspHintSet) (e := fun _ => e) (st := stOk) (pl := []) rfl h rfl
      (congrArg (fun x : Dev × Nat => (x.1, x.2, ([] : List Word))) he) (by decide) (fun _ => rfl),
      ⟨answerOf_respond .., rfl, rfl, rfl⟩, fun hk => ?_⟩
    exact (congrArg (fun x : Dsp => x.pins.contains (ow (rw r 1))) (respond_dsp ..)).trans (hp hk)
  case tableWrite => exact completes_of_sets xTableWrite fun o r d sb outs t _ hd => by rw [hd]
  case tableRead => exact completes_of_answers xTableRead (fun _ _ _ _ => rfl) fun r d t _ hd => hd
  case tableCommit =>
    exact completes_of_starts xTableCommit fun o r d sb outs t _ hd => by rw [hd]; exact ⟨rfl, rfl⟩
  case paramWrite => exact completes_of_sets xParamWrite fun o r d sb outs t _ hd => by rw [hd]
  case paramRead => exact completes_of_answers xParamRead (fun _ _ _ _ => rfl) fun r d t _ hd => hd
  case tableSwap => exact fun p tag x s hc ht => ⟨_, run_eq_next_put (f := tableSwap) rfl, tableSwap_active s.otp hc ht⟩
  case start =>
    intro id m s hm hp hb hl hn hs
    have hsas := startLoads_dsp (moveTargets s.dev m) (fun d => (moveSas d m).filter (loadable d))
    refine ⟨_, run_eq_next_put (moveStart_of_free (o := s.otp) hm hp hb hl hn hs),
      (congrArg (fun x : Dsp => tget x.moves id) (hsas _)).trans ?_,
      (congrArg (fun x : Dsp => tgetD x.started (moveSector m) 0) (hsas _)).trans ?_⟩
    · exact tget_tset_same ..
    · exact tgetD_tset_same ..
  case switchover =>
    intro id m s hm hp hc
    obtain ho | ⟨⟨k, w, b⟩, ho⟩ := Option.eq_none_or_eq_some m.obj
    · refine ⟨_, run_eq_next_put (switchover_of_position (o := s.otp) hm hp hc ho), moveOf_setMove .., fun k w b h => ?_,
        fun g _ hg => ?_⟩
      · rw [ho] at h
        cases h
      · exact congrArg (Option.map (·.slices)) (setPosition_groups m.pos m.dst hg)
    · refine ⟨_, run_eq_next_put (switchover_of_object (o := s.otp) hm hp hc ho), moveOf_setMove .., fun k' w' b' h => ?_,
        fun g h _ => ?_⟩
      · rw [ho] at h
        cases h
        exact spreadOf_of_put (x := { spreadOf s.dev k with s := w, b := b, above := 0, under := 0 }) rfl
      · rw [ho] at h
        cases h
  case drain =>
    intro id m s hm hp hd
    refine ⟨_, run_eq_next_put (drainComplete_of_drained (o := s.otp) hm hp hd), ?_⟩
    obtain ⟨h1, h2⟩ := commitCheck_moves (bulkAssign s.otp (reliefSiding m.src (moveDone id m s.dev)))
    rw [bulkAssign_dsp, reliefSiding_dsp] at h1 h2
    obtain ⟨h3, h4⟩ := moveDone_moves id m s.dev
    exact ⟨(congrArg (tget · id) (h1.trans h3)).trans (tget_tdel ..), h2.trans h4⟩
  case width =>
    intro k g s h1 h2 h3 h4 h5 h6 ha hw
    exact ⟨_, _, _, run_eq_next_put (stripeChange_of_wide (o := s.otp) ⟨h1, h2, h3, h4, h5, h6⟩ ha hw), tget_tset_same ..,
      rfl, rfl, rfl⟩
  case relief =>
    intro n s hn hr ha
    refine ⟨_, run_eq_next_put (reliefStart_of_due (o := s.otp) hn hr ha), ?_⟩
    have h := (relieving_reliefOn n s.dev).walk (o := s.otp) (s := n) (reliefGroups (reliefOn n s.dev) n)
    exact iteInduction (motive := Relieving n) (fun _ => (h.emit ..).emit ..) fun _ => h.emit ..
  case reliefEnd =>
    intro n s hr hc
    exact ⟨_, run_eq_next_put (reliefEnd_of_calm (o := s.otp) hr hc), congrArg Relief.on (reliefOf_reliefOver ..),
      congrArg Relief.moved (reliefOf_reliefOver ..)⟩
  case idle =>
    intro n s hs hn hi hu hc
    exact ⟨_, run_eq_next_put (idleDown_of_idle (o := s.otp) hs hn hi hu hc),
      (congrArg Slice.state (sliceOf_setSlice ..)).trans ((wipe_state _).trans (state_setState ..)),
      (congrArg Slice.ctxs (sliceOf_setSlice ..)).trans (wipe_ctxs _), congrArg Slice.seeded (sliceOf_setSlice ..)⟩

end Sys2Proof.Machine
end
